-- ==== Sys2Proof/Word.lean ====
section
/-!
DEFINITION. The word types of the Z9: bytes, spine registers, vectors, accumulator tiles, schedule words (R2, R49, R123).
-/

namespace Sys2Proof

/-- One byte of memory or scratchpad. -/
abbrev Byte := BitVec 8

/-- A spine register, a control register or a 64-bit memory value (R51). -/
abbrev Word := BitVec 64

/-- An element scalar register (R49). -/
abbrev SWord := BitVec 32

/-- A vector register, a granule or a 64-byte memory unit; byte 0 is the least significant (R2, R49). -/
abbrev Vec := BitVec 512

/-- An accumulator tile of 8 × 8 32-bit values; value (i,j) stands at bits 32·(8i+j) upward (R49). -/
abbrev Tile := BitVec 2048

/-- A schedule word (R123). -/
abbrev SchedWord := BitVec 128

/-- One slot of a schedule word (R130). -/
abbrev SlotBits := BitVec 56

end Sys2Proof
end

