-- ==== Sys2Proof/Syntax.lean ====
section
/-!
DEFINITION. The instructions and operations of the Z9: one constructor of `Instr` per row of the opcode table.
A slot instruction carries the fields of its slot format (R130); an operation of the device carries what it acts on.
-/

namespace Sys2Proof

/-- Format A-V, vector (R130). -/
structure AV where
  vd : BitVec 5
  va : BitVec 5
  vb : BitVec 5
  vc : BitVec 5
  ty : BitVec 4
  md : BitVec 3
  kp : BitVec 3
  kz : BitVec 1
  rx : BitVec 4
  sub : BitVec 13
  deriving DecidableEq, Repr

/-- Format A-I, vector immediate (R130). -/
structure AI where
  vd : BitVec 5
  va : BitVec 5
  ty : BitVec 4
  kp : BitVec 3
  kz : BitVec 1
  imm : BitVec 30
  deriving DecidableEq, Repr

/-- Format A-M, matrix (R130). -/
structure AM where
  ad : BitVec 3
  va : BitVec 5
  vb : BitVec 5
  vc : BitVec 5
  fa : BitVec 4
  fb : BitVec 4
  sm : BitVec 2
  ov : BitVec 1
  rm : BitVec 3
  rx : BitVec 4
  sub : BitVec 12
  deriving DecidableEq, Repr

/-- Format A-S, element scalar (R130). -/
structure AS where
  sd : BitVec 4
  sa : BitVec 4
  sb : BitVec 4
  imm : BitVec 32
  sub : BitVec 4
  deriving DecidableEq, Repr

/-- Format A-K, predicate (R130). -/
structure AK where
  kd : BitVec 3
  ka : BitVec 3
  kb : BitVec 3
  va : BitVec 5
  sa : BitVec 4
  sub : BitVec 30
  deriving DecidableEq, Repr

/-- Format B-L, scratchpad (R130). -/
structure BL where
  vr : BitVec 5
  sb : BitVec 4
  off : BitVec 17
  bf : BitVec 3
  kp : BitVec 3
  mode : BitVec 3
  rx : BitVec 4
  sz : BitVec 3
  sub : BitVec 6
  deriving DecidableEq, Repr

/-- Format B-T, route; each output byte holds the source code in bits 7:4 and the delay in bits 3:0 (R130). -/
structure BT where
  e : BitVec 8
  s : BitVec 8
  w : BitVec 8
  n : BitVec 8
  lv : BitVec 5
  lw : BitVec 5
  sub : BitVec 6
  deriving DecidableEq, Repr

/-- Format B-D, buffer and move (R130). -/
structure BD where
  b : BitVec 3
  sb : BitVec 4
  n : BitVec 17
  st : BitVec 2
  vr : BitVec 5
  sub : BitVec 17
  deriving DecidableEq, Repr

/-- Format S-G, spine register (R130). -/
structure SG where
  gd : BitVec 5
  ga : BitVec 5
  gb : BitVec 5
  sub : BitVec 33
  deriving DecidableEq, Repr

/-- Format S-I, spine immediate (R130). -/
structure SI where
  gd : BitVec 5
  ga : BitVec 5
  imm : BitVec 32
  sub : BitVec 6
  deriving DecidableEq, Repr

/-- Format S-B, branch (R130). -/
structure SB where
  ga : BitVec 5
  gb : BitVec 5
  cond : BitVec 3
  disp : BitVec 35
  deriving DecidableEq, Repr

/-- Format S-O, loop; `last` is the field the spec calls end (R130, R132). -/
structure SO where
  lvl : BitVec 2
  cg : BitVec 5
  cimm : BitVec 20
  last : BitVec 21
  deriving DecidableEq, Repr

/-- Format S-M, spine memory (R130). -/
structure SM where
  gv : BitVec 5
  gb : BitVec 5
  off : BitVec 24
  sz : BitVec 3
  scope : BitVec 3
  ord : BitVec 2
  sub : BitVec 6
  deriving DecidableEq, Repr

/-- Format S-E, engine (R130). -/
structure SE where
  h : BitVec 4
  gp : BitVec 5
  gc : BitVec 5
  disp : BitVec 24
  scope : BitVec 3
  sub : BitVec 7
  deriving DecidableEq, Repr

/-- What a frame of a collective step carries (R314). -/
inductive FrameKind where
  /-- an allowance for all bytes of a step, counted in frames -/
  | grant
  | data
  | ack
  deriving DecidableEq, Repr

/-- A COLL frame (R313, R314): its authenticated header, its sealed bytes and its tag. -/
structure Frame where
  kind : FrameKind
  grp : BitVec 32
  ggen : BitVec 32
  sender : BitVec 16
  dest : BitVec 16
  counter : BitVec 48
  /-- the position of the step among those of its ordered pair of ranks (R314) -/
  step : Nat
  /-- the frame's position within its step; for a grant, the number of frames allowed -/
  index : Nat
  count : BitVec 32
  dt : BitVec 2
  /-- where it travels: the UDP destination port, and the IPv6 and MAC address of the member (R311, R313) -/
  port : BitVec 16
  address : BitVec 128
  mac : BitVec 48
  bytes : List Byte
  tag : BitVec 128
  /-- whether its FCS is good (R309); with a bad one it may have been any frame, a precision-time message among them -/
  fcs : Bool
  deriving DecidableEq, Repr

/-- Where an uncorrectable error lies (R368, R369). -/
inductive ErrorPlace where
  /-- class 1, with the kind of R323 (0 v, 1 a, 2 s, 3 k, 4 b, 6 ring) and its index -/
  | elementRegister (row col kind index : Nat)
  /-- class 2 -/
  | granule (row col index : Nat)
  /-- classes 3, 4 and 5: a memory unit, by its physical address div 64 -/
  | memoryUnit (unit : Nat)
  /-- class 6: the wrapped key of a slot -/
  | wrappedKey (slot : Nat)
  /-- class 7: a plane while it loads -/
  | loadingPlane (folio plane : Nat)
  /-- class 8: active plane, spine state, pipelines, link stages, networks of a signature -/
  | signatureLogic (sig : Nat)
  /-- class 9: key cache, TLB, read-ahead -/
  | cache
  /-- class 10: a trace record at a die buffer -/
  | traceRecord (die : Nat)
  /-- class 11: a saved image, a descriptor or a subscription area -/
  | savedImage (sig : Nat)
  deriving DecidableEq, Repr

/-- Who runs a copy of R178's layout: a stream context of a signature, or the DMA port (R305). -/
inductive CopyRef where
  | spineCopy (sig ctx : Nat)
  | dmaCopy (index : Nat)
  deriving DecidableEq, Repr

/-- The instructions of the three opcode maps (R134 to R136) and the operations and events of the device. -/
inductive Instr where
  /-- BR (R159): Unconditional branch to a fetch-block target, costing 2 idle slots. -/
  | br (f : SB)
  /-- BRC (R159): Conditional branch that compares two g registers under cond. -/
  | brc (f : SB)
  /-- CALL (R159): Pushes the return offset and branches; raises the return-stack fault when the stack is full. -/
  | call (f : SB)
  /-- RET (R160): Pops the return stack and continues at the popped offset. -/
  | ret (f : SG)
  /-- LOOP (R162): Sets up a hardware loop level with a start, an end and a count, or skips the body when the count is 0. -/
  | loop (f : SO)
  /-- LOOPX (R164): Makes a loop level inactive and exits to after its end. -/
  | loopx (f : SO)
  /-- END (R165): Ends the launch: stops issue and starts the drain of R37. -/
  | endLaunch (f : SG)
  /-- WAITV (R166): Waits for the last VOTE result and copies vt to a g register. -/
  | waitv (f : SG)
  /-- BRI (R161): Indirect branch to code base plus a g register; raises misaligned-branch unless the target is 64-byte aligned. -/
  | bri (f : SG)
  /-- ADD (R167): 64-bit wrapping add of two g registers. -/
  | add (f : SG)
  /-- SUB (R167): 64-bit wrapping subtract. -/
  | sub (f : SG)
  /-- MUL (R167): Low 64 bits of the product. -/
  | mul (f : SG)
  /-- MULH (R167): High 64 bits of the signed product. -/
  | mulh (f : SG)
  /-- MULHU (R167): High 64 bits of the unsigned product. -/
  | mulhu (f : SG)
  /-- DIV (R168): Signed division with fixed results for division by zero and overflow; costs 7 idle slots. -/
  | div (f : SG)
  /-- DIVU (R168): Unsigned division. -/
  | divu (f : SG)
  /-- REM (R168): Signed remainder. -/
  | rem (f : SG)
  /-- REMU (R168): Unsigned remainder. -/
  | remu (f : SG)
  /-- AND (R167): Bitwise AND of g registers. -/
  | and (f : SG)
  /-- OR (R167): Bitwise OR of g registers. -/
  | or (f : SG)
  /-- XOR (R167): Bitwise XOR of g registers. -/
  | xor (f : SG)
  /-- SHL (R167): Shift left by b mod 64. -/
  | shl (f : SG)
  /-- SHR (R167): Logical shift right. -/
  | shr (f : SG)
  /-- SRA (R167): Arithmetic shift right. -/
  | sra (f : SG)
  /-- MIN (R167): Signed minimum. -/
  | min (f : SG)
  /-- MAX (R167): Signed maximum. -/
  | max (f : SG)
  /-- MINU (R167): Unsigned minimum. -/
  | minu (f : SG)
  /-- MAXU (R167): Unsigned maximum. -/
  | maxu (f : SG)
  /-- SLT (R167): Signed set-less-than. -/
  | slt (f : SG)
  /-- SLTU (R167): Unsigned set-less-than. -/
  | sltu (f : SG)
  /-- SEL (R169): Selects a or b by whether a third register is nonzero. -/
  | sel (f : SG)
  /-- CLZ (R169): Counts leading zero bits. -/
  | clz (f : SG)
  /-- POPC (R169): Counts one bits. -/
  | popc (f : SG)
  /-- EXT (R169): Extracts a bit field with zero or sign extension. -/
  | ext (f : SG)
  /-- INS (R169): Inserts a bit field into gd. -/
  | ins (f : SG)
  /-- ADDI (R170): Add of a sign-extended immediate. -/
  | addi (f : SI)
  /-- ANDI (R170): AND with a sign-extended immediate. -/
  | andi (f : SI)
  /-- ORI (R170): OR with a zero-extended immediate. -/
  | ori (f : SI)
  /-- XORI (R170): XOR with a zero-extended immediate. -/
  | xori (f : SI)
  /-- SHLI (R170): Shift left by an immediate. -/
  | shli (f : SI)
  /-- SHRI (R170): Logical shift right by an immediate. -/
  | shri (f : SI)
  /-- SRAI (R170): Arithmetic shift right by an immediate. -/
  | srai (f : SI)
  /-- MOVI (R170): Loads a sign-extended 32-bit immediate. -/
  | movi (f : SI)
  /-- MOVHI (R170): Places an immediate in the high half and keeps the low half of ga. -/
  | movhi (f : SI)
  /-- SLTI (R170): Signed set-less-than against an immediate. -/
  | slti (f : SI)
  /-- LDG (R171): Spine load through the spine context, possibly from read-ahead; waits for the data. -/
  | ldg (f : SM)
  /-- STG (R171): Spine store written through to the home. -/
  | stg (f : SM)
  /-- ATOM (R172): Spine memory atomic performed at the home; returns the old value. -/
  | atom (f : SM)
  /-- LDLIT (R173): Reads a literal from an image pool through the fetch path. -/
  | ldlit (f : SM)
  /-- FENCE (R174): Acquire, release or both at a scope for the spine's memory accesses. -/
  | fence (f : SM)
  /-- STRM (R176): Reads a parameter block, checks it and starts a stream on a port handle. -/
  | strm (f : SE)
  /-- SWAIT (R177): Waits until a handle is idle, then acquires at scope (the join edge). -/
  | swait (f : SE)
  /-- CPY (R178): Starts a resealing copy between two keys through a handle of folio (0,0). -/
  | cpy (f : SE)
  /-- COLL (R179): Hands one collective step to the die's collective engine. -/
  | coll (f : SE)
  /-- WAITC (R180): Polls a completion object with acquire until it reaches a value. -/
  | waitc (f : SE)
  /-- SIGNAL (R181): Writes or adds to a completion object with release. -/
  | signal (f : SE)
  /-- BAR (R182): ARRV and then BWAIT on a barrier object; with zero operands, the signature drain of R183. -/
  | bar (f : SE)
  /-- ARRV (R182): Atomic arrival at a barrier that records the old phase. -/
  | arrv (f : SE)
  /-- BWAIT (R182): Waits until the barrier phase differs from bar.PH. -/
  | bwait (f : SE)
  /-- LAUNCH (R184): Enqueues a launch record from memory on the spine's own interface. -/
  | launch (f : SE)
  /-- FBC (R185): Sets the broadcast scalar latch for the next fabric word. -/
  | fbc (f : SG)
  /-- SETM (R186): Writes the fabric mode register. -/
  | setm (f : SI)
  /-- CFGLD (R187): Loads an image configuration into a plane of every folio as an engine operation. -/
  | cfgld (f : SE)
  /-- PLSW (R188): Requests a plane switch with a generation advance at the next seam. -/
  | plsw (f : SG)
  /-- ENTER (R189): Pushes a region identifier. -/
  | enter (f : SI)
  /-- LEAVE (R189): Pops the region stack. -/
  | leave (f : SG)
  /-- TRACE (R190): Stages a software trace record. -/
  | trace (f : SG)
  /-- PROG (R189): Adds to the progress counter prog.CNT. -/
  | prog (f : SI)
  /-- RDCYC (R189): Reads the wall cycle count or T. -/
  | rdcyc (f : SG)
  /-- RDTIME (R189): Reads the disciplined time and its fraction. -/
  | rdtime (f : SG)
  /-- CNTR_CFG (R191): Configures the event of a capture counter. -/
  | cntrCfg (f : SG)
  /-- CNTR_START (R191): Zeroes the counters and begins capture. -/
  | cntrStart (f : SG)
  /-- CNTR_STOP (R191): Ends capture and writes the 128-byte result. -/
  | cntrStop (f : SG)
  /-- CNTR_READ (R191): Reads a capture counter. -/
  | cntrRead (f : SG)
  /-- BKPT (R189): Takes a debug stop at this word if debug is armed. -/
  | bkpt (f : SI)
  /-- JSUB (R193): Subscribes a journal record area with a filter. -/
  | jsub (f : SG)
  /-- JUNSUB (R193): Ends a subscription. -/
  | junsub (f : SG)
  /-- JPIN (R291): Pins an object at a version, deferring later transactions. -/
  | jpin (f : SG)
  /-- JUNPIN (R291): Removes the pin and releases deferred transactions. -/
  | junpin (f : SG)
  /-- JPROP (R280): Proposes a transaction and returns its number, or 0 if refused. -/
  | jprop (f : SG)
  /-- JLOAD (R294): Checks an exported journal and queues its replay. -/
  | jload (f : SG)
  /-- JREAD (R193): Reads the last transaction number of an object or of the device. -/
  | jread (f : SG)
  /-- JWAIT (R193): Waits until a subscription has written more records than a count. -/
  | jwait (f : SG)
  /-- SEQNEW (R92): Allocates a sequence key slot with a fresh key. -/
  | seqnew (f : SG)
  /-- SEQROT (R94): Rotates a sequence key and moves the current key to OLD. -/
  | seqrot (f : SG)
  /-- SEQEND (R95): Destroys a sequence key and frees its slot on every die. -/
  | seqend (f : SG)
  /-- TRAP (R195): Raises a user trap with a code and payload. -/
  | trap (f : SI)
  /-- CSRR (R195): Reads a spine control register. -/
  | csrr (f : SI)
  /-- CSRW (R195): Writes a spine control register. -/
  | csrw (f : SI)
  /-- GENADV (R61): Requests a generation advance at the next seam. -/
  | genadv (f : SG)
  /-- YIELD (R195): Has the bindery pre-empt the signature if a waiting record cannot be placed. -/
  | yield (f : SG)
  /-- VADD (R204): Lane-wise integer add, wrapping or saturating. -/
  | vadd (f : AV)
  /-- VSUB (R204): Lane-wise integer subtract. -/
  | vsub (f : AV)
  /-- VMUL (R204): Lane-wise integer multiply. -/
  | vmul (f : AV)
  /-- VMULH (R204): Lane-wise high half of the product, with optional rounding. -/
  | vmulh (f : AV)
  /-- VMAD (R204): Lane-wise integer multiply-add. -/
  | vmad (f : AV)
  /-- VAND (R204): Lane-wise AND. -/
  | vand (f : AV)
  /-- VOR (R204): Lane-wise OR. -/
  | vor (f : AV)
  /-- VXOR (R204): Lane-wise XOR. -/
  | vxor (f : AV)
  /-- VSHL (R204): Lane-wise shift left. -/
  | vshl (f : AV)
  /-- VSHR (R204): Lane-wise logical shift right. -/
  | vshr (f : AV)
  /-- VSRA (R204): Lane-wise arithmetic shift right. -/
  | vsra (f : AV)
  /-- VMIN (R204): Lane-wise integer minimum. -/
  | vmin (f : AV)
  /-- VMAX (R204): Lane-wise integer maximum. -/
  | vmax (f : AV)
  /-- VABS (R204): Lane-wise absolute value. -/
  | vabs (f : AV)
  /-- VCMP (R207): Compares integer lanes into a predicate. -/
  | vcmp (f : AV)
  /-- VSEL (R208): Selects lanes by a predicate. -/
  | vsel (f : AV)
  /-- VCLZ (R204): Lane-wise count of leading zeros. -/
  | vclz (f : AV)
  /-- VPOPC (R204): Lane-wise population count. -/
  | vpopc (f : AV)
  /-- VADDI (R206): Lane-wise add of an immediate. -/
  | vaddi (f : AI)
  /-- VMULI (R206): Lane-wise multiply by an immediate. -/
  | vmuli (f : AI)
  /-- VANDI (R206): Lane-wise AND with an immediate. -/
  | vandi (f : AI)
  /-- VSHLI (R206): Lane-wise shift left by an immediate. -/
  | vshli (f : AI)
  /-- VSHRI (R206): Lane-wise logical shift right by an immediate. -/
  | vshri (f : AI)
  /-- VMOVI (R206): Broadcasts an integer or F30 float immediate to every lane. -/
  | vmovi (f : AI)
  /-- FADD (R209): Lane-wise float add with one rounding. -/
  | fadd (f : AV)
  /-- FSUB (R209): Lane-wise float subtract. -/
  | fsub (f : AV)
  /-- FMUL (R209): Lane-wise float multiply. -/
  | fmul (f : AV)
  /-- FFMA (R209): Lane-wise fused multiply-add. -/
  | ffma (f : AV)
  /-- FMIN (R210): Lane-wise float minimum. -/
  | fmin (f : AV)
  /-- FMAX (R210): Lane-wise float maximum. -/
  | fmax (f : AV)
  /-- FABS (R210): Clears the sign bit. -/
  | fabs (f : AV)
  /-- FNEG (R210): Flips the sign bit. -/
  | fneg (f : AV)
  /-- FCMP (R213): Compares float lanes into a predicate. -/
  | fcmp (f : AV)
  /-- FRCP (R211): FP32 reciprocal, correctly rounded. -/
  | frcp (f : AV)
  /-- FRSQ (R211): FP32 reciprocal square root. -/
  | frsq (f : AV)
  /-- FEXP2 (R211): FP32 base-2 exponential. -/
  | fexp2 (f : AV)
  /-- FLOG2 (R211): FP32 base-2 logarithm. -/
  | flog2 (f : AV)
  /-- FTANH (R211): FP32 hyperbolic tangent. -/
  | ftanh (f : AV)
  /-- FCVT (R212): Converts lanes between any two formats, by part. -/
  | fcvt (f : AV)
  /-- FRNDI (R214): Rounds lanes to integral values. -/
  | frndi (f : AV)
  /-- FSCL (R209): Scales lanes by a power of two. -/
  | fscl (f : AV)
  /-- FMULI (R209): Multiplies lanes by an FP32 immediate. -/
  | fmuli (f : AI)
  /-- VRED (R216): Reduces the included lanes into lane 0. -/
  | vred (f : AV)
  /-- VSHUF (R217): Shuffles lanes from two registers by byte indices. -/
  | vshuf (f : AV)
  /-- VROT (R218): Rotates lanes. -/
  | vrot (f : AV)
  /-- VBCST (R218): Broadcasts one lane. -/
  | vbcst (f : AV)
  /-- VINS (R218): Inserts lane 0 of vb at lane j. -/
  | vins (f : AV)
  /-- VEXT (R218): Extracts a window across two registers. -/
  | vext (f : AV)
  /-- VSCAN (R216): Inclusive prefix combine over the included lanes. -/
  | vscan (f : AV)
  /-- MMA (R228): Matrix multiply-accumulate into a tile. -/
  | mma (f : AM)
  /-- MMAS (R228): Block-scaled matrix multiply-accumulate. -/
  | mmas (f : AM)
  /-- MZERO (R229): Zeroes a tile and sets its kind. -/
  | mzero (f : AM)
  /-- MDRN (R230): Drains part of a tile into a vector with conversion. -/
  | mdrn (f : AM)
  /-- MDRQ (R231): Requantises four tiles into MX element and scale vectors. -/
  | mdrq (f : AM)
  /-- MLDR (R229): Loads two tile rows from a vector. -/
  | mldr (f : AM)
  /-- MTRN (R229): Transposes a tile. -/
  | mtrn (f : AM)
  /-- SADD (R220): 32-bit element scalar add. -/
  | sadd (f : AS)
  /-- SSUB (R220): Element scalar subtract. -/
  | ssub (f : AS)
  /-- SMUL (R220): Element scalar multiply. -/
  | smul (f : AS)
  /-- SAND (R220): Element scalar AND. -/
  | sand (f : AS)
  /-- SOR (R220): Element scalar OR. -/
  | sor (f : AS)
  /-- SXOR (R220): Element scalar XOR. -/
  | sxor (f : AS)
  /-- SSHL (R220): Element scalar shift left. -/
  | sshl (f : AS)
  /-- SSHR (R220): Element scalar shift right, logical or arithmetic. -/
  | sshr (f : AS)
  /-- SMOVI (R220): Loads a 32-bit immediate into an s register. -/
  | smovi (f : AS)
  /-- SSLT (R220): Element scalar set-less-than. -/
  | sslt (f : AS)
  /-- SADDI (R220): Element scalar add of an immediate. -/
  | saddi (f : AS)
  /-- KAND (R222): Predicate AND. -/
  | kand (f : AK)
  /-- KOR (R222): Predicate OR. -/
  | kor (f : AK)
  /-- KXOR (R222): Predicate XOR. -/
  | kxor (f : AK)
  /-- KNOT (R222): Predicate NOT. -/
  | knot (f : AK)
  /-- KMOV (R222): Builds a predicate from a k, v or s source. -/
  | kmov (f : AK)
  /-- KPOPC (R222): Counts predicate bits into an s register. -/
  | kpopc (f : AK)
  /-- VOTE (R223): Contributes a predicate to a signature-wide reduction. -/
  | vote (f : AK)
  /-- ELID (R221): Reads a coordinate of the executing element. -/
  | elid (f : AS)
  /-- LD (R235): Aligned 64-byte scratchpad load. -/
  | ld (f : BL)
  /-- ST (R235): Aligned 64-byte scratchpad store. -/
  | st (f : BL)
  /-- LDS (R236): Scalar scratchpad load. -/
  | lds (f : BL)
  /-- STS (R236): Scalar scratchpad store. -/
  | sts (f : BL)
  /-- LDX (R235): Unaligned 64-byte scratchpad load. -/
  | ldx (f : BL)
  /-- STX (R235): Unaligned 64-byte scratchpad store. -/
  | stx (f : BL)
  /-- LDB (R237): Loads a granule of a FULL buffer. -/
  | ldb (f : BL)
  /-- STB (R237): Stores a granule of an EMPTY buffer. -/
  | stb (f : BL)
  /-- SATOM (R238): Atomic operation on a scratchpad word. -/
  | satom (f : BL)
  /-- BDECL (R239): Declares a buffer's base and count. -/
  | bdecl (f : BD)
  /-- BSTATE_FULL (R239): Marks an EMPTY buffer FULL. -/
  | bstateFull (f : BD)
  /-- BSTATE_EMPTY (R239): Marks a FULL buffer EMPTY and clears VOID. -/
  | bstateEmpty (f : BD)
  /-- BQRY (R239): Reads a buffer descriptor into two s registers. -/
  | bqry (f : BD)
  /-- RT (R232): Sends up to four values to neighbours through delay lines. -/
  | rt (f : BT)
  /-- VMOV (R240): Copies a vector register with its tags. -/
  | vmov (f : BD)
  /-- SMOV (R240): Moves a lane, the broadcast scalar or an s register into an s register. -/
  | smov (f : BD)
  /-- RINGSET (R241): Sets a ring descriptor. -/
  | ringset (f : BD)
  /-- VFROMS (R240): Broadcasts or inserts an s register value into a vector. -/
  | vfroms (f : BD)
  /-- EGR_VECTOR (R242): Queues a vector as the element's next egress granule. -/
  | egrVector (f : BD)
  /-- EGR_BUFFER (R242): Hands a FULL buffer to egress; the buffer becomes DRAINING. -/
  | egrBuffer (f : BD)
  /-- CNT_SEL (R243): Zeroes an element counter and selects its event. -/
  | cntSel (f : BD)
  /-- CNT_RDLO (R243): Reads the low half of an element counter. -/
  | cntRdlo (f : BD)
  /-- CNT_RDHI (R243): Reads the high bits of an element counter. -/
  | cntRdhi (f : BD)
  /-- CNT_CLR (R243): Clears an element counter. -/
  | cntClr (f : BD)
  /-- CNT_HLO (R243): Reads the low half of the hold counter. -/
  | cntHlo (f : BD)
  /-- CNT_HHI (R243): Reads the high half of the hold counter. -/
  | cntHhi (f : BD)
  /-- SPINE_EMIT_WORD (R18): In each unfrozen cycle the lead spine decodes and emits one word slot, a fabric word or an idle word. -/
  | spineEmitWord (sig : Nat)
  /-- FETCH_BLOCK_ARRIVES (R18): A fetch block of code arrives at the lead spine, ending idle issue. -/
  | fetchBlockArrives (sig block : Nat)
  /-- RESULT_LANDS (R201): A pending result with latency lambda is written at E plus lambda. -/
  | resultLands (sig row col : Nat)
  /-- VOTE_RESULT_DELIVERED (R22): The vote reduction reaches vt at I(n) + 2·span + 32. -/
  | voteResultDelivered (sig : Nat)
  /-- ROUTE_VALUE_LANDS (R233): A routed value leaves its delay line and lands in a neighbour's port view. -/
  | routeValueLands (sig row col : Nat)
  /-- WAIT_CONDITION_CHECK (R23): An element evaluates an H=1 word's wait conditions from E−16. -/
  | waitConditionCheck (sig : Nat)
  /-- HOLD_FREEZE (R24): The signature freezes 12 cycles after some element asserts hold. -/
  | holdFreeze (sig : Nat)
  /-- HOLD_RELEASE (R24): Hold clears and the signature resumes after the hold network delay. -/
  | holdRelease (sig : Nat)
  /-- SPINE_WAIT_SATISFIED (R158): A waiting spine instruction's condition or answer arrives and the spine continues. -/
  | spineWaitSatisfied (sig : Nat)
  /-- WAITC_POLL (R180): A waiting WAITC or BWAIT rereads its location at least every 256 unfrozen cycles. -/
  | waitcPoll (sig : Nat)
  /-- CWAIT_POLL (R32): The bindery rereads a waiting record's CWAIT at least every 2^16 cycles. -/
  | cwaitPoll (vif : Nat)
  /-- PRIORITY_AGING (R33): A record's effective priority rises by one per full 2^24 cycles of waiting. -/
  | priorityAging (vif : Nat)
  /-- CANDIDATE_BECOMES_BLOCKING (R34): A candidate that failed to fit for 2^24 cycles becomes blocking. -/
  | candidateBecomesBlocking (vif : Nat)
  /-- FREEZE_WAVE_EFFECT (R41): A requested freeze wave stops the whole signature 12 cycles after the request. -/
  | freezeWaveEffect (sig : Nat)
  /-- IMAGE_SAVE (R42): After a freeze and the draining of port requests, the signature image is saved to the image store. -/
  | imageSave (sig : Nat)
  /-- IMAGE_RESTORE (R66): A saved image is restored into a placement of the same shape under a new generation. -/
  | imageRestore (sig row col : Nat)
  /-- WRAP_SWEEP (R65): A 1,600-cycle sweep zeroes element state when the generation wraps. -/
  | wrapSweep (sig : Nat)
  /-- SEAM_PLANE_SWITCH (R46): After the seam drain, every folio activates the target plane and the generation advances. -/
  | seamPlaneSwitch (sig : Nat)
  /-- SEAM_GENERATION_ADVANCE (R61): A pending GENADV advances every element's generation at the seam after the drain. -/
  | seamGenerationAdvance (sig : Nat)
  /-- LAUNCH_COMPLETE (R37): After END's drain of engine operations, CDONE is written and the folios become idle. -/
  | launchComplete (sig : Nat)
  /-- INTERRUPT_WINDOW_EXPIRY (R38): The coalescing window ends and one interrupt is delivered with its END count. -/
  | interruptWindowExpiry (vif : Nat)
  /-- PLANE_LOAD_COMPLETE (R45): A plane finishes loading and becomes READY. -/
  | planeLoadComplete (folio plane : Nat)
  /-- STREAM_REQUEST_ISSUE (R83): A port context issues its next request in R81 order when a request slot is free. -/
  | streamRequestIssue (sig ctx : Nat)
  /-- TLB_WALK_COMPLETE (R73): A hardware walker finishes a page-table walk and fills the edge TLB. -/
  | tlbWalkComplete (request : Nat)
  /-- KEY_CACHE_UNWRAP (R90): A key-cache miss completes its unwrap of the wrapped key. -/
  | keyCacheUnwrap (request : Nat)
  /-- HOME_APPLY_REQUEST (R89): A home controller accepts a write, partial write or atomic and applies it indivisibly. -/
  | homeApplyRequest (request : Nat)
  /-- REQUEST_REPLY (R89): A read reply arrives at its port, is opened, and its data is delivered. -/
  | requestReply (request : Nat)
  /-- FILL_HALF_LANDS (R60): A 32-byte fill half is written into an element buffer, updating FCNT and state. -/
  | fillHalfLands (sig ctx : Nat)
  /-- DEFERRED_VOID (R371): A waiting key-retired discard voids its buffer once the buffer is EMPTY again. -/
  | deferredVoid (sig ctx : Nat)
  /-- EGRESS_GRANULE_TAKEN (R242): The port takes an egress granule from an element's queue. -/
  | egressGranuleTaken (sig row col : Nat)
  /-- STREAM_COMPLETE (R84): A stream's requests and granules are all done; the CDONE add is made and the handle frees. -/
  | streamComplete (sig ctx : Nat)
  /-- READ_AHEAD_EXPIRY (R86): A spine read-ahead entry is dropped 4,096 cycles after its fetch. -/
  | readAheadExpiry (sig : Nat)
  /-- CPY_UNIT_TRANSFER (R178): A copy reads a unit under the source key and writes it under the destination key. -/
  | cpyUnitTransfer (copy : CopyRef)
  /-- COLL_STEP_START (R316): The collective engine takes a step from its handle and sends its grant. -/
  | collStepStart (step : Nat)
  /-- COLL_RETRANSMIT (R314): A frame unacknowledged for 20 µs is retransmitted. -/
  | collRetransmit (step : Nat)
  /-- COLL_STEP_TIMEOUT (R314): A step without peer frames for TMO ends MEMBER_LOST and advances GGEN. -/
  | collStepTimeout (step : Nat)
  /-- FAULT_STOP_FREEZE (R352): The signature freezes 12 cycles after an element fault and its records are written. -/
  | faultStopFreeze (sig : Nat)
  /-- FAULT_STOP_RESUME (R352): The signature resumes 12 cycles after the last RESUME answer is accepted. -/
  | faultStopResume (sig : Nat)
  /-- LAUNCH_END_BY_FAULT (R355): A launch ends by fault: streams stop, CDONE receives bit 63 and the folios become idle. -/
  | launchEndByFault (sig : Nat)
  /-- TRANSACTION_APPLY (R281): A PROPOSED transaction applies at its object's seam. -/
  | transactionApply (number : Nat)
  /-- FMT_APPLY (R289): Once the range is closed, the copy is converted and the range entries are swapped. -/
  | fmtApply (number : Nat)
  /-- TRIAL_START (R274): An APPLIED transaction enters TRIAL in the measured signature's first unfrozen cycle. -/
  | trialStart (number : Nat)
  /-- TRIAL_WINDOW_END (R283): At the end of the trial window the engine settles or reverts by rate. -/
  | trialWindowEnd (number : Nat)
  /-- TRIAL_TIMEOUT (R274): A trial not complete 2^32 cycles after it began settles with CAUSE 13. -/
  | trialTimeout (number : Nat)
  /-- PROPOSAL_VALIDITY_EXPIRY (R280): A PROPOSED transaction's validity expires and it is WITHDRAWN. -/
  | proposalValidityExpiry (number : Nat)
  /-- COMPOUND_REVERT_UNDO (R286): A member of a compound revert is undone at its object's seam. -/
  | compoundRevertUndo (number : Nat)
  /-- CAUSAL_TRIAL (R296): A causal trial runs two windows, one with delays, and writes a report. -/
  | causalTrial (sig region fraction : Nat) (wlog : Nat)
  /-- CAUSAL_DELAY (R296): For each 256 measured cycles outside region ρ, the signature is frozen for F cycles. -/
  | causalDelay (sig : Nat)
  /-- FOLIO_POWER_GATE (R339): A folio idle for 2^24 cycles is flushed and power-gated. -/
  | folioPowerGate (folio : Nat)
  /-- FOLIO_UNGATE_COMPLETE (R339): Ungating a folio completes after 16,384 cycles. -/
  | folioUngateComplete (folio : Nat)
  /-- TRACE_STAGE_DRAIN (R317): The die buffer takes up to 8 staged records per cycle from its folios. -/
  | traceStageDrain (die : Nat)
  /-- TRACE_RING_COPY (R317): The trace engine copies die buffer records to the ring, stopping when the ring is full. -/
  | traceRingCopy (die : Nat)
  /-- LAUNCH_WINDOW_WRITE (R28): A 64-byte posted write to a launch window slot delivers a launch record to the bindery. -/
  | launchWindowWrite (vif offset size : Nat) (record : Vec)
  /-- BINDERY_STEP (R33): The bindery visits interfaces by weighted round-robin and places candidates by first fit. -/
  | binderyStep
  /-- PLANE_LOAD_ERROR (R386): An uncorrectable error during a plane load leaves it INVALID and reports config-load. -/
  | planeLoadError (folio plane : Nat)
  /-- TLBINV_ALL (R73): Invalidates the whole edge TLB. -/
  | tlbinvAll
  /-- TLBINV_INTERFACE (R73): Invalidates one interface's TLB entries. -/
  | tlbinvInterface (vif : Nat)
  /-- TLBINV_PAGE (R73): Invalidates entries overlapping a 64 KiB page of one interface. -/
  | tlbinvPage (vif addr : Nat)
  /-- TLBINV_PAGE_ALL (R73): Invalidates entries overlapping a 64 KiB page of every interface. -/
  | tlbinvPageAll (addr : Nat)
  /-- TLBINV_COMPLETE (R73): An invalidation completes once requests translated by the invalidated entries have completed. -/
  | tlbinvComplete
  /-- DMA_WINDOW_WRITE (R305): A 64-byte write to the DMA window queues one copy. -/
  | dmaWindowWrite (priv : Bool) (vif offset size : Nat) (block : Vec)
  /-- DATA_IMAGE_COPY (R305): A privileged DMA write with DI = 1 queues a plaintext-to-sealed data-image copy. -/
  | dataImageCopy (vif : Nat) (block : Vec)
  /-- DMA_COPY_START (R305): The DMA port starts a queued copy in arrival order when fewer than 8 run. -/
  | dmaCopyStart
  /-- COLL_GRANT_RECEIVE (R314): An allowance grant from the peer arrives and frames may be sent. -/
  | collGrantReceive (frame : Frame)
  /-- COLL_DATA_FRAME_RECEIVE (R314): A sealed data frame arrives, is authenticated, written or reduced, and acknowledged. -/
  | collDataFrameReceive (frame : Frame)
  /-- COLL_ACK_RECEIVE (R314): The acknowledgement of a sent frame arrives. -/
  | collAckReceive (frame : Frame)
  /-- ETHERNET_PORT_DOWN (R394): An Ethernet port goes down; steps bound to it stall, or ETHP 15 steps move to another port. -/
  | ethernetPortDown (port : Nat)
  /-- PTP_MESSAGE_RECEIVE (R309): A precision-time message arrives on the chosen port. -/
  | ptpMessageReceive (port : Nat) (offset : Int)
  /-- SERVO_CORRECTION (R310): After a sync interval the servo corrects the counter's phase and rate. -/
  | servoCorrection (phase ratePpm : Int)
  /-- SYNC_LOSS (R310): After 16 sync intervals without a message, SYNC becomes 0. -/
  | syncLoss
  /-- GFORM (R311): A privileged write forms or replaces a collective group and derives its key. -/
  | gform (vif : Nat) (addr : Word)
  /-- IMGREG (R308): A privileged write registers and verifies a program image. -/
  | imgreg (vif : Nat) (addr : Word)
  /-- IMGDEL (R308): A privileged write deregisters an image. -/
  | imgdel (vif : Nat) (code : Word)
  /-- JEXP (R306): A write starts an export of the interface's settled journal. -/
  | jexp (vif : Nat) (addr : Word)
  /-- JREV (R287): A privileged write forces the revert of a transaction, or is refused. -/
  | jrev (vif : Nat) (number : Word)
  /-- JPRV (R304): A privileged write proposes a transaction. -/
  | jprv (vif : Nat) (addr : Word)
  /-- FRESP_ABORT (R351): An ABORT answer to a fault record ends the launch. -/
  | frespAbort (vif seq : Nat)
  /-- FRESP_RESUME (R351): A RESUME answer to a STOP record. -/
  | frespResume (vif seq : Nat)
  /-- FRESP_RETRY (R351): A RETRY answer reissues faulted requests or re-performs a spine slot. -/
  | frespRetry (vif seq : Nat)
  /-- DBG_RESUME (R322): A write of DBG.RESUME lifts every debug freeze wave in one cycle. -/
  | dbgResume (vif : Nat)
  /-- DSEL_READ (R323): A debugger read of element or spine state. -/
  | dselRead (vif : Nat) (sel : Word)
  /-- DSEL_WRITE (R323): A debugger write of element or spine state. -/
  | dselWrite (vif : Nat) (sel : Word)
  /-- TRING_WRITE (R341): Software advances the trace ring read index. -/
  | tringWrite (value : Word)
  /-- MCAP_WRITE (R338): Board management sets the module power cap. -/
  | mcapWrite (value : Word)
  /-- CARVE_WRITE (R335): Setting CARVE allows, or retries, the move to full service. -/
  | carveWrite (value : Word)
  /-- ECARVE_WRITE (R334): A once-per-boot write of the state-2 host-memory carve-out. -/
  | ecarveWrite (value : Word)
  /-- REGISTER_WRITE (R303): A write to a register with no behaviour of its own, or to an unassigned or read-only offset. -/
  | registerWrite (priv : Bool) (offset : Nat) (value : Word)
  /-- DEBUG_STOP (R322): A BKPT or watchpoint hit stops the device with freeze waves on every signature. -/
  | debugStop (vif cause code : Nat)
  /-- UNCORRECTABLE_ERROR (R368): An uncorrectable error is detected and raises its class's disposition. -/
  | uncorrectableError (place : ErrorPlace)
  /-- ENGINE_PROPOSAL (R270): The journal engine proposes a transaction by itself from the dune map. -/
  | engineProposal (vif : Nat) (proposal : Vec) (after : Vec)
  /-- RST_N_DEASSERT (R330): Deasserting RST_N starts bring-up in RESET and then VERIFY. -/
  | rstNDeassert
  /-- RST_N_ASSERT (R330): Asserting RST_N is a module reset that loses all state. -/
  | rstNAssert
  /-- VERIFY_COMPONENT (R332): The security controller verifies a firmware component and extends its measurement register. -/
  | verifyComponent (order : Nat) (bytes : List Byte) (keyX keyY sigR sigS : Nat)
  /-- EARLY_TRAINING_COMPLETE (R331): Die 0, the host link and the service paths are trained; the module enters EARLY. -/
  | earlyTrainingComplete
  /-- FULL_SERVICE_TRANSITION (R335): When training completes, signatures freeze, the carve-out is copied and the module enters FULL. -/
  | fullServiceTransition
  /-- TRAINING_FAILURE (R336): A die, stack, boundary or service link fails training and the module halts. -/
  | trainingFailure (service : Bool) (die : Nat)
  /-- ETHERNET_TRAINING_FAILURE (R336): One Ethernet port fails training and stays down. -/
  | ethernetTrainingFailure (port : Nat)
  /-- GET_VERSION (R333): SPDM GET_VERSION request answered with version 1.2. -/
  | getVersion (path : Bool)
  /-- GET_CAPABILITIES (R333): SPDM GET_CAPABILITIES request. -/
  | getCapabilities (path : Bool)
  /-- NEGOTIATE_ALGORITHMS (R333): SPDM algorithm negotiation request. -/
  | negotiateAlgorithms (path : Bool) (asym hash : BitVec 32)
  /-- GET_DIGESTS (R333): SPDM GET_DIGESTS for slot 0. -/
  | getDigests (path : Bool)
  /-- GET_CERTIFICATE (R333): SPDM GET_CERTIFICATE for the device identity chain. -/
  | getCertificate (path : Bool) (slot : BitVec 8)
  /-- CHALLENGE (R333): SPDM CHALLENGE with a measurement summary hash. -/
  | challenge (path : Bool) (slot summary : BitVec 8) (nonce : BitVec 256)
  /-- GET_MEASUREMENTS (R333): SPDM GET_MEASUREMENTS returning MR0 to MR15. -/
  | getMeasurements (path : Bool) (index : BitVec 8) (nonce : BitVec 256)
  /-- UNSUPPORTED_REQUEST (R333): Any other SPDM request is answered with UnsupportedRequest. -/
  | unsupportedRequest (path : Bool) (code : BitVec 8)
  /-- POWER_ENFORCEMENT_WINDOW (R338): Every 2^20 cycles the management controller recomputes the interfaces' issue shares from power estimates. -/
  | powerEnforcementWindow
  /-- THERMAL_EMERGENCY_CAP (R340): A junction at 100 °C or more applies an 80 % cap. -/
  | thermalEmergencyCap (temp die : Nat)
  /-- THERMAL_SHARE_LIMIT (R340): A junction at 110 °C or more limits every share to 1/16. -/
  | thermalShareLimit (temp die : Nat)
  /-- THERMAL_HALT (R340): A junction at 120 °C or more halts the module. -/
  | thermalHalt (temp die : Nat)
  /-- THERMAL_RELEASE (R340): A thermal action is released 5 °C below its threshold. -/
  | thermalRelease (temp die : Nat)
  /-- REGISTER_READ (R303): A host read of an interface or management register: a read of a tenant-denied or unassigned offset records register-access, and every read first waits for the thread's earlier posted window writes (R403). -/
  | registerRead (priv : Bool) (offset : Nat)
  /-- WORLD_KEY_CREATE (R91): Privileged software creates an interface's world key, which streams with KW = 1 and the host's data-image copies then use. -/
  | worldKeyCreate (vif : Nat)
  /-- WORLD_KEY_DESTROY (R377): Privileged software destroys a world key, after which requests under it raise a key fault that accepts only ABORT. -/
  | worldKeyDestroy (vif : Nat)
  /-- PRECISION_TIME_MESSAGE_SEND (R309): The ordinary clock on the chosen port sends its two-step precision-time messages on its own intervals, as time receiver or, where permitted, as time transmitter. -/
  | precisionTimeMessageSend (port : Nat)
  /-- NOP (R134): A no-operation slot in any map; it does nothing. -/
  | nop
  deriving DecidableEq, Repr

end Sys2Proof
end

