-- ==== Sys2Proof/Config.lean ====
section
/-!
DEFINITION. What one module fixes and the spec leaves open: free values without a body, and fused values.
Every name here is a row of the assumption log. Nothing in Lean can evaluate one of these, so a statement holds for every value.
-/

namespace Sys2Proof

/-- Whether an event of open latency happens at this point (log 1, DESIGN CHOICE): applied to the counter `free` of the state. -/
opaque Config.occurs : Nat → Bool

/-- How many times an instruction waits before a controller answers it (log 1, DESIGN CHOICE): applied to the counter `free` of the state. -/
opaque Config.controllerWait : Nat → Nat

/-- A choice among open alternatives (log 5, DESIGN CHOICE): applied to the counter `free` of the state. -/
opaque Config.choice : Nat → Nat

/-- A key the security controller draws: the first 256-bit half, and the distance to a different second half (R92; log 6, DESIGN CHOICE). -/
opaque Config.keyDraw : Nat → BitVec 256 × Nat

/-- A random value of the security controller: an SPDM nonce (R333; log 6, DESIGN CHOICE). -/
opaque Config.random : Nat → BitVec 256

/-- The signature an attestation answer carries, over the SHA-384 digest of what is signed (R333; log 6, DESIGN CHOICE): its value is not given. -/
opaque Config.attestationSignature : BitVec 384 → BitVec 768

/-- What an SPDM CAPABILITIES answer says of times and sizes: CTExponent, DataTransferSize and MaxSPDMmsgSize (R333; log 6, DESIGN CHOICE). -/
opaque Config.spdmSizes : BitVec 72

/-- The fused serial number and stepping (R342; log 7, DESIGN CHOICE). -/
opaque Config.serial : BitVec 64
opaque Config.stepping : BitVec 16

/-- The firmware version the boot ROM's successor reports (R342; log 7, DESIGN CHOICE). -/
opaque Config.firmwareVersion : BitVec 64

/-- The fused digest of the vendor key and the device certificate chain (R332, R333; log 7, DESIGN CHOICE). -/
opaque Config.vendorKeyDigest : BitVec 384
opaque Config.certificateChain : List Byte

/-- What the power estimate weighs activity with (R338; log 8, DESIGN CHOICE), in units of 2⁻²⁰ W over one enforcement window: one
multiply-accumulate of an operand width in bits; a byte of the scratchpad, of a fill, of the wadi and of HBM, by number; and the leakage of the
whole module in watts. -/
opaque Config.macPower : Nat → Nat
opaque Config.bytePower : Nat → Nat
opaque Config.leakage : Nat

/-- The rate of a baseline window without a measured cycle (R283; log 13, DESIGN CHOICE): applied to the transaction number. -/
opaque Config.emptyRate : Nat → BitVec 32

/-- The bytes of a unit that the device sealed in a carve-out (R343; log 73, DEDUCED): applied to the counter `free` and the unit's number. -/
opaque Config.sealedUnit : Nat → Nat → BitVec 512

end Sys2Proof
end

