-- ==== Sys2Proof/WellFormed.lean ====
section
/-!
DEFINITION. Which field values make a slot legal: items 5 to 11 and 13 of R137, slot by slot.
`Instr.slotItem` gives the lowest item a slot breaks, the AUX value of its illegal-word record (R344, R356).
-/

namespace Sys2Proof

/-- The lowest item among ascending checks whose condition holds. -/
def firstBroken : List (Nat × Bool) → Option Nat
  | [] => none
  | (item, broken) :: rest => if broken then some item else firstBroken rest

/-- A vector destination naming v28 to v31 (item 6, R50). -/
def badDest (v : BitVec 5) : Bool := 28 ≤ v.toNat

/-- Ring control with bits 1:0 = 00 and bits 3:2 ≠ 00 (item 7, R55). -/
def badRx (rx : BitVec 4) : Bool := rx.extractLsb' 0 2 == 0 && rx != 0

/-- A rounding field holding code 5 or 6 (item 8, R105). -/
def badRound (m : BitVec 3) : Bool := m == 5 || m == 6

/-- A scope code 6 or 7 (item 9, R27). -/
def badScope (s : BitVec 3) : Bool := 6 ≤ s.toNat

/-- The scopes sg, di, dv and sy, the only ones the synchronising engine instructions take (R177, R180 to R182). -/
def wideScope (s : BitVec 3) : Bool := 2 ≤ s.toNat && s.toNat ≤ 5

/-- Integer format codes 0xA to 0xF (R99). -/
def isIntFormat (f : BitVec 4) : Bool := 10 ≤ f.toNat

/-- Lane width of a format code (R99, R198). -/
def laneWidth (f : BitVec 4) : Nat :=
  match f.toNat with
  | 0 | 10 | 11 => 4
  | 1 | 2 | 3 | 4 | 5 | 12 | 13 => 8
  | 6 | 7 | 14 | 15 => 16
  | _ => 32

/-- Number of lanes of a vector in a format (R198). -/
def laneCount (f : BitVec 4) : Nat := 512 / laneWidth f

/-- The element formats of MX storage: 0x0 to 0x5 and 0xC (R76, R114). -/
def isMxFormat (f : BitVec 4) : Bool := f.toNat ≤ 5 || f == 12

/-- The use an A-V instruction makes of md (R202). -/
inductive MdUse where
  | rounding | overflow | shiftRounding | comparison (codes : Nat) | unused
  deriving DecidableEq, Repr

/-- md bits that must be zero (item 5). -/
def MdUse.zeroBroken (u : MdUse) (md : BitVec 3) : Bool :=
  match u with
  | .overflow | .shiftRounding => 2 ≤ md.toNat
  | .unused => md != 0
  | .rounding | .comparison _ => false

/-- Item 8 for md. -/
def MdUse.roundBroken (u : MdUse) (md : BitVec 3) : Bool :=
  match u with
  | .rounding => badRound md
  | _ => false

/-- A comparison code that the instruction does not have (item 13, R207, R213). -/
def MdUse.codeBroken (u : MdUse) (md : BitVec 3) : Bool :=
  match u with
  | .comparison codes => codes ≤ md.toNat
  | _ => false

/-- A vector instruction with a vector destination: which sources it uses, how it uses md, and its own item 13. -/
def AV.item (f : AV) (u : MdUse) (usesVb usesVc : Bool) (tyOk : Bool) : Option Nat :=
  firstBroken [
    (5, (!usesVb && f.vb != 0) || (!usesVc && f.vc != 0) || f.sub != 0 || u.zeroBroken f.md),
    (6, badDest f.vd), (7, badRx f.rx), (8, u.roundBroken f.md), (13, u.codeBroken f.md || !tyOk)]

/-- Integer ty (R198). -/
def AV.int (f : AV) (u : MdUse) (usesVb usesVc : Bool) : Option Nat := f.item u usesVb usesVc (isIntFormat f.ty)

/-- Float ty (R198). -/
def AV.float (f : AV) (u : MdUse) (usesVb usesVc : Bool) : Option Nat := f.item u usesVb usesVc (!isIntFormat f.ty)

/-- VCMP and FCMP: the destination is the predicate vd[2:0], and vd[4:3] must be zero (R207, R213). -/
def AV.compare (f : AV) (codes : Nat) (tyOk : Bool) : Option Nat :=
  firstBroken [
    (5, 8 ≤ f.vd.toNat || f.vc != 0 || f.sub != 0), (7, badRx f.rx),
    (13, codes ≤ f.md.toNat || !tyOk)]

/-- VROT, VBCST, VINS and VEXT: index j = sub[12:6] below N, sub[5:0] zero (R215). -/
def AV.permute (f : AV) (usesVb : Bool) : Option Nat :=
  firstBroken [
    (5, (!usesVb && f.vb != 0) || f.vc != 0 || f.sub.extractLsb' 0 6 != 0 || f.md != 0),
    (6, badDest f.vd), (7, badRx f.rx), (13, laneCount f.ty ≤ (f.sub.extractLsb' 6 7).toNat)]

/-- How VRED and VSCAN use md, by op = sub[12:10] and ty (R216). -/
def AV.reduceMd (f : AV) : MdUse :=
  if f.sub.extractLsb' 10 3 == 0 then (if isIntFormat f.ty then .overflow else .rounding) else .unused

/-- VRED and VSCAN (R215, R216). -/
def AV.reduce (f : AV) : Option Nat :=
  let op := (f.sub.extractLsb' 10 3).toNat
  firstBroken [
    (5, f.vb != 0 || f.vc != 0 || f.sub.extractLsb' 0 10 != 0 || f.kz != 0 || f.reduceMd.zeroBroken f.md),
    (6, badDest f.vd), (7, badRx f.rx), (8, f.reduceMd.roundBroken f.md),
    (13, 6 ≤ op || (3 ≤ op && !isIntFormat f.ty))]

/-- VSHUF: a lane width of 8, 16 or 32, and sub zero (R215). -/
def AV.shuffle (f : AV) : Option Nat := f.item .unused true true (laneWidth f.ty != 4)

/-- VSEL: kz must be zero (R208). -/
def AV.select (f : AV) : Option Nat :=
  firstBroken [
    (5, f.vc != 0 || f.sub != 0 || f.md != 0 || f.kz != 0),
    (6, badDest f.vd), (7, badRx f.rx), (13, !isIntFormat f.ty)]

/-- FCVT: sf = sub[12:9], pt = sub[8:6] below the ratio of the two widths (R212). -/
def AV.convert (f : AV) : Option Nat :=
  let ws := laneWidth (f.sub.extractLsb' 9 4)
  let wd := laneWidth f.ty
  firstBroken [
    (5, f.vb != 0 || f.vc != 0 || f.sub.extractLsb' 0 6 != 0),
    (6, badDest f.vd), (7, badRx f.rx), (8, badRound f.md),
    (13, Nat.max ws wd / Nat.min ws wd ≤ (f.sub.extractLsb' 6 3).toNat)]

/-- The special functions: ty FP32 (R211). -/
def AV.special (f : AV) : Option Nat := f.item .rounding false false (f.ty == 9)

/-- A vector immediate instruction (R206, R209). -/
def AI.item (f : AI) (shift : Bool) (usesVa : Bool) (tyOk : Bool) : Option Nat :=
  firstBroken [
    (5, (shift && 64 ≤ f.imm.toNat) || (!usesVa && f.va != 0)), (6, badDest f.vd), (13, !tyOk)]

/-- The pairing rule of R227 for MMA: one width class, both float or both integer. -/
def mmaPair (fa fb : BitVec 4) : Bool :=
  laneWidth fa == laneWidth fb && isIntFormat fa == isIntFormat fb

/-- The pairing rule of R227 for MMAS. -/
def mmasPair (fa fb : BitVec 4) : Bool :=
  laneWidth fa == laneWidth fb && isMxFormat fa && isMxFormat fb

/-- MMA (R228): sm and vc zero, sub zero; rm a rounding code, or 0 and 1 for an integer fa (R115). -/
def AM.mma (f : AM) : Option Nat :=
  firstBroken [
    (5, f.vc != 0 || f.sm != 0 || f.sub != 0), (7, badRx f.rx),
    (8, if isIntFormat f.fa then 2 ≤ f.rm.toNat else badRound f.rm),
    (13, !mmaPair f.fa f.fb)]

/-- MMAS (R228): sm 01, qa and qb in sub[5:0]. -/
def AM.mmas (f : AM) : Option Nat :=
  firstBroken [
    (5, f.sub.extractLsb' 6 6 != 0), (7, badRx f.rx), (8, badRound f.rm),
    (9, 2 ≤ f.sm.toNat), (13, f.sm == 0 || !mmasPair f.fa f.fb)]

/-- MZERO (R229): only ad, fa and fb = fa. -/
def AM.mzero (f : AM) : Option Nat :=
  firstBroken [
    (5, f.va != 0 || f.vb != 0 || f.vc != 0 || f.sm != 0 || f.ov != 0 || f.rm != 0 || f.rx != 0 || f.sub != 0),
    (13, f.fb != f.fa)]

/-- MLDR (R229): ad, va, rx, q = sub[1:0], K = sub[2]. -/
def AM.mldr (f : AM) : Option Nat :=
  firstBroken [
    (5, f.vb != 0 || f.vc != 0 || f.fa != 0 || f.fb != 0 || f.sm != 0 || f.ov != 0 || f.rm != 0
      || f.sub.extractLsb' 3 9 != 0),
    (7, badRx f.rx)]

/-- MTRN (R229): ad and the source tile in va[2:0]. -/
def AM.mtrn (f : AM) : Option Nat :=
  firstBroken [
    (5, 8 ≤ f.va.toNat || f.vb != 0 || f.vc != 0 || f.fa != 0 || f.fb != 0 || f.sm != 0 || f.ov != 0 || f.rm != 0
      || f.rx != 0 || f.sub != 0)]

/-- The largest part number of MDRN for a width (R230). -/
def drainParts (w : Nat) : Nat := if w == 32 then 4 else if w == 8 then 1 else 2

/-- MDRN (R230): va is a destination; j = sub[3:0], ts = sub[4], p = sub[6:5]. -/
def AM.mdrn (f : AM) : Option Nat :=
  firstBroken [
    (5, f.vc != 0 || f.sm != 0 || f.ov != 0 || f.sub.extractLsb' 7 5 != 0),
    (6, badDest f.va), (7, badRx f.rx), (8, badRound f.rm),
    (13, f.fb != f.fa || drainParts (laneWidth f.fa) ≤ (f.sub.extractLsb' 5 2).toNat)]

/-- MDRQ (R231): ad 0 or 4, va even and at most 26, vc apart from va and va + 1, p = sub[5], g = sub[8:6]. -/
def AM.mdrq (f : AM) : Option Nat :=
  firstBroken [
    (5, f.sm != 0 || f.ov != 0 || f.sub.extractLsb' 9 3 != 0),
    (6, badDest f.va || badDest f.vc), (7, badRx f.rx), (8, badRound f.rm),
    (13, f.fb != f.fa || !isMxFormat f.fa || (f.ad != 0 && f.ad != 4) || f.va.getLsbD 0 || 26 < f.va.toNat
      || f.vc == f.va || f.vc == f.va + 1 || (laneWidth f.fa == 4 && f.sub.getLsbD 5))]

/-- An element scalar instruction (R220): which of sa, sb and imm it uses, and how many low sub bits. -/
def AS.item (f : AS) (usesSa usesSb usesImm : Bool) (subBits : Nat) : Option Nat :=
  firstBroken [
    (5, (!usesSa && f.sa != 0) || (!usesSb && f.sb != 0) || (!usesImm && f.imm != 0) || 2 ^ subBits ≤ f.sub.toNat)]

/-- ELID (R221): sel 0 to 5. -/
def AS.elid (f : AS) : Option Nat :=
  firstBroken [(5, f.sa != 0 || f.sb != 0 || f.imm != 0), (13, 6 ≤ f.sub.toNat)]

/-- KAND, KOR, KXOR and KNOT (R222). -/
def AK.logic (f : AK) (usesKb : Bool) : Option Nat :=
  firstBroken [(5, (!usesKb && f.kb != 0) || f.va != 0 || f.sa != 0 || f.sub != 0)]

/-- KMOV by SRC = sub[1:0] (R222). -/
def AK.kmov (f : AK) : Option Nat :=
  let src := (f.sub.extractLsb' 0 2).toNat
  firstBroken [
    (5, f.kb != 0 || f.sub.extractLsb' 2 28 != 0 || (src != 0 && f.ka != 0) || (src != 1 && f.va != 0)
      || (src < 2 && f.sa != 0))]

/-- KPOPC: ka and the destination in sa (R222). -/
def AK.kpopc (f : AK) : Option Nat :=
  firstBroken [(5, f.kd != 0 || f.kb != 0 || f.va != 0 || f.sub != 0)]

/-- VOTE: ka and mode = sub[1:0] (R223). -/
def AK.vote (f : AK) : Option Nat :=
  firstBroken [(5, f.kd != 0 || f.kb != 0 || f.va != 0 || f.sa != 0 || f.sub.extractLsb' 2 28 != 0)]

/-- NB = sub[0]: base 0, and sb must then be zero (R234). -/
def BL.nbBroken (f : BL) : Bool := f.sub.getLsbD 0 && f.sb != 0

/-- A vector scratchpad access (R234): a load has KZ in mode[0]; a buffer access names bf. -/
def BL.vector (f : BL) (load buffer : Bool) : Option Nat :=
  firstBroken [
    (5, (!buffer && f.bf != 0) || (if load then 2 ≤ f.mode.toNat else f.mode != 0) || 2 ≤ f.sub.toNat || f.nbBroken),
    (6, load && badDest f.vr), (7, badRx f.rx), (13, 3 ≤ f.sz.toNat)]

/-- LDS and STS (R234). -/
def BL.scalar (f : BL) (load : Bool) : Option Nat :=
  firstBroken [
    (5, 16 ≤ f.vr.toNat || f.bf != 0 || f.kp != 0 || (if load then 2 ≤ f.mode.toNat else f.mode != 0) || f.rx != 0
      || 2 ≤ f.sub.toNat || f.nbBroken),
    (13, 3 ≤ f.sz.toNat)]

/-- SATOM's limit on v (R238): aop 9 is CAS; sz 2 is 32-bit, 3 is 64-bit. -/
def satomLimit (v aop : Nat) (wide : Bool) : Bool :=
  if wide then (if aop == 9 then v % 4 == 0 else v % 2 == 0) else (if aop == 9 then v ≤ 14 else true)

/-- SATOM (R234, R238): aop = sub[5:2], NB = sub[0]. -/
def BL.satom (f : BL) : Option Nat :=
  let aop := (f.sub.extractLsb' 2 4).toNat
  firstBroken [
    (5, 16 ≤ f.vr.toNat || f.bf != 0 || f.kp != 0 || f.mode != 0 || f.rx != 0 || f.sub.getLsbD 1 || f.nbBroken),
    (13, (f.sz != 2 && f.sz != 3) || 12 ≤ aop || (f.sz == 3 && 10 ≤ aop)
      || !satomLimit f.vr.toNat aop (f.sz == 3))]

/-- BDECL (R239). -/
def BD.bdecl (f : BD) : Option Nat :=
  let base := (f.n.extractLsb' 0 11).toNat
  let cnt := (f.sub.extractLsb' 0 11).toNat
  firstBroken [
    (5, f.sb != 0 || f.st != 0 || f.vr != 0 || f.n.extractLsb' 11 6 != 0 || f.sub.extractLsb' 11 6 != 0),
    (13, 1536 < base + cnt || cnt == 0)]

/-- BSTATE to a given state (R239). -/
def BD.bstate (f : BD) (st : BitVec 2) : Option Nat :=
  firstBroken [(5, f.sb != 0 || f.n != 0 || f.vr != 0 || f.sub != 0), (13, f.st != st)]

/-- BQRY: an even destination pair (R239). -/
def BD.bqry (f : BD) : Option Nat :=
  firstBroken [(5, f.n != 0 || f.st != 0 || f.vr != 0 || f.sub != 0), (13, f.sb.getLsbD 0)]

/-- VMOV (R240). -/
def BD.vmov (f : BD) : Option Nat :=
  firstBroken [
    (5, f.b != 0 || f.sb != 0 || f.st != 0 || f.sub != 0 || f.n.extractLsb' 5 12 != 0), (6, badDest f.vr)]

/-- SMOV by SRC = sub[1:0] (R240). -/
def BD.smov (f : BD) : Option Nat :=
  let src := (f.sub.extractLsb' 0 2).toNat
  firstBroken [
    (5, f.b != 0 || f.st != 0 || f.sub.extractLsb' 2 15 != 0 || (src != 0 && f.vr != 0)
      || f.n.extractLsb' 4 13 != 0 || ((src == 1 || src == 2) && f.n != 0))]

/-- VFROMS: ty = sub[3:0], INS = sub[4], j in n[6:0] (R240). -/
def BD.vfroms (f : BD) : Option Nat :=
  let ins := f.sub.getLsbD 4
  firstBroken [
    (5, f.b != 0 || f.st != 0 || f.sub.extractLsb' 5 12 != 0 || (if ins then f.n.extractLsb' 7 10 != 0 else f.n != 0)),
    (6, badDest f.vr), (13, ins && laneCount (f.sub.extractLsb' 0 4) ≤ (f.n.extractLsb' 0 7).toNat)]

/-- RINGSET: B = n[4:0], N = n[9:5] (R54, R241). -/
def BD.ringset (f : BD) : Option Nat :=
  let base := (f.n.extractLsb' 0 5).toNat
  let size := (f.n.extractLsb' 5 5).toNat
  firstBroken [
    (5, f.b != 0 || f.sb != 0 || f.vr != 0 || f.sub != 0 || f.n.extractLsb' 10 7 != 0),
    (13, 26 < base || size < 2 || 28 < size || 28 < base + size)]

/-- EGR, vector form (FROM = 0) or buffer form (R242). -/
def BD.egr (f : BD) (from_ : BitVec 17) : Option Nat :=
  firstBroken [
    (5, f.n.extractLsb' 4 13 != 0 || f.sb != 0 || f.st != 0 || f.sub.extractLsb' 1 16 != 0
      || (if from_ == 0 then f.b != 0 else f.vr != 0)),
    (13, f.sub.extractLsb' 0 1 != from_.extractLsb' 0 1)]

/-- CNT with a given op in sub[2:0] (R243). -/
def BD.cnt (f : BD) (op : BitVec 3) (usesC usesN usesSb : Bool) : Option Nat :=
  firstBroken [
    (5, f.b.getLsbD 2 || f.st != 0 || f.vr != 0 || f.sub.extractLsb' 3 14 != 0 || (!usesC && f.b != 0)
      || (if usesN then f.n.extractLsb' 4 13 != 0 else f.n != 0) || (!usesSb && f.sb != 0)),
    (13, f.sub.extractLsb' 0 3 != op || (usesN && 10 ≤ (f.n.extractLsb' 0 4).toNat))]

/-- One output of RT: delay 0 with no source (R232). -/
def routeZeroBroken (o : BitVec 8) : Bool := o.extractLsb' 4 4 == 0 && o.extractLsb' 0 4 != 0

/-- The outputs of RT in the order E, S, W, N. -/
def BT.outs (f : BT) : List (BitVec 8) := [f.e, f.s, f.w, f.n]

/-- RT (R232). -/
def BT.item (f : BT) : Option Nat :=
  let uses (code : BitVec 4) := f.outs.any fun o => o.extractLsb' 4 4 == code
  firstBroken [
    (5, f.outs.any routeZeroBroken || (!uses 5 && f.lv != 0) || (!uses 6 && f.lw != 0) || f.sub != 0),
    (10, f.outs.any fun o => 8 ≤ (o.extractLsb' 4 4).toNat)]

/-- A spine register instruction: which of gd, ga and gb it uses, and how many low sub bits. -/
def SG.item (f : SG) (usesGd usesGa usesGb : Bool) (subBits : Nat) : Option Nat :=
  firstBroken [
    (5, (!usesGd && f.gd != 0) || (!usesGa && f.ga != 0) || (!usesGb && f.gb != 0) || 2 ^ subBits ≤ f.sub.toNat)]

/-- SEL: gs in sub[32:28] (R169). -/
def SG.sel (f : SG) : Option Nat := firstBroken [(5, f.sub.extractLsb' 0 28 != 0)]

/-- EXT and INS: pos = sub[32:27], lm = sub[26:21], sx = sub[20] (R169). -/
def SG.field (f : SG) (usesSx : Bool) : Option Nat :=
  firstBroken [
    (5, f.gb != 0 || f.sub.extractLsb' 0 20 != 0 || (!usesSx && f.sub.getLsbD 20)),
    (13, 64 < (f.sub.extractLsb' 27 6).toNat + (f.sub.extractLsb' 21 6).toNat + 1)]

/-- TRACE: code in sub[15:0] at least 0x8000, class in sub[17:16] (R190). -/
def SG.trace (f : SG) : Option Nat :=
  firstBroken [(5, f.gd != 0 || f.gb != 0 || f.sub.extractLsb' 18 15 != 0), (13, !f.sub.getLsbD 15)]

/-- CNTR with a given op in sub[2:0]; idx in sub[5:3] (R191). -/
def SG.cntr (f : SG) (op : BitVec 3) (usesGd usesGa usesIdx : Bool) : Option Nat :=
  firstBroken [
    (5, f.gb != 0 || f.sub.extractLsb' 6 27 != 0 || (!usesGd && f.gd != 0) || (!usesGa && f.ga != 0)
      || (!usesIdx && f.sub.extractLsb' 3 3 != 0)),
    (13, f.sub.extractLsb' 0 3 != op)]

/-- A spine immediate instruction (R170): which registers it uses, and whether imm has `bits` bits. -/
def SI.item (f : SI) (usesGd usesGa : Bool) (bits : Nat) : Option Nat :=
  firstBroken [(5, (!usesGd && f.gd != 0) || (!usesGa && f.ga != 0) || f.sub != 0 || 2 ^ bits ≤ f.imm.toNat)]

/-- SETM: imm[7:0] with ga = 0, or ga with imm = 0 (R186). -/
def SI.setm (f : SI) : Option Nat :=
  firstBroken [(5, f.gd != 0 || f.sub != 0 || 256 ≤ f.imm.toNat || (f.ga != 0 && f.imm != 0))]

/-- ENTER: a region identifier from 1 (R189). -/
def SI.enter (f : SI) : Option Nat :=
  firstBroken [(5, f.gd != 0 || f.ga != 0 || f.sub != 0 || 2 ^ 16 ≤ f.imm.toNat), (13, f.imm == 0)]

/-- The assigned spine control registers (R196). -/
def csrAssigned (n : Nat) : Bool :=
  n ≤ 5 || n == 0x10 || n == 0x20 || n == 0x30 || n == 0x40 || n == 0x41 || (0x50 ≤ n && n ≤ 0x53) || n == 0x58
    || (0x60 ≤ n && n ≤ 0x62) || n == 0x70 || n == 0x71 || n == 0x80

/-- The control registers that CSRW may write: fab.MODE and bar.PH (R196). -/
def csrWritable (n : Nat) : Bool := n == 0x10 || n == 0x30

/-- CSRR and CSRW (R195). -/
def SI.csr (f : SI) (write : Bool) : Option Nat :=
  firstBroken [
    (5, (if write then f.gd != 0 else f.ga != 0) || f.sub != 0 || 2 ^ 12 ≤ f.imm.toNat),
    (13, if write then !csrWritable f.imm.toNat else !csrAssigned f.imm.toNat)]

/-- BR and CALL (R159). -/
def SB.plain (f : SB) : Option Nat := firstBroken [(5, f.ga != 0 || f.gb != 0 || f.cond != 0)]

/-- LOOP: the cimm and end rules of R132 (item 11). -/
def SO.loop (f : SO) : Option Nat :=
  firstBroken [(11, f.last == 0 || (if f.cg == 0 then f.cimm == 0 else f.cimm != 0))]

/-- LOOPX: cg, cimm and end zero (R164). -/
def SO.loopx (f : SO) : Option Nat := firstBroken [(5, f.cg != 0 || f.cimm != 0 || f.last != 0)]

/-- A spine load or store (R171): the orders it permits. -/
def SM.access (f : SM) (sx : Bool) (ordOk : Bool) : Option Nat :=
  firstBroken [
    (5, (if sx then 2 ≤ f.sub.toNat else f.sub != 0)), (9, badScope f.scope),
    (13, 4 ≤ f.sz.toNat || !ordOk || (f.ord == 0 && f.scope != 0))]

/-- ATOM: AOP in sub[5:2]; the CAS pair; FADD and BADD at width 32 only (R172). -/
def SM.atom (f : SM) : Option Nat :=
  let aop := (f.sub.extractLsb' 2 4).toNat
  firstBroken [
    (5, f.sub.extractLsb' 0 2 != 0), (9, badScope f.scope),
    (13, (f.sz != 2 && f.sz != 3) || 12 ≤ aop || (f.sz == 3 && 10 ≤ aop)
      || (aop == 9 && (f.gv.getLsbD 0 || f.gv == 0)) || (f.ord == 0 && f.scope != 0))]

/-- LDLIT (R173). -/
def SM.ldlit (f : SM) : Option Nat :=
  firstBroken [(5, f.ord != 0 || f.scope != 0 || 2 ≤ f.sub.toNat), (13, 4 ≤ f.sz.toNat)]

/-- FENCE (R174). -/
def SM.fence (f : SM) : Option Nat :=
  firstBroken [
    (5, f.gv != 0 || f.gb != 0 || f.off != 0 || f.sz != 0 || f.sub != 0), (9, badScope f.scope), (13, f.ord == 0)]

/-- An engine instruction with a block address: P = sub[0], and gp must be zero with P = 1 (R175). -/
def SE.block (f : SE) (usesH usesGc : Bool) : Option Nat :=
  firstBroken [
    (5, (!usesH && f.h != 0) || (!usesGc && f.gc != 0) || f.scope != 0 || 2 ≤ f.sub.toNat
      || (f.sub.getLsbD 0 && f.gp != 0)),
    (9, badScope f.scope)]

/-- SWAIT: ALL = sub[1] (R177). -/
def SE.swait (f : SE) : Option Nat :=
  firstBroken [
    (5, f.gp != 0 || f.disp != 0 || f.sub.getLsbD 0 || 4 ≤ f.sub.toNat || (f.sub.getLsbD 1 && f.gc != 0)),
    (9, badScope f.scope), (13, !wideScope f.scope)]

/-- WAITC, ARRV, BWAIT and BAR (R180, R182). -/
def SE.sync (f : SE) (usesGc : Bool) : Option Nat :=
  firstBroken [
    (5, f.h != 0 || f.sub != 0 || (!usesGc && f.gc != 0)), (9, badScope f.scope), (13, !wideScope f.scope)]

/-- SIGNAL: OPS = sub[2:1] is 0 or 1 (R181). -/
def SE.signal (f : SE) : Option Nat :=
  firstBroken [
    (5, f.h != 0 || f.sub.getLsbD 0 || 8 ≤ f.sub.toNat), (9, badScope f.scope),
    (13, 2 ≤ (f.sub.extractLsb' 1 2).toNat || !wideScope f.scope)]

/-- CFGLD: cfg in disp (R187). -/
def SE.cfgld (f : SE) : Option Nat :=
  firstBroken [(5, f.gp != 0 || f.gc != 0 || f.scope != 0 || f.sub != 0), (9, badScope f.scope)]

/-- The lowest item of R137 among 5 to 11 and 13 that the slot breaks; none for an operation of the device, which is no slot. -/
def Instr.slotItem : Instr → Option Nat
  | .nop => none
  | .br f => f.plain
  | .brc _ => none
  | .call f => f.plain
  | .ret f => f.item false false false 0
  | .loop f => f.loop
  | .loopx f => f.loopx
  | .endLaunch f => f.item false false false 0
  | .waitv f => f.item true false false 0
  | .bri f => f.item false true false 0
  | .add f => f.item true true true 0
  | .sub f => f.item true true true 0
  | .mul f => f.item true true true 0
  | .mulh f => f.item true true true 0
  | .mulhu f => f.item true true true 0
  | .div f => f.item true true true 0
  | .divu f => f.item true true true 0
  | .rem f => f.item true true true 0
  | .remu f => f.item true true true 0
  | .and f => f.item true true true 0
  | .or f => f.item true true true 0
  | .xor f => f.item true true true 0
  | .shl f => f.item true true true 0
  | .shr f => f.item true true true 0
  | .sra f => f.item true true true 0
  | .min f => f.item true true true 0
  | .max f => f.item true true true 0
  | .minu f => f.item true true true 0
  | .maxu f => f.item true true true 0
  | .slt f => f.item true true true 0
  | .sltu f => f.item true true true 0
  | .sel f => f.sel
  | .clz f => f.item true true false 0
  | .popc f => f.item true true false 0
  | .ext f => f.field true
  | .ins f => f.field false
  | .addi f => f.item true true 32
  | .andi f => f.item true true 32
  | .ori f => f.item true true 32
  | .xori f => f.item true true 32
  | .shli f => f.item true true 6
  | .shri f => f.item true true 6
  | .srai f => f.item true true 6
  | .movi f => f.item true false 32
  | .movhi f => f.item true true 32
  | .slti f => f.item true true 32
  | .ldg f => f.access true (f.ord == 0 || f.ord == 1)
  | .stg f => f.access false (f.ord == 0 || f.ord == 2)
  | .atom f => f.atom
  | .ldlit f => f.ldlit
  | .fence f => f.fence
  | .strm f => f.block true true
  | .swait f => f.swait
  | .cpy f => f.block true false
  | .coll f => f.block true false
  | .waitc f => f.sync true
  | .signal f => f.signal
  | .bar f => f.sync true
  | .arrv f => f.sync true
  | .bwait f => f.sync false
  | .launch f => f.block false false
  | .fbc f => f.item false true false 0
  | .setm f => f.setm
  | .cfgld f => f.cfgld
  | .plsw f => f.item false false false 16
  | .enter f => f.enter
  | .leave f => f.item false false false 0
  | .trace f => f.trace
  | .prog f => f.item false true 32
  | .rdcyc f => f.item true false false 1
  | .rdtime f => f.item true false true 0
  | .cntrCfg f => f.cntr 0 false true true
  | .cntrStart f => f.cntr 1 false false false
  | .cntrStop f => f.cntr 2 false true false
  | .cntrRead f => f.cntr 3 true false true
  | .bkpt f => f.item false false 16
  | .jsub f => f.item true true true 0
  | .junsub f => f.item false true false 0
  | .jpin f => f.item false true true 0
  | .junpin f => f.item false false true 0
  | .jprop f => f.item true true false 0
  | .jload f => f.item true true true 0
  | .jread f => f.item true true false 0
  | .jwait f => f.item true true true 0
  | .seqnew f => f.item true true false 0
  | .seqrot f => f.item true true false 0
  | .seqend f => f.item true true false 0
  | .trap f => f.item false true 16
  | .csrr f => f.csr false
  | .csrw f => f.csr true
  | .genadv f => f.item false false false 0
  | .yield f => f.item false false false 0
  | .vadd f => f.int .overflow true false
  | .vsub f => f.int .overflow true false
  | .vmul f => f.int .overflow true false
  | .vmulh f => f.int .shiftRounding true false
  | .vmad f => f.int .overflow true true
  | .vand f => f.int .unused true false
  | .vor f => f.int .unused true false
  | .vxor f => f.int .unused true false
  | .vshl f => f.int .overflow true false
  | .vshr f => f.int .shiftRounding true false
  | .vsra f => f.int .shiftRounding true false
  | .vmin f => f.int .unused true false
  | .vmax f => f.int .unused true false
  | .vabs f => f.int .overflow false false
  | .vcmp f => f.compare 6 (isIntFormat f.ty)
  | .vsel f => f.select
  | .vclz f => f.int .unused false false
  | .vpopc f => f.int .unused false false
  | .vaddi f => f.item false true (isIntFormat f.ty)
  | .vmuli f => f.item false true (isIntFormat f.ty)
  | .vandi f => f.item false true (isIntFormat f.ty)
  | .vshli f => f.item true true (isIntFormat f.ty)
  | .vshri f => f.item true true (isIntFormat f.ty)
  | .vmovi f => f.item false false true
  | .fadd f => f.float .rounding true false
  | .fsub f => f.float .rounding true false
  | .fmul f => f.float .rounding true false
  | .ffma f => f.float .rounding true true
  | .fmin f => f.float .unused true false
  | .fmax f => f.float .unused true false
  | .fabs f => f.float .unused false false
  | .fneg f => f.float .unused false false
  | .fcmp f => f.compare 8 (!isIntFormat f.ty)
  | .frcp f => f.special
  | .frsq f => f.special
  | .fexp2 f => f.special
  | .flog2 f => f.special
  | .ftanh f => f.special
  | .fcvt f => f.convert
  | .frndi f => f.float .rounding false false
  | .fscl f => f.float .rounding true false
  | .fmuli f => f.item false true (!isIntFormat f.ty)
  | .vred f => f.reduce
  | .vshuf f => f.shuffle
  | .vrot f => f.permute false
  | .vbcst f => f.permute false
  | .vins f => f.permute true
  | .vext f => f.permute true
  | .vscan f => f.reduce
  | .mma f => f.mma
  | .mmas f => f.mmas
  | .mzero f => f.mzero
  | .mdrn f => f.mdrn
  | .mdrq f => f.mdrq
  | .mldr f => f.mldr
  | .mtrn f => f.mtrn
  | .sadd f => f.item true true false 0
  | .ssub f => f.item true true false 0
  | .smul f => f.item true true false 0
  | .sand f => f.item true true false 0
  | .sor f => f.item true true false 0
  | .sxor f => f.item true true false 0
  | .sshl f => f.item true true false 0
  | .sshr f => f.item true true false 1
  | .smovi f => f.item false false true 0
  | .sslt f => f.item true true false 1
  | .saddi f => f.item true false true 0
  | .kand f => f.logic true
  | .kor f => f.logic true
  | .kxor f => f.logic true
  | .knot f => f.logic false
  | .kmov f => f.kmov
  | .kpopc f => f.kpopc
  | .vote f => f.vote
  | .elid f => f.elid
  | .ld f => f.vector true false
  | .st f => f.vector false false
  | .lds f => f.scalar true
  | .sts f => f.scalar false
  | .ldx f => f.vector true false
  | .stx f => f.vector false false
  | .ldb f => f.vector true true
  | .stb f => f.vector false true
  | .satom f => f.satom
  | .bdecl f => f.bdecl
  | .bstateFull f => f.bstate 2
  | .bstateEmpty f => f.bstate 0
  | .bqry f => f.bqry
  | .rt f => f.item
  | .vmov f => f.vmov
  | .smov f => f.smov
  | .ringset f => f.ringset
  | .vfroms f => f.vfroms
  | .egrVector f => f.egr 0
  | .egrBuffer f => f.egr 1
  | .cntSel f => f.cnt 0 true true false
  | .cntRdlo f => f.cnt 1 true false true
  | .cntRdhi f => f.cnt 2 true false true
  | .cntClr f => f.cnt 3 true false false
  | .cntHlo f => f.cnt 4 false false true
  | .cntHhi f => f.cnt 5 false false true
  | .spineEmitWord _ => none
  | .fetchBlockArrives _ _ => none
  | .resultLands _ _ _ => none
  | .voteResultDelivered _ => none
  | .routeValueLands _ _ _ => none
  | .waitConditionCheck _ => none
  | .holdFreeze _ => none
  | .holdRelease _ => none
  | .spineWaitSatisfied _ => none
  | .waitcPoll _ => none
  | .launchWindowWrite _ _ _ _ => none
  | .cwaitPoll _ => none
  | .priorityAging _ => none
  | .candidateBecomesBlocking _ => none
  | .binderyStep => none
  | .freezeWaveEffect _ => none
  | .imageSave _ => none
  | .imageRestore _ _ _ => none
  | .wrapSweep _ => none
  | .seamPlaneSwitch _ => none
  | .seamGenerationAdvance _ => none
  | .launchComplete _ => none
  | .interruptWindowExpiry _ => none
  | .planeLoadComplete _ _ => none
  | .planeLoadError _ _ => none
  | .streamRequestIssue _ _ => none
  | .tlbWalkComplete _ => none
  | .keyCacheUnwrap _ => none
  | .homeApplyRequest _ => none
  | .requestReply _ => none
  | .fillHalfLands _ _ => none
  | .deferredVoid _ _ => none
  | .egressGranuleTaken _ _ _ => none
  | .streamComplete _ _ => none
  | .readAheadExpiry _ => none
  | .tlbinvAll => none
  | .tlbinvInterface _ => none
  | .tlbinvPage _ _ => none
  | .tlbinvPageAll _ => none
  | .tlbinvComplete => none
  | .cpyUnitTransfer _ => none
  | .dmaWindowWrite _ _ _ _ _ => none
  | .dataImageCopy _ _ => none
  | .dmaCopyStart => none
  | .collStepStart _ => none
  | .collGrantReceive _ => none
  | .collDataFrameReceive _ => none
  | .collAckReceive _ => none
  | .collRetransmit _ => none
  | .collStepTimeout _ => none
  | .ethernetPortDown _ => none
  | .ptpMessageReceive _ _ => none
  | .servoCorrection _ _ => none
  | .syncLoss => none
  | .gform _ _ => none
  | .imgreg _ _ => none
  | .imgdel _ _ => none
  | .jexp _ _ => none
  | .jrev _ _ => none
  | .jprv _ _ => none
  | .frespAbort _ _ => none
  | .frespResume _ _ => none
  | .frespRetry _ _ => none
  | .dbgResume _ => none
  | .dselRead _ _ => none
  | .dselWrite _ _ => none
  | .tringWrite _ => none
  | .mcapWrite _ => none
  | .carveWrite _ => none
  | .ecarveWrite _ => none
  | .registerWrite _ _ _ => none
  | .debugStop _ _ _ => none
  | .faultStopFreeze _ => none
  | .faultStopResume _ => none
  | .launchEndByFault _ => none
  | .uncorrectableError _ => none
  | .engineProposal _ _ _ => none
  | .transactionApply _ => none
  | .fmtApply _ => none
  | .trialStart _ => none
  | .trialWindowEnd _ => none
  | .trialTimeout _ => none
  | .proposalValidityExpiry _ => none
  | .compoundRevertUndo _ => none
  | .causalTrial _ _ _ _ => none
  | .causalDelay _ => none
  | .rstNDeassert => none
  | .rstNAssert => none
  | .verifyComponent _ _ _ _ _ _ => none
  | .earlyTrainingComplete => none
  | .fullServiceTransition => none
  | .trainingFailure _ _ => none
  | .ethernetTrainingFailure _ => none
  | .getVersion _ => none
  | .getCapabilities _ => none
  | .negotiateAlgorithms _ _ _ => none
  | .getDigests _ => none
  | .getCertificate _ _ => none
  | .challenge _ _ _ _ => none
  | .getMeasurements _ _ _ => none
  | .unsupportedRequest _ _ => none
  | .powerEnforcementWindow => none
  | .folioPowerGate _ => none
  | .folioUngateComplete _ => none
  | .thermalEmergencyCap _ _ => none
  | .thermalShareLimit _ _ => none
  | .thermalHalt _ _ => none
  | .thermalRelease _ _ => none
  | .traceStageDrain _ => none
  | .traceRingCopy _ => none
  | .registerRead _ _ => none
  | .worldKeyCreate _ => none
  | .worldKeyDestroy _ => none
  | .precisionTimeMessageSend _ => none

/-- A legal slot instruction, or an operation of the device. -/
def Instr.wellFormed (i : Instr) : Bool := i.slotItem == none

end Sys2Proof
end

