-- ==== Sys2Proof/Machine/Numbers.lean ====
section
/-!
DEFINITION. Numbers: the sixteen operand formats, exact values, rounding and conversion (R99 to R111), and the special functions (R119).
A value is exact, (−1)^neg · m · 2^e, until one rounding brings it into a format.
-/

namespace Sys2Proof.Machine

/-- The value of a floating or integer lane: exact, an infinity, or NaN. A zero keeps its sign. -/
inductive FVal where
  | nan
  | inf (neg : Bool)
  | num (neg : Bool) (m : Nat) (e : Int)
  deriving DecidableEq, Repr

/-- How a floating format ends its range (R99). -/
inductive RangeKind where
  /-- infinities and NaNs in the top exponent code -/
  | ieee
  /-- E4M3: one NaN, no infinity -/
  | e4m3
  /-- neither -/
  | finite
  deriving DecidableEq, Repr

/-- A floating format: exponent and mantissa bits, bias, range, and how many low bits of its lane are unused (E8M10). -/
structure FloatFormat where
  ebits : Nat
  mbits : Nat
  bias : Nat
  kind : RangeKind
  low : Nat
  deriving DecidableEq, Repr

/-- The floating format of a code 0x0 to 0x9 (R99); other codes act as FP32. -/
def floatFormat (f : BitVec 4) : FloatFormat :=
  match f.toNat with
  | 0 => ⟨2, 1, 1, .finite, 0⟩
  | 1 => ⟨2, 3, 1, .finite, 0⟩
  | 2 => ⟨3, 2, 3, .finite, 0⟩
  | 3 => ⟨4, 3, 7, .e4m3, 0⟩
  | 4 => ⟨5, 2, 15, .ieee, 0⟩
  | 5 => ⟨3, 4, 3, .finite, 0⟩
  | 6 => ⟨8, 7, 127, .ieee, 0⟩
  | 7 => ⟨5, 10, 15, .ieee, 0⟩
  | 8 => ⟨8, 10, 127, .ieee, 13⟩
  | _ => ⟨8, 23, 127, .ieee, 0⟩

def fp32 : BitVec 4 := 9
def bf16 : BitVec 4 := 6

/-- The largest finite encoding, sign and unused bits apart (R101). -/
def FloatFormat.largest (F : FloatFormat) : Nat :=
  match F.kind with
  | .ieee => (2 ^ F.ebits - 1) * 2 ^ F.mbits - 1
  | .e4m3 => 2 ^ (F.ebits + F.mbits) - 2
  | .finite => 2 ^ (F.ebits + F.mbits) - 1

/-- The canonical NaN, or +0 in a format that has none (R103, R109). -/
def FloatFormat.canonicalNan (F : FloatFormat) : Nat :=
  match F.kind with
  | .ieee => ((2 ^ F.ebits - 1) * 2 ^ F.mbits + 2 ^ (F.mbits - 1)) * 2 ^ F.low
  | .e4m3 => 2 ^ (F.ebits + F.mbits) - 1
  | .finite => 0

/-- A lane of a sign and a magnitude encoding. -/
def FloatFormat.pack (F : FloatFormat) (neg : Bool) (mag : Nat) : Nat :=
  ((if neg then 2 ^ (F.ebits + F.mbits) else 0) + mag) * 2 ^ F.low

/-- ±∞ as it stands in a format that has infinities. -/
def FloatFormat.infinity (F : FloatFormat) (neg : Bool) : Nat :=
  F.pack neg ((2 ^ F.ebits - 1) * 2 ^ F.mbits)

/-- The value of a lane read in a floating format (R99, R100). -/
def FloatFormat.read (F : FloatFormat) (lane : Nat) : FVal :=
  let x := lane / 2 ^ F.low % 2 ^ (F.ebits + F.mbits + 1)
  let neg := 2 ^ (F.ebits + F.mbits) ≤ x
  let mag := x % 2 ^ (F.ebits + F.mbits)
  let e := mag / 2 ^ F.mbits
  let m := mag % 2 ^ F.mbits
  if F.kind = .ieee ∧ e = 2 ^ F.ebits - 1 then (if m = 0 then .inf neg else .nan)
  else if F.kind = .e4m3 ∧ mag = 2 ^ (F.ebits + F.mbits) - 1 then .nan
  else if e = 0 then .num neg m (1 - (F.bias : Int) - F.mbits)
  else .num neg (2 ^ F.mbits + m) ((e : Int) - F.bias - F.mbits)

/-- The smallest value of an integer format (R101). -/
def intLo (f : BitVec 4) : Int := if f.getLsbD 0 then 0 else -(2 ^ (laneWidth f - 1) : Nat)

/-- The largest value of an integer format (R101). -/
def intHi (f : BitVec 4) : Int := if f.getLsbD 0 then 2 ^ laneWidth f - 1 else 2 ^ (laneWidth f - 1) - 1

/-- The two's complement value of the low w bits. -/
def sint (x w : Nat) : Int :=
  let y := x % 2 ^ w
  if 2 * y < 2 ^ w then y else (y : Int) - (2 ^ w : Nat)

/-- The w-bit pattern of an integer (wrap of R155). -/
def wrapInt (x : Int) (w : Nat) : Nat := (x % (2 ^ w : Nat)).toNat

/-- clamp of R155. -/
def clampInt (x lo hi : Int) : Int := if x < lo then lo else if hi < x then hi else x

/-- The value of an integer lane of a format (R198). -/
def intValue (f : BitVec 4) (lane : Nat) : Int :=
  if f.getLsbD 0 then ((lane % 2 ^ laneWidth f : Nat) : Int) else sint lane (laneWidth f)

/-- An exact integer as a value. -/
def FVal.ofInt (x : Int) : FVal := .num (x < 0) x.natAbs 0

/-- The value of a lane in any of the sixteen formats. -/
def readFormat (f : BitVec 4) (lane : Nat) : FVal :=
  if isIntFormat f then FVal.ofInt (intValue f lane) else (floatFormat f).read lane

/-- Rounding as it is in force: a mode code of R105 (0 to 4), the value of σ it uses under SR, and OVF. -/
structure Rounding where
  mode : Nat
  sigma : Nat
  ovf : Bool
  deriving DecidableEq, Repr

/-- Round to nearest even with the IEEE overflow rule. -/
def Rounding.rne : Rounding := ⟨0, 0, true⟩

/-- |x| / 2^q rounded to an integer by the mode, for |x| = m · 2^e (R106, R107). -/
def roundMagnitude (r : Rounding) (neg : Bool) (m : Nat) (e q : Int) : Nat :=
  let up := (e - q).toNat
  let s := (q - e).toNat
  let a := m * 2 ^ up
  let n := a / 2 ^ s
  let rest := a % 2 ^ s
  let twice := 2 * rest
  match r.mode with
  | 1 => n
  | 2 => if neg ∨ rest = 0 then n else n + 1
  | 3 => if neg ∧ rest ≠ 0 then n + 1 else n
  | 4 => (a * 2 ^ 32 + r.sigma * 2 ^ s) / 2 ^ (s + 32)
  | _ => if 2 ^ s < twice ∨ (twice = 2 ^ s ∧ n % 2 = 1) then n + 1 else n

/-- The overflow result of R108. -/
def FloatFormat.overflow (F : FloatFormat) (r : Rounding) (neg : Bool) : Nat :=
  match F.kind with
  | .finite => F.pack neg F.largest
  | .e4m3 => if r.ovf then F.canonicalNan else F.pack neg F.largest
  | .ieee =>
    if r.ovf && (r.mode == 0 || 4 ≤ r.mode || (r.mode == 2 && !neg) || (r.mode == 3 && neg)) then F.infinity neg
    else F.pack neg F.largest

/-- The exponent of the rounding step at |x| = m · 2^e: the ulp, or the subnormal step (R106). -/
def FloatFormat.step (F : FloatFormat) (m : Nat) (e : Int) : Int :=
  max (e + Nat.log2 m - F.mbits) (1 - (F.bias : Int) - F.mbits)

/-- A finite exact value rounded into a floating format (R106 to R108). -/
def FloatFormat.round (F : FloatFormat) (r : Rounding) (neg : Bool) (m : Nat) (e : Int) : Nat :=
  if m = 0 then F.pack neg 0
  else
    let q := F.step m e
    let n := roundMagnitude r neg m e q
    -- n may have reached 2^(mbits+1): one more exponent step, with the same encoding sum
    let mag := n + (q - (1 - (F.bias : Int) - F.mbits)).toNat * 2 ^ F.mbits
    if F.largest < mag then F.overflow r neg else F.pack neg mag

/-- An infinity brought into a floating format (R109). -/
def FloatFormat.ofInf (F : FloatFormat) (r : Rounding) (neg : Bool) : Nat :=
  match F.kind with
  | .ieee => F.infinity neg
  | .e4m3 => if r.ovf then F.canonicalNan else F.pack neg F.largest
  | .finite => F.pack neg F.largest

/-- Conversion of a value to a floating format (R108, R109). -/
def FloatFormat.convert (F : FloatFormat) (r : Rounding) : FVal → Nat
  | .nan => F.canonicalNan
  | .inf neg => F.ofInf r neg
  | .num neg m e => F.round r neg m e

/-- A finite exact value rounded to an integer (R110). -/
def roundToInt (r : Rounding) (neg : Bool) (m : Nat) (e : Int) : Int :=
  let n : Int := roundMagnitude r neg m e 0
  if neg then -n else n

/-- Conversion of a value to an integer range: NaN to 0, infinities to the ends, saturating (R110). -/
def convertToInt (r : Rounding) (lo hi : Int) : FVal → Int
  | .nan => 0
  | .inf neg => if neg then lo else hi
  | .num neg m e => clampInt (roundToInt r neg m e) lo hi

/-- convert of R155: a value to any of the sixteen formats, as a lane (R108 to R110). -/
def convertTo (f : BitVec 4) (r : Rounding) (x : FVal) : Nat :=
  if isIntFormat f then wrapInt (convertToInt r (intLo f) (intHi f) x) (laneWidth f) else (floatFormat f).convert r x

/-- The negated value. -/
def FVal.neg : FVal → FVal
  | .nan => .nan
  | .inf n => .inf (!n)
  | .num n m e => .num (!n) m e

/-- The exact product, with the zero and NaN rules of R106 and R111. -/
def FVal.mul : FVal → FVal → FVal
  | .nan, _ => .nan
  | _, .nan => .nan
  | .inf n, .inf k => .inf (n ^^ k)
  | .inf n, .num k m _ => if m = 0 then .nan else .inf (n ^^ k)
  | .num n m _, .inf k => if m = 0 then .nan else .inf (n ^^ k)
  | .num n m e, .num k m' e' => .num (n ^^ k) (m * m') (e + e')

/-- The value times a power of two. A power beyond ±1024 acts as ±1024, which already overflows or vanishes in every format. -/
def FVal.scale (x : FVal) (p : Int) : FVal :=
  match x with
  | .num n m e => .num n m (e + clampInt p (-1024) 1024)
  | y => y

def FVal.isNan : FVal → Bool
  | .nan => true
  | _ => false

def FVal.isZeroSign (neg : Bool) : FVal → Bool
  | .num n m _ => n == neg && m == 0
  | _ => false

def FVal.isInf (neg : Bool) : FVal → Bool
  | .inf n => n == neg
  | _ => false

/-- The signed integer m · 2^(e − base), for base at most e. -/
def FVal.aligned (base : Int) : FVal → Int
  | .num n m e => (if n then -1 else 1) * (m * 2 ^ (e - base).toNat : Nat)
  | _ => 0

/-- The least exponent among the finite terms. -/
def leastExponent : List FVal → Int
  | [] => 0
  | [.num _ _ e] => e
  | .num _ _ e :: rest => min e (leastExponent rest)
  | _ :: rest => leastExponent rest

/-- The exact sum of terms, with the NaN rules of R111 and R113 and the zero-sign rule of R106 under a mode code. (log 68, DEDUCED) -/
def FVal.sum (mode : Nat) (xs : List FVal) : FVal :=
  if xs.any FVal.isNan || (xs.any (FVal.isInf true) && xs.any (FVal.isInf false)) then .nan
  else if xs.any (FVal.isInf true) then .inf true
  else if xs.any (FVal.isInf false) then .inf false
  else
    let base := leastExponent xs
    let total := (xs.map (FVal.aligned base)).foldl (· + ·) 0
    if total = 0 then
      .num (if xs.all (FVal.isZeroSign true) then !xs.isEmpty
            else if xs.all (FVal.isZeroSign false) then false else mode == 3) 0 0
    else .num (total < 0) total.natAbs base

/-- Exact comparison of two values that are not NaN: −1, 0 or 1; the zeros are equal. -/
def FVal.compare (x y : FVal) : Int :=
  match x, y with
  | .inf n, .inf k => if n == k then 0 else if n then -1 else 1
  | .inf n, _ => if n then -1 else 1
  | _, .inf n => if n then 1 else -1
  | _, _ =>
    let base := leastExponent [x, y]
    let d := x.aligned base - y.aligned base
    if d < 0 then -1 else if d = 0 then 0 else 1

def FVal.signBit : FVal → Bool
  | .num n _ _ => n
  | .inf n => n
  | .nan => false

/-- Whether x is the smaller for FMIN: by value, and −0 below +0 (R210). -/
def FVal.below (x y : FVal) : Bool :=
  let c := x.compare y
  c < 0 || (c == 0 && x.signBit && !y.signBit)

/-- FMIN and FMAX on lanes of a format (R210): the canonical NaN, or the lane chosen, read and written under R100. -/
def floatMinMax (F : FloatFormat) (isMax : Bool) (a b : Nat) : Nat :=
  let x := F.read a
  let y := F.read b
  if x.isNan || y.isNan then F.canonicalNan
  else
    let least := x.below y
    F.convert Rounding.rne (if least != isMax then x else y)

/-- Whether an integer magnitude is a finite value of the format. -/
def holdsInteger (F : FloatFormat) (n : Nat) : Bool :=
  (F.read (F.round ⟨1, 0, false⟩ false n 0)).compare (.num false n 0) == 0

/-- FRNDI on a lane (R214): an integral value in the lane's own format. Where the integer above the value is beyond the format, the one below
it is the result. (log 9, DEDUCED) -/
def roundIntegral (f : BitVec 4) (r : Rounding) (lane : Nat) : Nat :=
  let F := floatFormat f
  match F.read lane with
  | .nan => F.canonicalNan
  | .inf neg => F.infinity neg
  | .num neg m e =>
    let n := roundMagnitude r neg m e 0
    if m = 0 then F.pack neg 0
    else if holdsInteger F n then F.round ⟨1, 0, false⟩ neg n 0
    else F.round ⟨1, 0, false⟩ neg (n - 1) 0

/-! ### Integer roots and interval arithmetic for the special functions -/

/-- The integer square root, bit by bit from 2^(k−1) down. -/
def sqrtBits : Nat → Nat → Nat → Nat
  | 0, _, y => y
  | k + 1, n, y => let z := y + 2 ^ k; if z * z ≤ n then sqrtBits k n z else sqrtBits k n y

def natSqrt (n : Nat) : Nat := sqrtBits (Nat.log2 n / 2 + 1) n 0

/-- An exact real given by its floor at 2^e and whether something nonzero lies below, as a value that rounds the same. -/
def stickyValue (neg : Bool) (n : Nat) (inexact : Bool) (e : Int) : FVal :=
  .num neg (2 * n + (if inexact then 1 else 0)) (e - 1)

/-- Lower and upper bounds of a nonnegative real in units of 2^−p. -/
structure Bounds where
  lo : Nat
  hi : Nat
  deriving DecidableEq, Repr

/-- The sum 1 + t + t²/2! + … of lower and upper bounds, from term k on, for `fuel` further terms and a tail of at most twice the
last term (t at most 20, 400 terms). -/
def expTerms (p : Nat) (t : Bounds) : Nat → Nat → Bounds → Bounds → Bounds
  | 0, _, term, acc => ⟨acc.lo, acc.hi + 2 * term.hi + 2⟩
  | fuel + 1, k, term, acc =>
    let next : Bounds := ⟨term.lo * t.lo / 2 ^ p / k, term.hi * t.hi / 2 ^ p / k + 1⟩
    if next.hi ≤ 1 && 64 ≤ k then ⟨acc.lo, acc.hi + 2⟩
    else expTerms p t fuel (k + 1) next ⟨acc.lo + next.lo, acc.hi + next.hi⟩

/-- e^t. -/
def expBounds (p : Nat) (t : Bounds) : Bounds := expTerms p t 400 1 ⟨2 ^ p, 2 ^ p⟩ ⟨2 ^ p, 2 ^ p⟩

/-- 2·atanh z = 2·(z + z³/3 + z⁵/5 + …) for z at most 1/3. -/
def atanhTerms (p : Nat) (zz : Bounds) : Nat → Nat → Bounds → Bounds → Bounds
  | 0, _, pw, acc => ⟨2 * acc.lo, 2 * (acc.hi + 2 * pw.hi + 2)⟩
  | fuel + 1, k, pw, acc =>
    let next : Bounds := ⟨pw.lo * zz.lo / 2 ^ p, pw.hi * zz.hi / 2 ^ p + 1⟩
    if next.hi ≤ 1 then ⟨2 * acc.lo, 2 * (acc.hi + 2)⟩
    else atanhTerms p zz fuel (k + 2) next ⟨acc.lo + next.lo / k, acc.hi + next.hi / k + 1⟩

/-- The natural logarithm of num / den, for 1 ≤ num / den ≤ 2. -/
def lnBounds (p num den : Nat) : Bounds :=
  let z : Bounds := ⟨(num - den) * 2 ^ p / (num + den), (num - den) * 2 ^ p / (num + den) + 1⟩
  let zz : Bounds := ⟨z.lo * z.lo / 2 ^ p, z.hi * z.hi / 2 ^ p + 1⟩
  atanhTerms p zz 400 3 z z

def ln2Bounds (p : Nat) : Bounds := lnBounds p 2 1

/-- FP32 of a nonnegative bound in units of 2^−p, with a sign. -/
def fp32OfUnits (neg : Bool) (n p : Nat) : Nat := (floatFormat fp32).round Rounding.rne neg n (-(p : Int))

/-- The nearest FP32 once both bounds round alike, trying greater precision until then; the lower bound stands when the fuel ends. -/
def refine (f : Nat → Bounds) (neg : Bool) : Nat → Nat → Nat
  | 0, p => fp32OfUnits neg (f p).lo p
  | fuel + 1, p =>
    let b := f p
    let x := fp32OfUnits neg b.lo p
    if x = fp32OfUnits neg b.hi p then x else refine f neg fuel (2 * p)

/-- FRCP of a finite nonzero value m · 2^e (R119). -/
def recipValue (neg : Bool) (m : Nat) (e : Int) : FVal :=
  let k := Nat.log2 m + 40
  stickyValue neg (2 ^ k / m) (2 ^ k % m != 0) (-e - k)

/-- FRSQ of a positive finite value m · 2^e (R119). -/
def rsqrtValue (m : Nat) (e : Int) : FVal :=
  let (m, e) := if e % 2 = 0 then (m, e) else (2 * m, e - 1)
  let k := Nat.log2 m + 40
  let y := natSqrt (2 ^ (2 * k) / m)
  stickyValue false y (y * y * m != 2 ^ (2 * k)) (-(e / 2) - k)

/-- 2^f for 0 ≤ f < 1 with f = num · 2^−s, in units of 2^−p. -/
def exp2Fraction (num s p : Nat) : Bounds :=
  let l := ln2Bounds p
  expBounds p ⟨num * l.lo / 2 ^ s, num * l.hi / 2 ^ s + 1⟩

/-- FEXP2 of a finite nonzero value (R119). -/
def exp2Lane (neg : Bool) (m : Nat) (e : Int) : Nat :=
  let F := floatFormat fp32
  let big := FVal.compare (.num neg m e) (.num false 128 0) ≥ 0
  let small := FVal.compare (.num neg m e) (.num true 152 0) ≤ 0
  if big then F.infinity false
  else if small then F.pack false 0
  else
    let s := (-e).toNat
    let x : Int := (if neg then -1 else 1) * (m * 2 ^ e.toNat : Nat)
    let n := x / (2 ^ s : Nat)
    let frac := (x % (2 ^ s : Nat)).toNat
    if frac = 0 then F.round Rounding.rne false 1 n
    else
      let go (p : Nat) : Nat × Nat :=
        let b := exp2Fraction frac s p
        (F.round Rounding.rne false b.lo (n - p), F.round Rounding.rne false b.hi (n - p))
      let a := go 96
      if a.1 = a.2 then a.1 else let b := go 256; if b.1 = b.2 then b.1 else (go 640).1

/-- FLOG2 of a positive finite value m · 2^e (R119). -/
def log2Lane (m : Nat) (e : Int) : Nat :=
  let F := floatFormat fp32
  let k : Int := e + Nat.log2 m
  let one := 2 ^ Nat.log2 m
  if m = one then (if k = 0 then F.pack false 0 else F.round Rounding.rne (k < 0) k.natAbs 0)
  else
    let y (p : Nat) : Bounds :=
      let a := lnBounds p m one
      let b := ln2Bounds p
      ⟨a.lo * 2 ^ p / b.hi, a.hi * 2 ^ p / b.lo + 1⟩
    if 0 ≤ k then refine (fun p => ⟨k.toNat * 2 ^ p + (y p).lo, k.toNat * 2 ^ p + (y p).hi⟩) false 4 128
    else refine (fun p => ⟨k.natAbs * 2 ^ p - (y p).hi, k.natAbs * 2 ^ p - (y p).lo⟩) true 4 128

/-- FTANH of a finite nonzero value (R119): (e^2x − 1) / (e^2x + 1). -/
def tanhLane (neg : Bool) (m : Nat) (e : Int) : Nat :=
  let F := floatFormat fp32
  if FVal.compare (.num false m e) (.num false 10 0) ≥ 0 then F.round Rounding.rne neg 1 0
  else
    let f (p : Nat) : Bounds :=
      -- 2x in units of 2^−p
      let a := m * 2 ^ (e + 1 + p).toNat
      let s := (-(e + 1 + p)).toNat
      let t := a / 2 ^ s
      let exact := a % 2 ^ s = 0
      let b := expBounds p ⟨t, if exact then t else t + 1⟩
      ⟨(b.lo - 2 ^ p) * 2 ^ p / (b.hi + 2 ^ p), (b.hi - 2 ^ p) * 2 ^ p / (b.lo + 2 ^ p) + 1⟩
    refine f neg 4 512

/-- Which special function (R119). -/
inductive Special where
  | rcp | rsq | exp2 | log2 | tanh
  deriving DecidableEq, Repr

/-- A special function on an FP32 lane (R119). -/
def specialLane (k : Special) (lane : Nat) : Nat :=
  let F := floatFormat fp32
  match k, F.read lane with
  | _, .nan => F.canonicalNan
  | .rcp, .inf neg => F.pack neg 0
  | .rcp, .num neg m e => if m = 0 then F.infinity neg else F.convert Rounding.rne (recipValue neg m e)
  | .rsq, .inf neg => if neg then F.canonicalNan else F.pack false 0
  | .rsq, .num neg m e =>
    if m = 0 then F.infinity neg else if neg then F.canonicalNan else F.convert Rounding.rne (rsqrtValue m e)
  | .exp2, .inf neg => if neg then F.pack false 0 else F.infinity false
  | .exp2, .num neg m e => if m = 0 then F.round Rounding.rne false 1 0 else exp2Lane neg m e
  | .log2, .inf neg => if neg then F.canonicalNan else F.infinity false
  | .log2, .num neg m e => if m = 0 then F.infinity true else if neg then F.canonicalNan else log2Lane m e
  | .tanh, .inf neg => F.round Rounding.rne neg 1 0
  | .tanh, .num neg m e => if m = 0 then F.pack neg 0 else tanhLane neg m e

end Sys2Proof.Machine
end

