-- ==== Sys2Proof/Decode.lean ====
section
/-!
DEFINITION. The encodings of schedule words: the word and its header (R123, R124), the fourteen slot formats (R130),
the three opcode maps (R134 to R136), illegal words (R137) and marker words (R139). After the decoder, the encoder
written from the same layouts.
-/

namespace Sys2Proof

/-- The three opcode maps (R125). -/
inductive SlotMap where
  | spine | fabricA | fabricB
  deriving DecidableEq, Repr

/-- The header fields of a schedule word (R124). -/
structure Header where
  spine : Bool
  role : BitVec 4
  h : Bool
  le : BitVec 3
  gs : Bool
  gk : BitVec 3
  seam : Bool
  zero : BitVec 2
  deriving DecidableEq, Repr

def SchedWord.header (w : SchedWord) : Header :=
  { spine := w.getLsbD 127, role := w.extractLsb' 123 4, h := w.getLsbD 122, le := w.extractLsb' 119 3
    gs := w.getLsbD 118, gk := w.extractLsb' 115 3, seam := w.getLsbD 114, zero := w.extractLsb' 112 2 }

def SchedWord.slotA (w : SchedWord) : SlotBits := w.extractLsb' 56 56

def SchedWord.slotB (w : SchedWord) : SlotBits := w.extractLsb' 0 56

/-- The idle word, with the LE value it carries (R129). -/
def SchedWord.idle (le : BitVec 3) : SchedWord := BitVec.ofNat 128 (le.toNat * 2 ^ 119)

/-- The marker word of a pool block: header 0xFFFF and both slots zero (R139). -/
def SchedWord.marker : SchedWord := BitVec.ofNat 128 (0xFFFF * 2 ^ 112)

/-- The major opcode, bits 55:48 of a slot (R130). -/
def slotOp (b : SlotBits) : BitVec 8 := b.extractLsb' 48 8

/-- Format AV (R130). -/
def AV.ofSlot (b : SlotBits) : AV :=
  { vd := b.extractLsb' 43 5
    va := b.extractLsb' 38 5
    vb := b.extractLsb' 33 5
    vc := b.extractLsb' 28 5
    ty := b.extractLsb' 24 4
    md := b.extractLsb' 21 3
    kp := b.extractLsb' 18 3
    kz := b.extractLsb' 17 1
    rx := b.extractLsb' 13 4
    sub := b.extractLsb' 0 13 }

/-- Format AI (R130). -/
def AI.ofSlot (b : SlotBits) : AI :=
  { vd := b.extractLsb' 43 5
    va := b.extractLsb' 38 5
    ty := b.extractLsb' 34 4
    kp := b.extractLsb' 31 3
    kz := b.extractLsb' 30 1
    imm := b.extractLsb' 0 30 }

/-- Format AM (R130). -/
def AM.ofSlot (b : SlotBits) : AM :=
  { ad := b.extractLsb' 45 3
    va := b.extractLsb' 40 5
    vb := b.extractLsb' 35 5
    vc := b.extractLsb' 30 5
    fa := b.extractLsb' 26 4
    fb := b.extractLsb' 22 4
    sm := b.extractLsb' 20 2
    ov := b.extractLsb' 19 1
    rm := b.extractLsb' 16 3
    rx := b.extractLsb' 12 4
    sub := b.extractLsb' 0 12 }

/-- Format AS (R130). -/
def AS.ofSlot (b : SlotBits) : AS :=
  { sd := b.extractLsb' 44 4
    sa := b.extractLsb' 40 4
    sb := b.extractLsb' 36 4
    imm := b.extractLsb' 4 32
    sub := b.extractLsb' 0 4 }

/-- Format AK (R130). -/
def AK.ofSlot (b : SlotBits) : AK :=
  { kd := b.extractLsb' 45 3
    ka := b.extractLsb' 42 3
    kb := b.extractLsb' 39 3
    va := b.extractLsb' 34 5
    sa := b.extractLsb' 30 4
    sub := b.extractLsb' 0 30 }

/-- Format BL (R130). -/
def BL.ofSlot (b : SlotBits) : BL :=
  { vr := b.extractLsb' 43 5
    sb := b.extractLsb' 39 4
    off := b.extractLsb' 22 17
    bf := b.extractLsb' 19 3
    kp := b.extractLsb' 16 3
    mode := b.extractLsb' 13 3
    rx := b.extractLsb' 9 4
    sz := b.extractLsb' 6 3
    sub := b.extractLsb' 0 6 }

/-- Format BT (R130). -/
def BT.ofSlot (b : SlotBits) : BT :=
  { e := b.extractLsb' 40 8
    s := b.extractLsb' 32 8
    w := b.extractLsb' 24 8
    n := b.extractLsb' 16 8
    lv := b.extractLsb' 11 5
    lw := b.extractLsb' 6 5
    sub := b.extractLsb' 0 6 }

/-- Format BD (R130). -/
def BD.ofSlot (b : SlotBits) : BD :=
  { b := b.extractLsb' 45 3
    sb := b.extractLsb' 41 4
    n := b.extractLsb' 24 17
    st := b.extractLsb' 22 2
    vr := b.extractLsb' 17 5
    sub := b.extractLsb' 0 17 }

/-- Format SG (R130). -/
def SG.ofSlot (b : SlotBits) : SG :=
  { gd := b.extractLsb' 43 5
    ga := b.extractLsb' 38 5
    gb := b.extractLsb' 33 5
    sub := b.extractLsb' 0 33 }

/-- Format SI (R130). -/
def SI.ofSlot (b : SlotBits) : SI :=
  { gd := b.extractLsb' 43 5
    ga := b.extractLsb' 38 5
    imm := b.extractLsb' 6 32
    sub := b.extractLsb' 0 6 }

/-- Format SB (R130). -/
def SB.ofSlot (b : SlotBits) : SB :=
  { ga := b.extractLsb' 43 5
    gb := b.extractLsb' 38 5
    cond := b.extractLsb' 35 3
    disp := b.extractLsb' 0 35 }

/-- Format SO (R130). -/
def SO.ofSlot (b : SlotBits) : SO :=
  { lvl := b.extractLsb' 46 2
    cg := b.extractLsb' 41 5
    cimm := b.extractLsb' 21 20
    last := b.extractLsb' 0 21 }

/-- Format SM (R130). -/
def SM.ofSlot (b : SlotBits) : SM :=
  { gv := b.extractLsb' 43 5
    gb := b.extractLsb' 38 5
    off := b.extractLsb' 14 24
    sz := b.extractLsb' 11 3
    scope := b.extractLsb' 8 3
    ord := b.extractLsb' 6 2
    sub := b.extractLsb' 0 6 }

/-- Format SE (R130). -/
def SE.ofSlot (b : SlotBits) : SE :=
  { h := b.extractLsb' 44 4
    gp := b.extractLsb' 39 5
    gc := b.extractLsb' 34 5
    disp := b.extractLsb' 10 24
    scope := b.extractLsb' 7 3
    sub := b.extractLsb' 0 7 }

/-- CNTR by op = sub[2:0]; codes 4 to 7 are illegal and fall to a form whose check refuses them (R191). -/
def decodeCntr (b : SlotBits) : Instr :=
  let f := SG.ofSlot b
  match (f.sub.extractLsb' 0 3).toNat with
  | 0 => .cntrCfg f
  | 1 => .cntrStart f
  | 2 => .cntrStop f
  | _ => .cntrRead f

/-- BSTATE by st; st 1 and 3 are illegal and fall to a form whose check refuses them (R239). -/
def decodeBstate (b : SlotBits) : Instr :=
  let f := BD.ofSlot b
  if f.st == 0 then .bstateEmpty f else .bstateFull f

/-- EGR by FROM = sub[0] (R242). -/
def decodeEgr (b : SlotBits) : Instr :=
  let f := BD.ofSlot b
  if f.sub.getLsbD 0 then .egrBuffer f else .egrVector f

/-- CNT by op = sub[2:0]; codes 6 and 7 are illegal and fall to a form whose check refuses them (R243). -/
def decodeCnt (b : SlotBits) : Instr :=
  let f := BD.ofSlot b
  match (f.sub.extractLsb' 0 3).toNat with
  | 0 => .cntSel f
  | 1 => .cntRdlo f
  | 2 => .cntRdhi f
  | 3 => .cntClr f
  | 4 => .cntHlo f
  | _ => .cntHhi f

/-- The spine map, but for NOP (R134). -/
def decodeSpine (b : SlotBits) : Option Instr :=
  match (slotOp b).toNat with
  | 0x01 => some (.br (.ofSlot b))
  | 0x02 => some (.brc (.ofSlot b))
  | 0x03 => some (.call (.ofSlot b))
  | 0x04 => some (.ret (.ofSlot b))
  | 0x05 => some (.loop (.ofSlot b))
  | 0x06 => some (.loopx (.ofSlot b))
  | 0x07 => some (.endLaunch (.ofSlot b))
  | 0x08 => some (.waitv (.ofSlot b))
  | 0x09 => some (.bri (.ofSlot b))
  | 0x10 => some (.add (.ofSlot b))
  | 0x11 => some (.sub (.ofSlot b))
  | 0x12 => some (.mul (.ofSlot b))
  | 0x13 => some (.mulh (.ofSlot b))
  | 0x14 => some (.mulhu (.ofSlot b))
  | 0x15 => some (.div (.ofSlot b))
  | 0x16 => some (.divu (.ofSlot b))
  | 0x17 => some (.rem (.ofSlot b))
  | 0x18 => some (.remu (.ofSlot b))
  | 0x19 => some (.and (.ofSlot b))
  | 0x1a => some (.or (.ofSlot b))
  | 0x1b => some (.xor (.ofSlot b))
  | 0x1c => some (.shl (.ofSlot b))
  | 0x1d => some (.shr (.ofSlot b))
  | 0x1e => some (.sra (.ofSlot b))
  | 0x1f => some (.min (.ofSlot b))
  | 0x20 => some (.max (.ofSlot b))
  | 0x21 => some (.minu (.ofSlot b))
  | 0x22 => some (.maxu (.ofSlot b))
  | 0x23 => some (.slt (.ofSlot b))
  | 0x24 => some (.sltu (.ofSlot b))
  | 0x25 => some (.sel (.ofSlot b))
  | 0x26 => some (.clz (.ofSlot b))
  | 0x27 => some (.popc (.ofSlot b))
  | 0x28 => some (.ext (.ofSlot b))
  | 0x29 => some (.ins (.ofSlot b))
  | 0x30 => some (.addi (.ofSlot b))
  | 0x31 => some (.andi (.ofSlot b))
  | 0x32 => some (.ori (.ofSlot b))
  | 0x33 => some (.xori (.ofSlot b))
  | 0x34 => some (.shli (.ofSlot b))
  | 0x35 => some (.shri (.ofSlot b))
  | 0x36 => some (.srai (.ofSlot b))
  | 0x37 => some (.movi (.ofSlot b))
  | 0x38 => some (.movhi (.ofSlot b))
  | 0x39 => some (.slti (.ofSlot b))
  | 0x40 => some (.ldg (.ofSlot b))
  | 0x41 => some (.stg (.ofSlot b))
  | 0x42 => some (.atom (.ofSlot b))
  | 0x43 => some (.ldlit (.ofSlot b))
  | 0x44 => some (.fence (.ofSlot b))
  | 0x50 => some (.strm (.ofSlot b))
  | 0x51 => some (.swait (.ofSlot b))
  | 0x52 => some (.cpy (.ofSlot b))
  | 0x53 => some (.coll (.ofSlot b))
  | 0x54 => some (.waitc (.ofSlot b))
  | 0x55 => some (.signal (.ofSlot b))
  | 0x56 => some (.bar (.ofSlot b))
  | 0x57 => some (.arrv (.ofSlot b))
  | 0x58 => some (.bwait (.ofSlot b))
  | 0x59 => some (.launch (.ofSlot b))
  | 0x5a => some (.fbc (.ofSlot b))
  | 0x5b => some (.setm (.ofSlot b))
  | 0x5c => some (.cfgld (.ofSlot b))
  | 0x5d => some (.plsw (.ofSlot b))
  | 0x60 => some (.enter (.ofSlot b))
  | 0x61 => some (.leave (.ofSlot b))
  | 0x62 => some (.trace (.ofSlot b))
  | 0x63 => some (.prog (.ofSlot b))
  | 0x64 => some (.rdcyc (.ofSlot b))
  | 0x65 => some (.rdtime (.ofSlot b))
  | 0x66 => some (decodeCntr b)
  | 0x67 => some (.bkpt (.ofSlot b))
  | 0x70 => some (.jsub (.ofSlot b))
  | 0x71 => some (.junsub (.ofSlot b))
  | 0x72 => some (.jpin (.ofSlot b))
  | 0x73 => some (.junpin (.ofSlot b))
  | 0x74 => some (.jprop (.ofSlot b))
  | 0x75 => some (.jload (.ofSlot b))
  | 0x76 => some (.jread (.ofSlot b))
  | 0x77 => some (.jwait (.ofSlot b))
  | 0x78 => some (.seqnew (.ofSlot b))
  | 0x79 => some (.seqrot (.ofSlot b))
  | 0x7a => some (.seqend (.ofSlot b))
  | 0x80 => some (.trap (.ofSlot b))
  | 0x81 => some (.csrr (.ofSlot b))
  | 0x82 => some (.csrw (.ofSlot b))
  | 0x83 => some (.genadv (.ofSlot b))
  | 0x84 => some (.yield (.ofSlot b))
  | _ => none

/-- The fabric slot A map, but for NOP (R135). -/
def decodeFabricA (b : SlotBits) : Option Instr :=
  match (slotOp b).toNat with
  | 0x01 => some (.vadd (.ofSlot b))
  | 0x02 => some (.vsub (.ofSlot b))
  | 0x03 => some (.vmul (.ofSlot b))
  | 0x04 => some (.vmulh (.ofSlot b))
  | 0x05 => some (.vmad (.ofSlot b))
  | 0x06 => some (.vand (.ofSlot b))
  | 0x07 => some (.vor (.ofSlot b))
  | 0x08 => some (.vxor (.ofSlot b))
  | 0x09 => some (.vshl (.ofSlot b))
  | 0x0a => some (.vshr (.ofSlot b))
  | 0x0b => some (.vsra (.ofSlot b))
  | 0x0c => some (.vmin (.ofSlot b))
  | 0x0d => some (.vmax (.ofSlot b))
  | 0x0e => some (.vabs (.ofSlot b))
  | 0x0f => some (.vcmp (.ofSlot b))
  | 0x10 => some (.vsel (.ofSlot b))
  | 0x11 => some (.vclz (.ofSlot b))
  | 0x12 => some (.vpopc (.ofSlot b))
  | 0x13 => some (.vaddi (.ofSlot b))
  | 0x14 => some (.vmuli (.ofSlot b))
  | 0x15 => some (.vandi (.ofSlot b))
  | 0x16 => some (.vshli (.ofSlot b))
  | 0x17 => some (.vshri (.ofSlot b))
  | 0x18 => some (.vmovi (.ofSlot b))
  | 0x20 => some (.fadd (.ofSlot b))
  | 0x21 => some (.fsub (.ofSlot b))
  | 0x22 => some (.fmul (.ofSlot b))
  | 0x23 => some (.ffma (.ofSlot b))
  | 0x24 => some (.fmin (.ofSlot b))
  | 0x25 => some (.fmax (.ofSlot b))
  | 0x26 => some (.fabs (.ofSlot b))
  | 0x27 => some (.fneg (.ofSlot b))
  | 0x28 => some (.fcmp (.ofSlot b))
  | 0x29 => some (.frcp (.ofSlot b))
  | 0x2a => some (.frsq (.ofSlot b))
  | 0x2b => some (.fexp2 (.ofSlot b))
  | 0x2c => some (.flog2 (.ofSlot b))
  | 0x2d => some (.ftanh (.ofSlot b))
  | 0x2e => some (.fcvt (.ofSlot b))
  | 0x2f => some (.frndi (.ofSlot b))
  | 0x30 => some (.fscl (.ofSlot b))
  | 0x31 => some (.fmuli (.ofSlot b))
  | 0x40 => some (.vred (.ofSlot b))
  | 0x41 => some (.vshuf (.ofSlot b))
  | 0x42 => some (.vrot (.ofSlot b))
  | 0x43 => some (.vbcst (.ofSlot b))
  | 0x44 => some (.vins (.ofSlot b))
  | 0x45 => some (.vext (.ofSlot b))
  | 0x46 => some (.vscan (.ofSlot b))
  | 0x50 => some (.mma (.ofSlot b))
  | 0x51 => some (.mmas (.ofSlot b))
  | 0x52 => some (.mzero (.ofSlot b))
  | 0x53 => some (.mdrn (.ofSlot b))
  | 0x54 => some (.mdrq (.ofSlot b))
  | 0x55 => some (.mldr (.ofSlot b))
  | 0x56 => some (.mtrn (.ofSlot b))
  | 0x60 => some (.sadd (.ofSlot b))
  | 0x61 => some (.ssub (.ofSlot b))
  | 0x62 => some (.smul (.ofSlot b))
  | 0x63 => some (.sand (.ofSlot b))
  | 0x64 => some (.sor (.ofSlot b))
  | 0x65 => some (.sxor (.ofSlot b))
  | 0x66 => some (.sshl (.ofSlot b))
  | 0x67 => some (.sshr (.ofSlot b))
  | 0x68 => some (.smovi (.ofSlot b))
  | 0x69 => some (.sslt (.ofSlot b))
  | 0x6a => some (.saddi (.ofSlot b))
  | 0x70 => some (.kand (.ofSlot b))
  | 0x71 => some (.kor (.ofSlot b))
  | 0x72 => some (.kxor (.ofSlot b))
  | 0x73 => some (.knot (.ofSlot b))
  | 0x74 => some (.kmov (.ofSlot b))
  | 0x75 => some (.kpopc (.ofSlot b))
  | 0x78 => some (.vote (.ofSlot b))
  | 0x79 => some (.elid (.ofSlot b))
  | _ => none

/-- The fabric slot B map, but for NOP (R136). -/
def decodeFabricB (b : SlotBits) : Option Instr :=
  match (slotOp b).toNat with
  | 0x01 => some (.ld (.ofSlot b))
  | 0x02 => some (.st (.ofSlot b))
  | 0x03 => some (.lds (.ofSlot b))
  | 0x04 => some (.sts (.ofSlot b))
  | 0x05 => some (.ldx (.ofSlot b))
  | 0x06 => some (.stx (.ofSlot b))
  | 0x07 => some (.ldb (.ofSlot b))
  | 0x08 => some (.stb (.ofSlot b))
  | 0x09 => some (.satom (.ofSlot b))
  | 0x10 => some (.bdecl (.ofSlot b))
  | 0x11 => some (decodeBstate b)
  | 0x12 => some (.bqry (.ofSlot b))
  | 0x20 => some (.rt (.ofSlot b))
  | 0x30 => some (.vmov (.ofSlot b))
  | 0x31 => some (.smov (.ofSlot b))
  | 0x32 => some (.ringset (.ofSlot b))
  | 0x33 => some (.vfroms (.ofSlot b))
  | 0x40 => some (decodeEgr b)
  | 0x50 => some (decodeCnt b)
  | _ => none

/-- What a slot decodes to: an instruction, or the lowest item of R137 it breaks. -/
inductive SlotDecode where
  | instr (i : Instr)
  | illegal (item : Nat)
  deriving DecidableEq, Repr

/-- The instruction a slot's opcode and minor codes name, before its fields are checked; NOP is opcode 00 (R134 to R136). -/
def decodeMap (m : SlotMap) (b : SlotBits) : Option Instr :=
  if slotOp b == 0 then some .nop
  else match m with
    | .spine => decodeSpine b
    | .fabricA => decodeFabricA b
    | .fabricB => decodeFabricB b

/-- One slot: an unassigned opcode breaks item 1, a NOP with a nonzero bit item 5, any other field rule its own item. -/
def decodeSlot (m : SlotMap) (b : SlotBits) : SlotDecode :=
  match decodeMap m b with
  | none => .illegal 1
  | some i =>
    if slotOp b == 0 && b != 0 then .illegal 5
    else match i.slotItem with
      | some k => .illegal k
      | none => .instr i

/-- The item of R137 that a slot breaks, if any. -/
def SlotDecode.item : SlotDecode → Option Nat
  | .instr _ => none
  | .illegal k => some k

/-- Items 2 and 3, which concern the header alone. -/
def Header.item (h : Header) : Option Nat :=
  firstBroken [
    (2, h.zero != 0 || 5 ≤ h.le.toNat),
    (3, h.spine && (h.role != 0 || h.h || h.gs || h.gk != 0))]

/-- Item 4: a control-group opcode, 0x01 to 0x09, in slot A of a spine word. -/
def controlInSlotA (w : SchedWord) : Bool :=
  w.getLsbD 127 && (let op := (slotOp (SchedWord.slotA w)).toNat; 1 ≤ op && op ≤ 9)

/-- What a schedule word is to the lead spine (R137, R139). -/
inductive WordDecode where
  | marker
  /-- AUX and SLOT of the illegal-word record (R356) -/
  | illegal (item slot : Nat)
  | word (h : Header) (a b : Instr)
  deriving DecidableEq, Repr

/-- The lower of two optional item numbers. -/
def lowerItem : Option Nat → Option Nat → Option Nat
  | some x, some y => some (Nat.min x y)
  | some x, none => some x
  | none, y => y

/-- The maps of slots A and B of a word (R125). -/
def slotMaps (spine : Bool) : SlotMap × SlotMap := if spine then (.spine, .spine) else (.fabricA, .fabricB)

/-- Decode a word completely (R137, R138). The lowest item that holds is reported; SLOT is 0 for a header item,
else 1 when slot A meets the item, else 2 (R356). -/
def decodeWord (w : SchedWord) : WordDecode :=
  if w == SchedWord.marker then .marker
  else
    let h := SchedWord.header w
    let (ma, mb) := slotMaps h.spine
    let da := decodeSlot ma (SchedWord.slotA w)
    let db := decodeSlot mb (SchedWord.slotB w)
    let itemA := lowerItem da.item (if controlInSlotA w then some 4 else none)
    let marker := if w.extractLsb' 112 16 == 0xFFFF then some 12 else none
    match lowerItem (lowerItem h.item marker) (lowerItem itemA db.item), da, db with
    | none, .instr a, .instr b => .word h a b
    | none, _, _ => .illegal 1 0
    | some k, _, _ => .illegal k (if k == 2 || k == 3 || k == 12 then 0 else if itemA == some k then 1 else 2)

/-- The instruction read from a schedule word given as a number, bit 0 the lowest bit of its first byte: the instruction of
its slot A, or of slot B where slot A is NOP. A word is 16 bytes, so bits from 128 on are not part of it. -/
def decodeTableWord (nbits w : Nat) : Option Instr :=
  match decodeWord (BitVec.ofNat 128 (w % 2 ^ nbits)) with
  | .word _ .nop b => some b
  | .word _ a _ => some a
  | _ => none

/-- The slot that carries the fields of format AV under a major opcode (R130). -/
def AV.toSlot (op : BitVec 8) (f : AV) : SlotBits :=
  (op ++ f.vd ++ f.va ++ f.vb ++ f.vc ++ f.ty ++ f.md ++ f.kp ++ f.kz ++ f.rx ++ f.sub : BitVec 56)

/-- The slot that carries the fields of format AI under a major opcode (R130). -/
def AI.toSlot (op : BitVec 8) (f : AI) : SlotBits :=
  (op ++ f.vd ++ f.va ++ f.ty ++ f.kp ++ f.kz ++ f.imm : BitVec 56)

/-- The slot that carries the fields of format AM under a major opcode (R130). -/
def AM.toSlot (op : BitVec 8) (f : AM) : SlotBits :=
  (op ++ f.ad ++ f.va ++ f.vb ++ f.vc ++ f.fa ++ f.fb ++ f.sm ++ f.ov ++ f.rm ++ f.rx ++ f.sub : BitVec 56)

/-- The slot that carries the fields of format AS under a major opcode (R130). -/
def AS.toSlot (op : BitVec 8) (f : AS) : SlotBits :=
  (op ++ f.sd ++ f.sa ++ f.sb ++ f.imm ++ f.sub : BitVec 56)

/-- The slot that carries the fields of format AK under a major opcode (R130). -/
def AK.toSlot (op : BitVec 8) (f : AK) : SlotBits :=
  (op ++ f.kd ++ f.ka ++ f.kb ++ f.va ++ f.sa ++ f.sub : BitVec 56)

/-- The slot that carries the fields of format BL under a major opcode (R130). -/
def BL.toSlot (op : BitVec 8) (f : BL) : SlotBits :=
  (op ++ f.vr ++ f.sb ++ f.off ++ f.bf ++ f.kp ++ f.mode ++ f.rx ++ f.sz ++ f.sub : BitVec 56)

/-- The slot that carries the fields of format BT under a major opcode (R130). -/
def BT.toSlot (op : BitVec 8) (f : BT) : SlotBits :=
  (op ++ f.e ++ f.s ++ f.w ++ f.n ++ f.lv ++ f.lw ++ f.sub : BitVec 56)

/-- The slot that carries the fields of format BD under a major opcode (R130). -/
def BD.toSlot (op : BitVec 8) (f : BD) : SlotBits :=
  (op ++ f.b ++ f.sb ++ f.n ++ f.st ++ f.vr ++ f.sub : BitVec 56)

/-- The slot that carries the fields of format SG under a major opcode (R130). -/
def SG.toSlot (op : BitVec 8) (f : SG) : SlotBits :=
  (op ++ f.gd ++ f.ga ++ f.gb ++ f.sub : BitVec 56)

/-- The slot that carries the fields of format SI under a major opcode (R130). -/
def SI.toSlot (op : BitVec 8) (f : SI) : SlotBits :=
  (op ++ f.gd ++ f.ga ++ f.imm ++ f.sub : BitVec 56)

/-- The slot that carries the fields of format SB under a major opcode (R130). -/
def SB.toSlot (op : BitVec 8) (f : SB) : SlotBits :=
  (op ++ f.ga ++ f.gb ++ f.cond ++ f.disp : BitVec 56)

/-- The slot that carries the fields of format SO under a major opcode (R130). -/
def SO.toSlot (op : BitVec 8) (f : SO) : SlotBits :=
  (op ++ f.lvl ++ f.cg ++ f.cimm ++ f.last : BitVec 56)

/-- The slot that carries the fields of format SM under a major opcode (R130). -/
def SM.toSlot (op : BitVec 8) (f : SM) : SlotBits :=
  (op ++ f.gv ++ f.gb ++ f.off ++ f.sz ++ f.scope ++ f.ord ++ f.sub : BitVec 56)

/-- The slot that carries the fields of format SE under a major opcode (R130). -/
def SE.toSlot (op : BitVec 8) (f : SE) : SlotBits :=
  (op ++ f.h ++ f.gp ++ f.gc ++ f.disp ++ f.scope ++ f.sub : BitVec 56)

/-- The map a slot instruction stands in and its 56 bits; none for an operation of the device, which has no encoding.
NOP is the zero slot of any map. -/
def encode : Instr → Option (SlotMap × SlotBits)
  | .nop => some (.spine, 0)
  | .br f => some (.spine, f.toSlot 0x01)
  | .brc f => some (.spine, f.toSlot 0x02)
  | .call f => some (.spine, f.toSlot 0x03)
  | .ret f => some (.spine, f.toSlot 0x04)
  | .loop f => some (.spine, f.toSlot 0x05)
  | .loopx f => some (.spine, f.toSlot 0x06)
  | .endLaunch f => some (.spine, f.toSlot 0x07)
  | .waitv f => some (.spine, f.toSlot 0x08)
  | .bri f => some (.spine, f.toSlot 0x09)
  | .add f => some (.spine, f.toSlot 0x10)
  | .sub f => some (.spine, f.toSlot 0x11)
  | .mul f => some (.spine, f.toSlot 0x12)
  | .mulh f => some (.spine, f.toSlot 0x13)
  | .mulhu f => some (.spine, f.toSlot 0x14)
  | .div f => some (.spine, f.toSlot 0x15)
  | .divu f => some (.spine, f.toSlot 0x16)
  | .rem f => some (.spine, f.toSlot 0x17)
  | .remu f => some (.spine, f.toSlot 0x18)
  | .and f => some (.spine, f.toSlot 0x19)
  | .or f => some (.spine, f.toSlot 0x1a)
  | .xor f => some (.spine, f.toSlot 0x1b)
  | .shl f => some (.spine, f.toSlot 0x1c)
  | .shr f => some (.spine, f.toSlot 0x1d)
  | .sra f => some (.spine, f.toSlot 0x1e)
  | .min f => some (.spine, f.toSlot 0x1f)
  | .max f => some (.spine, f.toSlot 0x20)
  | .minu f => some (.spine, f.toSlot 0x21)
  | .maxu f => some (.spine, f.toSlot 0x22)
  | .slt f => some (.spine, f.toSlot 0x23)
  | .sltu f => some (.spine, f.toSlot 0x24)
  | .sel f => some (.spine, f.toSlot 0x25)
  | .clz f => some (.spine, f.toSlot 0x26)
  | .popc f => some (.spine, f.toSlot 0x27)
  | .ext f => some (.spine, f.toSlot 0x28)
  | .ins f => some (.spine, f.toSlot 0x29)
  | .addi f => some (.spine, f.toSlot 0x30)
  | .andi f => some (.spine, f.toSlot 0x31)
  | .ori f => some (.spine, f.toSlot 0x32)
  | .xori f => some (.spine, f.toSlot 0x33)
  | .shli f => some (.spine, f.toSlot 0x34)
  | .shri f => some (.spine, f.toSlot 0x35)
  | .srai f => some (.spine, f.toSlot 0x36)
  | .movi f => some (.spine, f.toSlot 0x37)
  | .movhi f => some (.spine, f.toSlot 0x38)
  | .slti f => some (.spine, f.toSlot 0x39)
  | .ldg f => some (.spine, f.toSlot 0x40)
  | .stg f => some (.spine, f.toSlot 0x41)
  | .atom f => some (.spine, f.toSlot 0x42)
  | .ldlit f => some (.spine, f.toSlot 0x43)
  | .fence f => some (.spine, f.toSlot 0x44)
  | .strm f => some (.spine, f.toSlot 0x50)
  | .swait f => some (.spine, f.toSlot 0x51)
  | .cpy f => some (.spine, f.toSlot 0x52)
  | .coll f => some (.spine, f.toSlot 0x53)
  | .waitc f => some (.spine, f.toSlot 0x54)
  | .signal f => some (.spine, f.toSlot 0x55)
  | .bar f => some (.spine, f.toSlot 0x56)
  | .arrv f => some (.spine, f.toSlot 0x57)
  | .bwait f => some (.spine, f.toSlot 0x58)
  | .launch f => some (.spine, f.toSlot 0x59)
  | .fbc f => some (.spine, f.toSlot 0x5a)
  | .setm f => some (.spine, f.toSlot 0x5b)
  | .cfgld f => some (.spine, f.toSlot 0x5c)
  | .plsw f => some (.spine, f.toSlot 0x5d)
  | .enter f => some (.spine, f.toSlot 0x60)
  | .leave f => some (.spine, f.toSlot 0x61)
  | .trace f => some (.spine, f.toSlot 0x62)
  | .prog f => some (.spine, f.toSlot 0x63)
  | .rdcyc f => some (.spine, f.toSlot 0x64)
  | .rdtime f => some (.spine, f.toSlot 0x65)
  | .cntrCfg f => some (.spine, f.toSlot 0x66)
  | .cntrStart f => some (.spine, f.toSlot 0x66)
  | .cntrStop f => some (.spine, f.toSlot 0x66)
  | .cntrRead f => some (.spine, f.toSlot 0x66)
  | .bkpt f => some (.spine, f.toSlot 0x67)
  | .jsub f => some (.spine, f.toSlot 0x70)
  | .junsub f => some (.spine, f.toSlot 0x71)
  | .jpin f => some (.spine, f.toSlot 0x72)
  | .junpin f => some (.spine, f.toSlot 0x73)
  | .jprop f => some (.spine, f.toSlot 0x74)
  | .jload f => some (.spine, f.toSlot 0x75)
  | .jread f => some (.spine, f.toSlot 0x76)
  | .jwait f => some (.spine, f.toSlot 0x77)
  | .seqnew f => some (.spine, f.toSlot 0x78)
  | .seqrot f => some (.spine, f.toSlot 0x79)
  | .seqend f => some (.spine, f.toSlot 0x7a)
  | .trap f => some (.spine, f.toSlot 0x80)
  | .csrr f => some (.spine, f.toSlot 0x81)
  | .csrw f => some (.spine, f.toSlot 0x82)
  | .genadv f => some (.spine, f.toSlot 0x83)
  | .yield f => some (.spine, f.toSlot 0x84)
  | .vadd f => some (.fabricA, f.toSlot 0x01)
  | .vsub f => some (.fabricA, f.toSlot 0x02)
  | .vmul f => some (.fabricA, f.toSlot 0x03)
  | .vmulh f => some (.fabricA, f.toSlot 0x04)
  | .vmad f => some (.fabricA, f.toSlot 0x05)
  | .vand f => some (.fabricA, f.toSlot 0x06)
  | .vor f => some (.fabricA, f.toSlot 0x07)
  | .vxor f => some (.fabricA, f.toSlot 0x08)
  | .vshl f => some (.fabricA, f.toSlot 0x09)
  | .vshr f => some (.fabricA, f.toSlot 0x0a)
  | .vsra f => some (.fabricA, f.toSlot 0x0b)
  | .vmin f => some (.fabricA, f.toSlot 0x0c)
  | .vmax f => some (.fabricA, f.toSlot 0x0d)
  | .vabs f => some (.fabricA, f.toSlot 0x0e)
  | .vcmp f => some (.fabricA, f.toSlot 0x0f)
  | .vsel f => some (.fabricA, f.toSlot 0x10)
  | .vclz f => some (.fabricA, f.toSlot 0x11)
  | .vpopc f => some (.fabricA, f.toSlot 0x12)
  | .vaddi f => some (.fabricA, f.toSlot 0x13)
  | .vmuli f => some (.fabricA, f.toSlot 0x14)
  | .vandi f => some (.fabricA, f.toSlot 0x15)
  | .vshli f => some (.fabricA, f.toSlot 0x16)
  | .vshri f => some (.fabricA, f.toSlot 0x17)
  | .vmovi f => some (.fabricA, f.toSlot 0x18)
  | .fadd f => some (.fabricA, f.toSlot 0x20)
  | .fsub f => some (.fabricA, f.toSlot 0x21)
  | .fmul f => some (.fabricA, f.toSlot 0x22)
  | .ffma f => some (.fabricA, f.toSlot 0x23)
  | .fmin f => some (.fabricA, f.toSlot 0x24)
  | .fmax f => some (.fabricA, f.toSlot 0x25)
  | .fabs f => some (.fabricA, f.toSlot 0x26)
  | .fneg f => some (.fabricA, f.toSlot 0x27)
  | .fcmp f => some (.fabricA, f.toSlot 0x28)
  | .frcp f => some (.fabricA, f.toSlot 0x29)
  | .frsq f => some (.fabricA, f.toSlot 0x2a)
  | .fexp2 f => some (.fabricA, f.toSlot 0x2b)
  | .flog2 f => some (.fabricA, f.toSlot 0x2c)
  | .ftanh f => some (.fabricA, f.toSlot 0x2d)
  | .fcvt f => some (.fabricA, f.toSlot 0x2e)
  | .frndi f => some (.fabricA, f.toSlot 0x2f)
  | .fscl f => some (.fabricA, f.toSlot 0x30)
  | .fmuli f => some (.fabricA, f.toSlot 0x31)
  | .vred f => some (.fabricA, f.toSlot 0x40)
  | .vshuf f => some (.fabricA, f.toSlot 0x41)
  | .vrot f => some (.fabricA, f.toSlot 0x42)
  | .vbcst f => some (.fabricA, f.toSlot 0x43)
  | .vins f => some (.fabricA, f.toSlot 0x44)
  | .vext f => some (.fabricA, f.toSlot 0x45)
  | .vscan f => some (.fabricA, f.toSlot 0x46)
  | .mma f => some (.fabricA, f.toSlot 0x50)
  | .mmas f => some (.fabricA, f.toSlot 0x51)
  | .mzero f => some (.fabricA, f.toSlot 0x52)
  | .mdrn f => some (.fabricA, f.toSlot 0x53)
  | .mdrq f => some (.fabricA, f.toSlot 0x54)
  | .mldr f => some (.fabricA, f.toSlot 0x55)
  | .mtrn f => some (.fabricA, f.toSlot 0x56)
  | .sadd f => some (.fabricA, f.toSlot 0x60)
  | .ssub f => some (.fabricA, f.toSlot 0x61)
  | .smul f => some (.fabricA, f.toSlot 0x62)
  | .sand f => some (.fabricA, f.toSlot 0x63)
  | .sor f => some (.fabricA, f.toSlot 0x64)
  | .sxor f => some (.fabricA, f.toSlot 0x65)
  | .sshl f => some (.fabricA, f.toSlot 0x66)
  | .sshr f => some (.fabricA, f.toSlot 0x67)
  | .smovi f => some (.fabricA, f.toSlot 0x68)
  | .sslt f => some (.fabricA, f.toSlot 0x69)
  | .saddi f => some (.fabricA, f.toSlot 0x6a)
  | .kand f => some (.fabricA, f.toSlot 0x70)
  | .kor f => some (.fabricA, f.toSlot 0x71)
  | .kxor f => some (.fabricA, f.toSlot 0x72)
  | .knot f => some (.fabricA, f.toSlot 0x73)
  | .kmov f => some (.fabricA, f.toSlot 0x74)
  | .kpopc f => some (.fabricA, f.toSlot 0x75)
  | .vote f => some (.fabricA, f.toSlot 0x78)
  | .elid f => some (.fabricA, f.toSlot 0x79)
  | .ld f => some (.fabricB, f.toSlot 0x01)
  | .st f => some (.fabricB, f.toSlot 0x02)
  | .lds f => some (.fabricB, f.toSlot 0x03)
  | .sts f => some (.fabricB, f.toSlot 0x04)
  | .ldx f => some (.fabricB, f.toSlot 0x05)
  | .stx f => some (.fabricB, f.toSlot 0x06)
  | .ldb f => some (.fabricB, f.toSlot 0x07)
  | .stb f => some (.fabricB, f.toSlot 0x08)
  | .satom f => some (.fabricB, f.toSlot 0x09)
  | .bdecl f => some (.fabricB, f.toSlot 0x10)
  | .bstateFull f => some (.fabricB, f.toSlot 0x11)
  | .bstateEmpty f => some (.fabricB, f.toSlot 0x11)
  | .bqry f => some (.fabricB, f.toSlot 0x12)
  | .rt f => some (.fabricB, f.toSlot 0x20)
  | .vmov f => some (.fabricB, f.toSlot 0x30)
  | .smov f => some (.fabricB, f.toSlot 0x31)
  | .ringset f => some (.fabricB, f.toSlot 0x32)
  | .vfroms f => some (.fabricB, f.toSlot 0x33)
  | .egrVector f => some (.fabricB, f.toSlot 0x40)
  | .egrBuffer f => some (.fabricB, f.toSlot 0x40)
  | .cntSel f => some (.fabricB, f.toSlot 0x50)
  | .cntRdlo f => some (.fabricB, f.toSlot 0x50)
  | .cntRdhi f => some (.fabricB, f.toSlot 0x50)
  | .cntClr f => some (.fabricB, f.toSlot 0x50)
  | .cntHlo f => some (.fabricB, f.toSlot 0x50)
  | .cntHhi f => some (.fabricB, f.toSlot 0x50)
  | .spineEmitWord _ => none
  | .fetchBlockArrives _ _ => none
  | .resultLands _ _ _ => none
  | .voteResultDelivered _ => none
  | .routeValueLands _ _ _ => none
  | .waitConditionCheck _ => none
  | .holdFreeze _ => none
  | .holdRelease _ => none
  | .spineWaitSatisfied _ => none
  | .waitcPoll _ => none
  | .launchWindowWrite _ _ _ _ => none
  | .cwaitPoll _ => none
  | .priorityAging _ => none
  | .candidateBecomesBlocking _ => none
  | .binderyStep => none
  | .freezeWaveEffect _ => none
  | .imageSave _ => none
  | .imageRestore _ _ _ => none
  | .wrapSweep _ => none
  | .seamPlaneSwitch _ => none
  | .seamGenerationAdvance _ => none
  | .launchComplete _ => none
  | .interruptWindowExpiry _ => none
  | .planeLoadComplete _ _ => none
  | .planeLoadError _ _ => none
  | .streamRequestIssue _ _ => none
  | .tlbWalkComplete _ => none
  | .keyCacheUnwrap _ => none
  | .homeApplyRequest _ => none
  | .requestReply _ => none
  | .fillHalfLands _ _ => none
  | .deferredVoid _ _ => none
  | .egressGranuleTaken _ _ _ => none
  | .streamComplete _ _ => none
  | .readAheadExpiry _ => none
  | .tlbinvAll => none
  | .tlbinvInterface _ => none
  | .tlbinvPage _ _ => none
  | .tlbinvPageAll _ => none
  | .tlbinvComplete => none
  | .cpyUnitTransfer _ => none
  | .dmaWindowWrite _ _ _ _ _ => none
  | .dataImageCopy _ _ => none
  | .dmaCopyStart => none
  | .collStepStart _ => none
  | .collGrantReceive _ => none
  | .collDataFrameReceive _ => none
  | .collAckReceive _ => none
  | .collRetransmit _ => none
  | .collStepTimeout _ => none
  | .ethernetPortDown _ => none
  | .ptpMessageReceive _ _ => none
  | .servoCorrection _ _ => none
  | .syncLoss => none
  | .gform _ _ => none
  | .imgreg _ _ => none
  | .imgdel _ _ => none
  | .jexp _ _ => none
  | .jrev _ _ => none
  | .jprv _ _ => none
  | .frespAbort _ _ => none
  | .frespResume _ _ => none
  | .frespRetry _ _ => none
  | .dbgResume _ => none
  | .dselRead _ _ => none
  | .dselWrite _ _ => none
  | .tringWrite _ => none
  | .mcapWrite _ => none
  | .carveWrite _ => none
  | .ecarveWrite _ => none
  | .registerWrite _ _ _ => none
  | .debugStop _ _ _ => none
  | .faultStopFreeze _ => none
  | .faultStopResume _ => none
  | .launchEndByFault _ => none
  | .uncorrectableError _ => none
  | .engineProposal _ _ _ => none
  | .transactionApply _ => none
  | .fmtApply _ => none
  | .trialStart _ => none
  | .trialWindowEnd _ => none
  | .trialTimeout _ => none
  | .proposalValidityExpiry _ => none
  | .compoundRevertUndo _ => none
  | .causalTrial _ _ _ _ => none
  | .causalDelay _ => none
  | .rstNDeassert => none
  | .rstNAssert => none
  | .verifyComponent _ _ _ _ _ _ => none
  | .earlyTrainingComplete => none
  | .fullServiceTransition => none
  | .trainingFailure _ _ => none
  | .ethernetTrainingFailure _ => none
  | .getVersion _ => none
  | .getCapabilities _ => none
  | .negotiateAlgorithms _ _ _ => none
  | .getDigests _ => none
  | .getCertificate _ _ => none
  | .challenge _ _ _ _ => none
  | .getMeasurements _ _ _ => none
  | .unsupportedRequest _ _ => none
  | .powerEnforcementWindow => none
  | .folioPowerGate _ => none
  | .folioUngateComplete _ => none
  | .thermalEmergencyCap _ _ => none
  | .thermalShareLimit _ _ => none
  | .thermalHalt _ _ => none
  | .thermalRelease _ _ => none
  | .traceStageDrain _ => none
  | .traceRingCopy _ => none
  | .registerRead _ _ => none
  | .worldKeyCreate _ => none
  | .worldKeyDestroy _ => none
  | .precisionTimeMessageSend _ => none

/-- A schedule word of a header and two slots (R123, R124). -/
def encodeWord (h : Header) (a b : SlotBits) : SchedWord :=
  (BitVec.ofBool h.spine ++ h.role ++ BitVec.ofBool h.h ++ h.le ++ BitVec.ofBool h.gs ++ h.gk ++ BitVec.ofBool h.seam
    ++ h.zero ++ a ++ b : BitVec 128)

end Sys2Proof
end

