-- ==== Sys2Proof/Machine/State.lean ====
section
/-!
DEFINITION. The state of the machine: everything the spec gives the module, as plain data, and the state after reset.
-/

namespace Sys2Proof.Machine

/-! ### Outcomes -/

/-- Why the machine stops with a fault. The faults the spec describes are no stops: their records are written and their
disposition is taken in a next state (R344, R345). -/
inductive Fault where
  /-- A slot task holds bits that no decoder accepts. Raised by `step` alone, in a state that no run reaches, since the lead
  spine decodes every word before it issues it (R138). Safe: the machine stops where no hardware state is described. -/
  | undecodedSlot
  deriving DecidableEq, Repr

/-- Why an instruction has no meaning here. -/
inductive Refusal where
  /-- The instruction of this mnemonic has no meaning yet. Raised by `exec` alone. Safe: nothing can be proved of it. -/
  | notModelled (mnemonic : String)
  deriving DecidableEq, Repr

/-! ### Sparse tables -/

/-- A table of numbered entries in rising order; a number not listed holds the default of its table. -/
abbrev Tab (α : Type) := List (Nat × α)

def Tab.get {α : Type} (d : α) (t : Tab α) (k : Nat) : α :=
  match t with
  | [] => d
  | (j, x) :: rest => if j = k then x else Tab.get d rest k

def Tab.insert {α : Type} (k : Nat) (x : α) : Tab α → Tab α
  | [] => [(k, x)]
  | (j, y) :: rest => if k < j then (k, x) :: (j, y) :: rest else (j, y) :: Tab.insert k x rest

def Tab.erase {α : Type} (k : Nat) : Tab α → Tab α
  | [] => []
  | (j, y) :: rest => if j = k then Tab.erase k rest else (j, y) :: Tab.erase k rest

/-- Entry k becomes x; an entry equal to the default is not listed. -/
def Tab.set {α : Type} [DecidableEq α] (d : α) (t : Tab α) (k : Nat) (x : α) : Tab α :=
  if x = d then Tab.erase k t else Tab.insert k x (Tab.erase k t)

/-- A table in which what is listed counts, whatever its value. -/
def Tab.put {α : Type} (t : Tab α) (k : Nat) (x : α) : Tab α := Tab.insert k x (Tab.erase k t)

def Tab.look {α : Type} (t : Tab α) (k : Nat) : Option α := (t.find? fun p => p.1 == k).map (·.2)

/-- The stored generation of an item (R49). -/
abbrev Gen := BitVec 16

/-! ### The element (R49) -/

/-- v0 to v27: data, stored generation, format tag and scaled bit (R53), poison (R369). -/
structure VReg where
  data : Vec
  gen : Gen
  fmt : BitVec 4
  scaled : Bool
  poison : Bool
  deriving DecidableEq, Repr

def VReg.zero : VReg := ⟨0, 0, 0, false, false⟩

/-- a0 to a7; kind I or F (R53). -/
structure AReg where
  data : Tile
  gen : Gen
  kindI : Bool
  poison : Bool
  deriving DecidableEq, Repr

def AReg.zero : AReg := ⟨0, 0, false, false⟩

/-- A tagged register without a format: s, k, b, a ring descriptor, or a granule. -/
structure Tagged (w : Nat) where
  data : BitVec w
  gen : Gen
  poison : Bool
  deriving DecidableEq, Repr

def Tagged.zero (w : Nat) : Tagged w := ⟨0, 0, false⟩

/-- A value on a link or in a port view, with the tag its sender attached (R50, R232). -/
structure PortValue where
  data : Vec
  fmt : BitVec 4
  scaled : Bool
  /-- carries the tag of a view with no value, which matches every check -/
  blank : Bool
  deriving DecidableEq, Repr

/-- The four directions of a link. -/
inductive Dir where
  | north | south | east | west
  deriving DecidableEq, Repr

/-- A value in a route output's delay line, until it leaves at its signature time (R20, R233). -/
structure Routed where
  out : Dir
  leaves : Nat
  sent : Nat
  word : Nat
  value : PortValue
  deriving DecidableEq, Repr

/-- A value in a port view, readable for one word of the receiver; `side` names the side it arrived on (R20). -/
structure Arrived where
  side : Dir
  word : Nat
  sent : Nat
  value : PortValue
  deriving DecidableEq, Repr

/-- A result that lands later (R201): what it writes. A mask has a one for every bit written. -/
inductive Write where
  | v (reg : Nat) (data mask : Vec) (fmt : BitVec 4) (scaled : Bool)
  | a (reg : Nat) (data mask : Tile) (kindI : Bool)
  | s (reg : Nat) (data : SWord)
  | k (reg : Nat) (data mask : Word)
  | ring (level : Nat) (data : BitVec 16)
  deriving DecidableEq, Repr

/-- A pending result: when it lands, the word and slot that made it, and the generation it stamps (R127, R201). -/
structure Pending where
  due : Nat
  word : Nat
  slotB : Bool
  gen : Gen
  write : Write
  deriving DecidableEq, Repr

/-- A matrix-unit instruction between E and its tile read at E + 3 (R225): its operands, and σ as its roundings find it. -/
structure MatrixOp where
  readAt : Nat
  word : Nat
  gen : Gen
  instr : Instr
  va : Vec
  vb : Vec
  vc : Vec
  sigma : SWord
  mode : BitVec 8
  deriving DecidableEq, Repr

/-- A buffer as EGR queued it: its number, its BASE and CNT, the generation of its descriptor, and the next granule to be read (R242). -/
structure Drain where
  b : Nat
  base : Nat
  cnt : Nat
  gen : Gen
  next : Nat
  deriving DecidableEq, Repr

/-- What waits in the egress queue: a vector granule, or the granules of a buffer from the next one to be read (R242); the next one may have
raised a fault when the port read it, and then waits for RESUME (R352). -/
inductive EgressEntry where
  | vector (data : Vec)
  | buffer (d : Drain)
  | stopped (d : Drain)
  deriving DecidableEq, Repr

structure Egress where
  handle : Nat
  entry : EgressEntry
  deriving DecidableEq, Repr

/-- An event counter: 48 bits and what it counts (R243). -/
structure Counter where
  value : BitVec 48
  event : BitVec 4
  deriving DecidableEq, Repr

def Counter.zero : Counter := ⟨0, 0⟩

/-- One element. Tables are keyed by register or granule number. -/
structure Element where
  v : Tab VReg
  a : Tab AReg
  s : Tab (Tagged 32)
  k : Tab (Tagged 64)
  b : Tab (Tagged 64)
  /-- the stream context that fills a FILLING buffer, or has voided it (R60, R371), by its key in the signature, plus one -/
  owner : Tab Nat
  ring : Tab (Tagged 16)
  pad : Tab (Tagged 512)
  sigma : SWord
  counters : Tab Counter
  pending : List Pending
  matrix : List MatrixOp
  delay : List Routed
  ports : List Arrived
  egress : List Egress
  /-- fill halves landed in this cycle: granule and half (R58) -/
  landed : List (Nat × Bool)
  /-- cycles for which an egress granule still holds the row bus (R87) -/
  bus : Nat
  /-- events of the word being executed, counted when it is left, since CNT reads the counts before them (R243) -/
  tally : Tab Nat
  deriving DecidableEq, Repr

/-- An element as power gating and module reset leave it (R61, R339). -/
def Element.zero : Element :=
  { v := [], a := [], s := [], k := [], b := [], owner := [], ring := [], pad := [], sigma := 0, counters := []
    pending := [], matrix := [], delay := [], ports := [], egress := [], landed := [], bus := 0, tally := [] }

/-! ### The spine (R51, R196) -/

/-- A plane switch or generation advance waiting for the next seam (R188). -/
inductive SeamRequest where
  | plsw (cfg : BitVec 16)
  | genadv
  deriving DecidableEq, Repr

/-- What the spine does with the word at pc (R128, R157, R158). -/
inductive SpinePhase where
  /-- the next word is to be decoded -/
  | fetch
  /-- the drain before a seam word with an advance pending, from the slot number it began at, and the idle words of a sweep that are
  still to be emitted (R46, R65) -/
  | seam (first sweep : Nat)
  /-- a slot is being performed, or waits -/
  | slotA
  | slotB
  /-- both slots are done or passed over; idle slots may still be owed -/
  | leave
  /-- a STOP fault of the slot waits for its answer (R353) -/
  | faulted (slotB : Bool)
  /-- a STOP fault of the fetch of the word at pc waits for its answer (R364) -/
  | fetchFault
  /-- END or an END fault: nothing more is emitted (R37, R353) -/
  | ended
  deriving DecidableEq, Repr

/-- An answer a waiting spine instruction has received (R158). -/
inductive Answer where
  /-- a unit, and the wall cycle in which it came (R256) -/
  | data (unit : Vec) (fetched : Nat)
  | value (x : Word)
  | done
  /-- the request failed a check: fault code, AUX and address -/
  | fault (code : Nat) (aux addr : Word)
  deriving DecidableEq, Repr

/-- A read-ahead entry: memory unit by virtual address div 64, its bytes, and the wall cycle of its fetch (R86). -/
structure ReadAhead where
  unit : Nat
  data : Vec
  fetched : Nat
  /-- the number of the request that fetched it -/
  id : Nat
  deriving DecidableEq, Repr

/-- Capture counters (R191). -/
structure Capture where
  on : Bool
  counters : Tab Word
  events : Tab Nat
  intr : Word
  tstart : Word
  sstart : Word
  /-- the 128 bytes of a STOP whose write is not complete (R385) -/
  result : List Vec
  deriving DecidableEq, Repr

def Capture.zero : Capture := ⟨false, [], [], 0, 0, 0, []⟩

/-- What the slots of a spine word read as sources: g registers and control registers from before slot A (R128). -/
structure Sources where
  g : Tab Word
  gen : Gen
  mode : BitVec 8
  progCnt : Word
  barPh : Word
  region : List (BitVec 16)
  vt : Word
  capOn : Bool
  capIntr : Word
  cycle : Nat
  time : Nat
  deriving DecidableEq, Repr

def Sources.zero : Sources :=
  { g := [], gen := 0, mode := 9, progCnt := 0, barPh := 0, region := [], vt := 0, capOn := false, capIntr := 0, cycle := 0, time := 0 }

structure Spine where
  g : Tab Word
  before : Sources
  lc : Tab (BitVec 32)
  lstart : Tab Word
  lend : Tab Word
  lact : BitVec 4
  /-- top first; code offsets -/
  ret : List Word
  region : List (BitVec 16)
  vt : Word
  mode : BitVec 8
  latch : Option Word
  progCnt : Word
  barPh : Word
  capture : Capture
  /-- address of the word being performed or fetched next -/
  pc : Word
  phase : SpinePhase
  /-- the word at pc once decoded for issue -/
  ir : SchedWord
  /-- where issue continues after the word, if not at the next word -/
  target : Option Word
  /-- further idle slots owed (R157) -/
  idles : Nat
  /-- the word is waiting: cycles waited and the progress an instruction keeps while it waits -/
  waiting : Bool
  progress : Nat
  answer : Option Answer
  /-- slot number of the last matrix word of each role (R23) -/
  lastMatrix : Tab Nat
  seamRequest : Option SeamRequest
  /-- a debug stop was taken at this spine: no further word before RESUME (R322) -/
  breakpoint : Bool
  /-- after a restore with a STOP of the spine in force: no word is issued before this wall cycle (R384); 1 while its answer is awaited -/
  resumeAt : Nat
  /-- the last VOTE issued (R166) -/
  lastVote : Option Nat
  /-- the last fabric word issued (R183) -/
  lastFabric : Option Nat
  /-- the location that a polling wait rereads (R180) -/
  poll : Option Word
  readAhead : List ReadAhead
  /-- fetched blocks of code: block address div 64, bytes; and blocks asked for (R18, R141) -/
  fetched : List (Nat × Vec)
  wanted : List Nat
  /-- the code of a BKPT in the word at pc, which stops the device after that word (R322) -/
  bkpt : Option Nat
  deriving DecidableEq, Repr

/-- The spine at placement, before g1 and pc are set (R36, R120, R196). -/
def Spine.zero : Spine :=
  { g := [], before := Sources.zero, lc := [], lstart := [], lend := [], lact := 0, ret := [], region := [], vt := 0, mode := 9
    latch := none, progCnt := 0, barPh := 0, capture := Capture.zero, pc := 0, phase := .fetch, ir := 0
    target := none, idles := 0, waiting := false, progress := 0, answer := none, lastMatrix := [], seamRequest := none, breakpoint := false, resumeAt := 0
    lastVote := none, lastFabric := none, poll := none, readAhead := [], fetched := [], wanted := [], bkpt := none }

/-! ### The signature (R16, R17, R42) -/

/-- A word slot in flight: its number, the word, what the spine attached to it (R121, R185), and its code offset. -/
structure InFlight where
  n : Nat
  word : SchedWord
  mode : BitVec 8
  bcast : Word
  offset : BitVec 32
  deriving DecidableEq, Repr

/-- A VOTE in the reduction network (R22, R223). -/
structure Vote where
  n : Nat
  due : Nat
  mode : Nat
  takers : Nat
  ones : Nat
  orValue : Word
  deriving DecidableEq, Repr

/-- Why a freeze wave was requested (R41); a causal trial's delay freezes a signature too (R296). -/
inductive WaveCause where
  | preempt | move | debug | causal | service
  deriving DecidableEq, Repr

structure Wave where
  cause : WaveCause
  /-- wall cycle from which the signature is frozen -/
  from_ : Nat
  /-- whether the freeze is in force -/
  inForce : Bool
  /-- asked for in a debug stop: it strikes after RESUME (R395) -/
  parked : Bool
  deriving DecidableEq, Repr

/-- An element fault detected before its record is written: one for each code, with MORE (R352). -/
structure FaultNote where
  code : Nat
  aux : Word
  addr : Word
  slot : Nat
  offset : BitVec 32
  row : Nat
  col : Nat
  time : Nat
  more : Nat
  /-- disciplined time of the detection, in ns (R348) -/
  seen : Nat
  deriving DecidableEq, Repr

/-- A fault stop of a signature (R352): the wall cycle from which it freezes, the faults to be recorded then, and the wall cycle at which
it lifts once every record has been answered with RESUME. -/
structure FaultStop where
  from_ : Nat
  notes : List FaultNote
  inForce : Bool
  lifts : Option Nat
  deriving DecidableEq, Repr

/-- What runs on a handle (R175). -/
inductive CtxKind where
  | free | stream | copy | coll | cfgld
  deriving DecidableEq, Repr

/-- One stream context of a folio's port (R78 to R85, R178). -/
structure Ctx where
  kind : CtxKind
  /-- parameter or copy block as captured at STRM or CPY -/
  block : Vec
  /-- the stream translation entry: the range entry (R75) -/
  range : Vec
  /-- the addressing format of the range (R289) -/
  addressing : BitVec 8
  /-- context generation (R375) -/
  gen : Gen
  /-- next run and next memory unit within it to request (R81) -/
  run : Nat
  unit : Nat
  /-- runs passed over because the read of their index stands faulted, and such a run that is being made up for (R83) -/
  skipped : List Nat
  back : Option Nat
  /-- index-table entries read, by j (R81) -/
  index : Tab Nat
  /-- memory units delivered by the network and not yet used up: key run · 2^32 + unit -/
  units : Tab Vec
  /-- halves landed of each target element, by its place in the window -/
  landed : Tab Nat
  /-- granules handed over by EGR for each target element -/
  handed : Tab Nat
  /-- granules taken from each target element -/
  taken : Tab Nat
  /-- fill granules that the port dropped: place in the window, and number among the granules of that place (R60, R371) -/
  dropped : List (Nat × Nat)
  /-- places whose granule in hand met a stale descriptor with its first half, and so is discarded whole (R64) -/
  stale : List Nat
  /-- granules taken, by q, whose bytes are not yet written -/
  out : Tab Vec
  /-- tags of key-retired requests, whose granules are discarded (R376) -/
  lost : List Nat
  /-- key-retired discards that wait for their buffer to be EMPTY, by place in the window (R371) -/
  voids : List Nat
  /-- REPORT records written for this context: cause and sequence number (R371, R376) -/
  reports : List (Nat × Nat)
  /-- the collective step this handle runs, and the place of the folio whose port runs it or a copy (R278) -/
  step : Nat
  port : Nat
  /-- the first request number after the fork: earlier stores of the spine port come first (R254) -/
  fork : Nat
  /-- HOLD record that a copy waits on (R354) -/
  hold : Option Nat
  /-- code offset of the word that started it (R348) -/
  code : BitVec 32
  deriving DecidableEq, Repr

def Ctx.free : Ctx :=
  { kind := .free, block := 0, range := 0, addressing := 0, gen := 0, run := 0, unit := 0, skipped := [], back := none, index := [], units := [], landed := []
    handed := [], taken := [], dropped := [], stale := [], out := [], lost := [], voids := [], reports := [], step := 0, port := 0, fork := 0, hold := none, code := 0 }

/-- BUSY and HELD counts of a program region, and its last use (R40). -/
structure RegionCount where
  busy : Word
  held : Word
  lastUse : Nat
  deriving DecidableEq, Repr

def RegionCount.zero : RegionCount := ⟨0, 0, 0⟩

/-- A pin of a signature (R291): object and version. -/
structure Pin where
  object : Word
  version : Word
  deriving DecidableEq, Repr

/-- A subscription (R292): area address with its exponent, filter, and records written. -/
structure Subscription where
  number : Nat
  area : Word
  filter : Word
  count : Word
  deriving DecidableEq, Repr

/-- A saved folio of an image (R42, R66): its elements, the configuration it ran, and the configurations READY in it. -/
structure SavedFolio where
  elements : Tab Element
  cfg : Nat
  roles : Vec
  ready : List Nat
  /-- those of `ready` whose load has begun in the present placement -/
  begun : List Nat
  deriving DecidableEq, Repr

inductive SigStatus where
  /-- folios chosen; waiting for planes, ungating, a sweep, or the image of a restore -/
  | starting
  | running
  /-- END executed, or an END fault: draining (R37, R353) -/
  | draining
  | saved
  deriving DecidableEq, Repr

/-- A record of a launch queue (R29, R33): when it arrived in the queue, now and for the first time, cycles queued before a pre-emption, the cycle
in which it last became its interface's candidate (R34), whether CWAIT was satisfied at its last read (R32), and the saved signature it restores.
-/
structure Queued where
  record : Vec
  /-- effective priority, and whether the record is blocking (R33, R34) -/
  prio : Nat
  blocking : Bool
  arrived : Nat
  first : Nat
  waitedBefore : Nat
  candidateSince : Option Nat
  ready : Bool
  saved : Option Nat
  deriving DecidableEq, Repr

structure Sig where
  vif : Nat
  /-- device folio row and column of the corner -/
  row0 : Nat
  col0 : Nat
  ht : Nat
  wd : Nat
  /-- the launch record (R29) -/
  record : Vec
  prio : Nat
  order : Nat
  /-- the gang it was placed with, by number; 0 for none (R35) -/
  gang : Nat
  /-- wall cycles its record spent in the queue, and the cycle in which it first arrived there (R33, R404) -/
  waited : Nat
  arrived : Nat
  status : SigStatus
  /-- END has been executed (R37); the launch ends by fault (R355) -/
  ending : Bool
  byFault : Bool
  time : Nat
  flight : List InFlight
  votes : List Vote
  hold : Word
  /-- whether some element asserted hold in each of the last 12 wall cycles, the latest first (R24) -/
  asserted : List Bool
  held : Bool
  /-- words whose wait condition an element has found false: they wait no more (R26); word, row, column -/
  passed : List (Nat × Nat × Nat)
  waves : List Wave
  stop : Option FaultStop
  /-- element faults of a launch that ends by fault, one for each code, which are recorded as it ends (R353, R363) -/
  notes : List FaultNote
  /-- unnumbered idle cycles owed before word 0 or at a resumption (R65) -/
  sweep : Nat
  ctxs : Tab Ctx
  regions : Tab RegionCount
  pins : List Pin
  subs : List Subscription
  /-- fabric words issued and measured cycles since the launch was placed, and prog.CNT with both at the start of each unfrozen cycle,
  the latest first (R283) -/
  issued : Nat
  measured : Nat
  history : List (Nat × Nat × Nat)
  /-- whether a sweep or a first advance is still to be made as the placement starts: world change or FRESH (R36), or a restore (R66) -/
  advance : Bool
  /-- bytes of the image store reserved for it (R343) -/
  reservedStore : Nat
  image : Tab SavedFolio
  savedSpine : Spine
  /-- records of LAUNCH whose enqueue waits for the spine's earlier stores, with the first request number after each (R254) -/
  launches : List (Vec × Nat)
  /-- restored and not yet unfrozen: resolved requests wait for the first unfrozen cycle (R383) -/
  reissue : Bool
  /-- interface and record for which a YIELD pre-empts it (R404) -/
  yieldFor : Option (Nat × Queued)
  /-- of a saved image, the stores it may have acquired that were on their way from its die as it was saved (R255) -/
  acquired : List Nat
  /-- corner at which it stood as it was last saved -/
  savedAt : Nat × Nat
  deriving DecidableEq, Repr

/-- The entry of a signature number that is not in use. -/
def Sig.unused : Sig :=
  { vif := 0, row0 := 0, col0 := 0, ht := 0, wd := 0, record := 0, prio := 0, order := 0, gang := 0, waited := 0, arrived := 0
    status := .saved, ending := false, byFault := false
    time := 0, flight := [], votes := [], hold := 0, asserted := [], held := false, passed := [], waves := [], stop := Option.none, notes := [], sweep := 0
    ctxs := [], regions := [], pins := [], subs := [], issued := 0, measured := 0, history := [], advance := false, reservedStore := 0
    image := [], savedSpine := Spine.zero
    launches := [], reissue := false, yieldFor := Option.none, acquired := [], savedAt := (0, 0) }

/-! ### The folio (R9, R39, R45) -/

inductive PlaneState where
  | invalid | loading | ready | active
  deriving DecidableEq, Repr

/-- A configuration plane (R45): owner world, configuration and the image it belongs to, role record (R147), last activation. -/
structure Plane where
  state : PlaneState
  owner : Option Nat
  image : Word
  cfg : Nat
  /-- virtual address of the configuration record being loaded -/
  source : Word
  roles : Vec
  activated : Nat
  /-- the order of its load among those of its folio -/
  loaded : Nat
  deriving DecidableEq, Repr

def Plane.invalid : Plane := ⟨.invalid, none, 0, 0, 0, 0, 0, 0⟩

/-- A 32-byte trace record (R315). -/
abbrev TraceRecord := BitVec 256

/-- A staging area or die buffer (R317, R318): records oldest first, insertion count, and the position of the gap record of the
current run. -/
structure TraceArea where
  records : List TraceRecord
  inserted : Nat
  gap : Option Nat
  deriving DecidableEq, Repr

def TraceArea.empty : TraceArea := ⟨[], 0, none⟩

structure Folio where
  gen : Gen
  /-- the wrap sweep has been made: generation 1 comes next (R61, R65) -/
  swept : Bool
  spine : Spine
  planes : Tab Plane
  busy : Word
  held : Word
  idle : Word
  gated : Bool
  /-- cycles idle toward power gating, and wall cycle at which ungating completes (R339) -/
  idleFor : Nat
  ungated : Option Nat
  /-- the world that last ran here (R36) -/
  lastWorld : Option Nat
  /-- the signature placed here, plus one -/
  placed : Nat
  staging : TraceArea
  deriving DecidableEq, Repr

/-- A folio after module reset: generation 1, no plane, nothing that ran (R61, R339). -/
def Folio.zero : Folio :=
  { gen := 1, swept := false, spine := Spine.zero, planes := [], busy := 0, held := 0, idle := 0, gated := false, idleFor := 0, ungated := none
    lastWorld := none, placed := 0, staging := TraceArea.empty }

/-! ### Memory requests and keys (R73, R83, R89 to R95) -/

/-- The key a request uses (R88, R93). -/
inductive KeyUse where
  | plain
  | world
  | slot (number gen : Nat) (epoch : Bool)
  deriving DecidableEq, Repr

/-- Who issued a request. -/
inductive ReqSource where
  | spine (sig : Nat)
  | readAhead (sig : Nat)
  | stream (sig ctx tag : Nat)
  | index (sig ctx j : Nat)
  deriving DecidableEq, Repr

/-- What a request does at its home (R89, R97, R182). -/
inductive ReqOp where
  | read
  /-- a whole unit, sealed at its port -/
  | sealed (data : Vec)
  /-- plaintext bytes, merged at the home -/
  | write (data mask : Vec)
  | atomic (aop : Nat) (wide : Bool) (x cmp : Word)
  | arrive (n : BitVec 32)
  /-- a 64-bit far ADD that returns nothing (R181) -/
  | add (x : Word)
  deriving DecidableEq, Repr

inductive ReqStage where
  /-- waits for the edge TLB or a walker -/
  | translate
  /-- waits for an unwrap -/
  | key
  /-- on its way to its home, in order (R83) -/
  | travel
  /-- applied; the reply is on its way -/
  | reply
  /-- pending with a fault: code, AUX, and the record that awaits an answer, if any (R354) -/
  | faulted (code : Nat) (aux : Word) (seq : Nat)
  deriving DecidableEq, Repr

structure Request where
  id : Nat
  source : ReqSource
  vif : Nat
  /-- the address checked against the range, and the address whose unit the seal names; they differ only under an FMT (R289) -/
  va : Word
  sealVa : Word
  /-- a scale byte's request (R75) -/
  scale : Bool
  /-- the physical address once translated -/
  pa : Nat
  key : KeyUse
  op : ReqOp
  stage : ReqStage
  /-- what a read found, and whether the unit was poisoned (R368) -/
  data : Vec
  bad : Bool
  die : Nat
  /-- its place in the order in which requests entered the outbound queue of the first boundary switch on their route, from 1; 0 when it has not
  (R257) -/
  entered : Nat
  /-- code offset of the word it is of, and the signature time at which it was issued (R348) -/
  code : BitVec 32
  time : Nat
  deriving DecidableEq, Repr

/-- An edge TLB entry (R73): die, interface, first virtual page number of 64 KiB, log2 of its pages, and the leaf entry. -/
structure TlbEntry where
  die : Nat
  vif : Nat
  page : Nat
  span : Nat
  leaf : Word
  deriving DecidableEq, Repr

/-- A sequence-key slot (R91). A key is its two halves: data key in bits 255:0, tweak key in bits 511:256. -/
structure KeySlot where
  live : Bool
  owner : Nat
  sgen : Nat
  base : Word
  key : Vec
  epoch : Bool
  old : Option (Vec × Bool)
  /-- epochs whose wrapped key met an uncorrectable error (R368, class 6) -/
  broken : List Bool
  deriving DecidableEq, Repr

/-- A slot at reset: FREE with SGEN 1 (R91). -/
def KeySlot.free : KeySlot := ⟨false, 0, 1, 0, 0, false, none, []⟩

/-- A key-cache entry of a port or home: unit, slot, generation, epoch (R90). -/
structure KeyCacheEntry where
  unit : Nat
  slot : Nat
  gen : Nat
  epoch : Bool
  deriving DecidableEq, Repr

/-- Physical memory: HBM and host memory bytes, as they stand, sealed (R71, R88). -/
abbrev Memory := List Host.Cell

/-- What a byte that nothing has written reads as (log 2, DESIGN CHOICE). -/
def Memory.default : Byte := 0

/-! ### Virtual interfaces (R28, R304 to R308) -/

/-- A registered image (R308). -/
structure Image where
  code : Word
  clen : Word
  cfg : Word
  shape : Word
  digest : BitVec 384
  /-- false once deregistered, while placed or saved signatures or queued records still name it -/
  registered : Bool
  deriving DecidableEq, Repr

/-- A fault record written and not yet answered, or open for MORE (R348, R351). -/
structure FaultRecord where
  seq : Nat
  /-- the 64 bytes as written -/
  bytes : Vec
  /-- HOLD or STOP, permitted answers, whether it is answered -/
  disp : Nat
  acts : Nat
  sig : Nat
  ctx : Nat
  /-- the request the record is about, 0 for none (requests are numbered from 1) -/
  request : Nat
  answered : Bool
  /-- whether its signature or context has ended, so that an answer means nothing (R351, R355) -/
  lapsed : Bool
  deriving DecidableEq, Repr

/-- One copy of the host link's DMA port (R305): its block, whether it runs, and its cursor. -/
structure DmaCopy where
  id : Nat
  vif : Nat
  block : Vec
  running : Bool
  /-- units read and not yet written, the latest last, and units read and written so far -/
  units : List Vec
  read : Nat
  written : Nat
  hold : Option Nat
  /-- REPORT records written for it: cause and sequence number (R376) -/
  reports : List (Nat × Nat)
  deriving DecidableEq, Repr

/-- The policy of an interface that POL transactions set (R279). -/
structure Policy where
  weight : Nat
  cshare : Nat
  pcap : Nat
  tcls : Nat
  hbud : Nat
  partn : Word
  deriving DecidableEq, Repr

/-- What an interface's signatures did since the last enforcement window (R338): multiply-accumulates by operand width in bits, scratchpad
bytes, fill bytes, wadi bytes, and HBM bytes. -/
structure Activity where
  macs : Tab Nat
  pad : Nat
  fill : Nat
  wadi : Nat
  hbm : Nat
  deriving DecidableEq, Repr

def Activity.zero : Activity := ⟨[], 0, 0, 0, 0⟩

structure Iface where
  ictl : Word
  iaddr : Word
  farea : Word
  troot : Word
  rtab : Word
  darea : Word
  jctl : Word
  conf : Word
  dbg : Word
  watch : Tab Word
  jrev : Word
  jprv : Word
  imgdel : Word
  policy : Policy
  /-- the share enforced in the current power window, and issue credit, in units of 2⁻³² (R15, R338; log 8, DESIGN CHOICE) -/
  share : Nat
  credit : Nat
  queue : List Queued
  images : List Image
  wcnt : Word
  lost : Word
  records : List FaultRecord
  /-- interrupt coalescing (R38): ENDs counted and the nanosecond at which the window ends -/
  irqCount : Nat
  irqEnds : Option Nat
  worldKey : Option Vec
  descriptors : Nat
  activity : Activity
  deriving DecidableEq, Repr

/-- The policy at module reset (R33, R279); CSHARE is log 4. The partition is the whole device: corner 0, 12 by 24 folios. -/
def Policy.reset : Policy := ⟨16, 65536, 0, 0, 0, 0x180C0000⟩

def Iface.zero : Iface :=
  { ictl := 0, iaddr := 0, farea := 0, troot := 0, rtab := 0, darea := 0, jctl := 0, conf := 0, dbg := 0, watch := [], jrev := 0
    jprv := 0, imgdel := 0, policy := Policy.reset, share := 2 ^ 32, credit := 0, queue := [], images := [], wcnt := 0, lost := 0
    records := [], irqCount := 0, irqEnds := none, worldKey := none, descriptors := 1
    activity := Activity.zero }

/-! ### Collectives (R311 to R314) -/

/-- A member-table entry (R311). -/
structure Member where
  address : BitVec 128
  mac : BitVec 48
  digest : BitVec 384
  deriving DecidableEq, Repr

/-- A frame sent and not yet acknowledged, with the wall time of its last transmission (R314). -/
structure SentFrame where
  frame : Frame
  sentAt : Nat
  deriving DecidableEq, Repr

/-- A collective step on a die's engine (R179, R314). -/
structure CollStep where
  id : Nat
  sig : Nat
  ctx : Nat
  vif : Nat
  die : Nat
  block : Vec
  mode : BitVec 8
  number : Nat
  /-- position among the steps of its ordered pair -/
  pairIndex : Nat
  started : Bool
  port : Option Nat
  allowance : Nat
  nextFrame : Nat
  /-- frames received and written, or sent and acknowledged -/
  finished : List Nat
  sent : List SentFrame
  /-- wall time of the last authenticated frame, or of the start, in the oscillator's units -/
  lastFrame : Nat
  deriving DecidableEq, Repr

structure Group where
  vif : Nat
  grp : BitVec 32
  ggen : BitVec 32
  rank : Nat
  members : List Member
  timeout : Nat
  key : BitVec 256
  /-- frame counter of the nonce, and what it reached in each earlier generation (R313) -/
  counter : Nat
  spent : List (BitVec 32 × Nat)
  /-- steps issued so far, and sends and receives issued to each rank (R314, R326) -/
  steps : Nat
  sends : Tab Nat
  receives : Tab Nat
  /-- grants that came before the send they are for was taken -/
  grants : List Frame
  /-- receives and reduces that completed, whose frames are acknowledged again when they come again (R314) -/
  ended : List CollStep
  discarded : Nat
  deriving DecidableEq, Repr

/-! ### Trace (R315 to R318) -/

/-- A die buffer, and the folio of the die that the round-robin drain visits next. -/
structure DieBuffer where
  area : TraceArea
  turn : Nat
  deriving DecidableEq, Repr

def DieBuffer.zero : DieBuffer := ⟨TraceArea.empty, 0⟩

/-! ### The platform (R310, R330 to R343) -/

/-- SPDM connection state of one path (R333): version, capabilities and algorithms agreed, and the transcript so far. -/
structure Spdm where
  stage : Nat
  transcript : List Byte
  /-- the last response sent -/
  response : List Byte
  deriving DecidableEq, Repr

def Spdm.zero : Spdm := ⟨0, [], []⟩

/-- The time of the reference oscillator since module reset in units of 0.4 ns, which are the wall time of R314; and the disciplined time (R310) in
units of 1/5,000,000 ns, in which one ppm of a fabric cycle's 0.4 ns is two units: the time, the rate correction in ppm, the backward correction still to be absorbed, the forward step to be made as the wall cycle ends, SYNC, sync intervals
without a message, whether one came in this interval, and whether one came in the last, so that the servo may correct. -/
structure Clock where
  oscillator : Nat
  time : Nat
  ratePpm : Int
  backlog : Nat
  step : Nat
  synced : Bool
  missed : Nat
  heard : Bool
  correctable : Bool
  deriving DecidableEq, Repr

structure Platform where
  /-- RST_N deasserted (R330) -/
  running : Bool
  service : Nat
  fail : Nat
  cwait : Bool
  /-- component of VERIFY expected next (R332) -/
  order : Nat
  measurements : Tab (BitVec 384)
  fwver : Word
  temp : Word
  power : Word
  mcap : Word
  carve : Word
  ecarve : Word
  ecarveWritten : Bool
  ethMode : BitVec 8
  ethUp : BitVec 8
  /-- ports whose training failed (R336) -/
  ethFailed : BitVec 8
  /-- ETHCFG bits 63:16 as written -/
  ethcfg : Word
  /-- frames dropped for a bad FCS (R309) -/
  badFcs : Nat
  pgate : Bool
  /-- thermal actions in force: cap 1, share limit 2 (R340) -/
  thermal : BitVec 2
  /-- the module is trained for full service, and its freeze for the move has been requested (R335) -/
  trained : Bool
  moving : Bool
  /-- bytes of the image store reserved or used (R343) -/
  store : Nat
  tringRead : BitVec 32
  tringWrite : BitVec 32
  ring : Tab TraceRecord
  spdm : Tab Spdm
  deriving DecidableEq, Repr

/-- Debugger registers and the stop in force (R320 to R323), with the wall time at which it was taken, in the oscillator's units. -/
structure Debug where
  dsel : Word
  data : Tile
  dstat : Word
  stopped : Bool
  cause : Nat
  code : Nat
  vif : Nat
  since : Nat
  /-- watchpoint hits that await their stop, the first one first: interface, watchpoint number, signature, words issued since (R322, R324) -/
  hits : List (Nat × Nat × Nat × Nat)
  /-- answers to STOP records accepted in the stop, which take effect after RESUME: interface, record, action (R395) -/
  answers : List (Nat × Nat × Nat)
  deriving DecidableEq, Repr

/-! ### The journal (R269 to R296) -/

/-- The states of a transaction (R272, R274). -/
inductive TxState where
  | proposed | applied | trial | settled | reverted | aborted | withdrawn
  deriving DecidableEq, Repr

structure Tx where
  num : Nat
  vif : Nat
  cls : Nat
  /-- object in record form (R273) -/
  object : Word
  state : TxState
  /-- 0 engine, 1 program, 2 privileged software, 3 replay -/
  src : Nat
  cause : Nat
  deferred : Bool
  rv : Bool
  proposer : Nat
  thresh : Nat
  wlog : Nat
  deps : List Nat
  before : Nat
  after : Nat
  afterBytes : Vec
  beforeBytes : Vec
  link : Nat
  brate : Nat
  trate : Nat
  /-- wall cycle at which a PROPOSED transaction's validity ends -/
  validUntil : Nat
  measuredSig : Option Nat
  /-- what prog.CNT, fabric words and measured cycles rose by in the baseline window -/
  baseline : Nat × Nat × Nat
  /-- T, prog.CNT, fabric words and measured cycles at the start of the trial, and the wall cycle it began -/
  trialStart : Nat × Nat × Nat × Nat
  trialCycle : Nat
  windowDone : Bool
  noTrial : Bool
  /-- the CAUSE with which it settles once its dependencies have (R285) -/
  closing : Option Nat
  /-- marked 64 KiB units of an FMT in trial (R290) -/
  marks : List Nat
  /-- device folios a PART targets, and those it vacates, by number (R282) -/
  target : List Nat
  vacated : List Nat
  /-- how far application or undo has come (R281, R289): 0 not begun; 1 a PART's planes load, or an FMT's range is closed; 2 the freeze
  wave of a PART is requested; 3 an undo failed at this seam; 4 the object was a signature that has ended -/
  stage : Nat
  /-- a plane that a PART loads met an uncorrectable error (R386) -/
  broken : Bool
  /-- undo attempts that failed (R388) -/
  failures : Nat
  replay : Nat
  /-- its proposer or its measured signature ended while it was PROPOSED: another may have the number since (R17, R280, R283) -/
  ended : Bool
  /-- nanoseconds of the latest state change (R271) -/
  stamp : Nat
  deriving DecidableEq, Repr

/-- A compound revert in progress (R286): its number, the transaction reverted, members still to undo in order, and the CAUSE of each. -/
structure CompoundRevert where
  num : Nat
  target : Nat
  members : List Nat
  /-- objects of all its members -/
  objects : List Word
  cause : Nat
  ofReplay : Bool
  deriving DecidableEq, Repr

/-- A replay (R295): its interface and issuing signature; it lasts while a transaction of it is proposed. -/
structure Replay where
  id : Nat
  vif : Nat
  sig : Nat
  deriving DecidableEq, Repr

/-- A causal trial (R296). -/
structure CausalRun where
  sig : Nat
  region : Nat
  fraction : Nat
  wlog : Nat
  /-- false in the window without delays -/
  delaying : Bool
  started : Bool
  start : Nat × Nat × Nat × Nat
  /-- what prog.CNT, fabric words and measured cycles rose by in the first window -/
  first : Nat × Nat × Nat
  outside : Nat
  /-- cycles of delay still to freeze -/
  owed : Nat
  deriving DecidableEq, Repr

structure Journal where
  next : Nat
  txs : List Tx
  reverts : List CompoundRevert
  replays : List Replay
  causal : List CausalRun
  /-- the last transaction applied to each object in record form -/
  lastApplied : List (Word × Nat)
  /-- addressing formats of ranges an FMT re-encoded: interface, range entry, SFMT before the first FMT (R288) -/
  addressing : List (Nat × Nat × BitVec 8)
  /-- bindings that ROUTE set: signature, handle, descriptor (R278) -/
  routes : List (Nat × Nat × Vec)
  /-- the signature that last issued a STRM naming a range: interface, range entry, signature (R283) -/
  lastStrm : List (Nat × Nat × Nat)
  /-- copies of this wall cycle's changes, which are written in number order (R299): transaction, signatures and numbers of the subscriptions that
  each goes to, and record -/
  outbox : List (Nat × List (Nat × Nat) × Vec)
  deriving DecidableEq, Repr

def Journal.zero : Journal := ⟨1, [], [], [], [], [], [], [], [], []⟩

/-! ### The model's own state: what is being executed now (log 1, DESIGN CHOICE) -/

/-- The word slot in whose context a slot instruction runs. -/
structure Focus where
  sig : Nat
  row : Nat
  col : Nat
  n : Nat
  word : SchedWord
  mode : BitVec 8
  bcast : Word
  offset : BitVec 32
  /-- whether the slot is one of a spine word, and whether it is slot B -/
  spine : Bool
  slotB : Bool
  /-- byte lanes the guard enables -/
  lanes : Word
  /-- the element before the word, restored when the word faults (R352) -/
  before : Element
  /-- a slot of the word faulted, so neither is performed -/
  suppressed : Bool
  /-- contribution to a VOTE -/
  vote : Option Word
  deriving DecidableEq, Repr

def Focus.idle : Focus :=
  { sig := 0, row := 0, col := 0, n := 0, word := 0, mode := 0, bcast := 0, offset := 0, spine := false, slotB := false, lanes := 0
    before := Element.zero, suppressed := false, vote := Option.none }

/-- A micro-operation of the current wall cycle, in the order they take place (log 1, DESIGN CHOICE). -/
inductive Task where
  /-- an operation or event of the device -/
  | event (i : Instr)
  /-- an element meets a word: its guard, its slots, and the word's end -/
  | elemWord (sig row col : Nat)
  /-- whether a signature's words move in this cycle is settled, and the cycle is measured -/
  | startSig (sig : Nat)
  | elemSlot (slotB : Bool)
  | elemLeave
  | spineSlot (slotB : Bool)
  | spineLeave
  /-- a request enters the outbound queue of the first boundary switch on its route (R257) -/
  | enterSwitch (request : Nat)
  /-- a LAUNCH whose earlier stores are performed enqueues its record (R184, R254) -/
  | launchEnqueue (sig : Nat)
  /-- an SPDM request arrives at the controllers' service queue; the request at its head is served (R333) -/
  | spdmArrives (i : Instr)
  | serve
  /-- resolved requests of a signature are issued again (R354, R383) -/
  | reissue (sig : Nat)
  /-- the copies of the cycle's journal changes are written (R299) -/
  | journalCopies
  /-- a host thread's store to host memory or through the host link, by physical address -/
  | hostStore (addr : Nat) (bytes : List Byte)
  /-- the wall cycle ends -/
  | endCycle
  deriving DecidableEq, Repr

/-- What the security controller is asked for: a key operation of a signature's spine, or an SPDM request (R333). -/
inductive ServiceItem where
  | key (sig : Nat)
  | spdm (i : Instr)
  deriving DecidableEq, Repr

/-- A signature that stands on folios in a wall cycle, as the cycle begins: whether its words move, whether nothing but R24 freezes it, whether it is
still starting, and whether it makes a sweep then; whether anything freezes it, and whether the cycle is a measured one (R44, R283); and the program
region that the cycle counts in (R39, R40, R189). -/
structure Clocked where
  sig : Nat
  moves : Bool
  held : Bool
  starts : Bool
  sweeps : Bool
  frozen : Bool
  measured : Bool
  region : Nat
  deriving DecidableEq, Repr

/-! ### The machine -/

structure State where
  /-- wall cycles since module reset (R39) -/
  cycle : Nat
  elements : Tab Element
  folios : Tab Folio
  sigs : Tab Sig
  ifaces : Tab Iface
  /-- next signature number to try, and placement order counter (R17, R34) -/
  nextSig : Nat
  nextOrder : Nat
  /-- the bindery's position and launches placed in the current visit (R33) -/
  visit : Nat
  visitPlaced : Nat
  memory : Memory
  poisonedUnits : List Nat
  requests : List Request
  nextRequest : Nat
  tlb : List TlbEntry
  /-- a TLB invalidation in progress: the requests it waits for (R73) -/
  tlbinv : Option (List Nat)
  keySlots : Tab KeySlot
  keyCache : List KeyCacheEntry
  dma : List DmaCopy
  nextDma : Nat
  groups : List Group
  colls : List CollStep
  nextColl : Nat
  /-- frames the engines sent to peers, the latest first -/
  sentFrames : List Frame
  /-- precision-time messages sent, the latest first: port and kind, 0 Delay_Req, 1 a two-step Sync, 2 its Follow_Up,
  3 Announce, 4 Delay_Resp (R309) -/
  ptpSent : List (Nat × Nat)
  dieBuffers : Tab DieBuffer
  clock : Clock
  platform : Platform
  debugger : Debug
  journal : Journal
  /-- the value the last register read returned (R303) -/
  readValue : Word
  /-- interrupts delivered: interface and count (R38, R307) -/
  interrupts : List (Nat × Nat)
  focus : Focus
  /-- the signatures that stand on folios in this wall cycle -/
  clocked : List Clocked
  /-- key and attestation requests that the security controller has yet to serve, in order of arrival (R333) -/
  serviceQueue : List ServiceItem
  agenda : List Task
  /-- external inputs of the coming wall cycles -/
  inputs : List (List Task)
  /-- the counter free values are applied to (log 5, DESIGN CHOICE) -/
  free : Nat
  deriving DecidableEq, Repr

/-- The machine right after reset: RST_N has just been deasserted (R330, R331), and nothing has run. Registers whose value the spec does not
give are 0 (log 3, DESIGN CHOICE). -/
def State.reset : State :=
  { cycle := 0, elements := [], folios := [], sigs := [], ifaces := [], nextSig := 1, nextOrder := 0, visit := 0, visitPlaced := 0
    memory := [], poisonedUnits := [], requests := [], nextRequest := 1, tlb := [], tlbinv := none, keySlots := []
    keyCache := [], dma := [], nextDma := 1, groups := [], colls := [], nextColl := 1, sentFrames := [], ptpSent := []
    dieBuffers := [], clock := { oscillator := 0, time := 0, ratePpm := 0, backlog := 0, step := 0, synced := false, missed := 0, heard := false, correctable := false }
    platform := { running := true, service := 0, fail := 0, cwait := false, order := 1, measurements := [], fwver := 0, temp := 0
                  power := 0, mcap := 7200, carve := 0, ecarve := 0, ecarveWritten := false, ethMode := 0, ethUp := 0, ethFailed := 0, ethcfg := 0, badFcs := 0
                  pgate := false, thermal := 0, trained := false, moving := false, store := 0, tringRead := 0, tringWrite := 0
                  ring := [], spdm := [] }
    debugger := { dsel := 0, data := 0, dstat := 0, stopped := false, cause := 0, code := 0, vif := 0, since := 0, hits := [], answers := [] }
    journal := Journal.zero, readValue := 0, interrupts := [], focus := Focus.idle, clocked := [], serviceQueue := [], agenda := [], inputs := [], free := 0 }

/-! ### Entries of the tables -/

def State.element (s : State) (row col : Nat) : Element := s.elements.get Element.zero (row * 384 + col)
def State.setElement (s : State) (row col : Nat) (e : Element) : State :=
  { s with elements := s.elements.set Element.zero (row * 384 + col) e }

/-- Folios are numbered row by row over the device: 12 rows of 24 (R9, R34). -/
def State.folio (s : State) (row col : Nat) : Folio := s.folios.get Folio.zero (row * 24 + col)
def State.setFolio (s : State) (row col : Nat) (f : Folio) : State :=
  { s with folios := s.folios.set Folio.zero (row * 24 + col) f }

def State.sig (s : State) (n : Nat) : Sig := s.sigs.get Sig.unused n
def State.setSig (s : State) (n : Nat) (g : Sig) : State := { s with sigs := s.sigs.set Sig.unused n g }

def State.iface (s : State) (v : Nat) : Iface := s.ifaces.get Iface.zero v
def State.setIface (s : State) (v : Nat) (f : Iface) : State := { s with ifaces := s.ifaces.set Iface.zero v f }

end Sys2Proof.Machine
end

