-- ==== Sys2Proof/Machine/Operands.lean ====
section
/-!
DEFINITION. Operands of an element: generation-checked reads and claiming writes (R62, R63), ring renaming (R54, R55),
port views (R20, R50), lane masks (R126), and the landing of results (R201).
-/

namespace Sys2Proof.Machine

/-- What an instruction sees of its element's surroundings at E(n,r,c). -/
structure ElemEnv where
  n : Nat
  time : Nat
  /-- the fabric mode captured at issue (R121) -/
  mode : BitVec 8
  bcast : Word
  /-- byte lanes the guard enables (R126) -/
  lanes : Word
  gen : Gen
  /-- stale-read mode T (R30) -/
  trap : Bool
  row : Nat
  col : Nat
  /-- elements per row and column of the signature -/
  width : Nat
  height : Nat
  /-- device element coordinates -/
  devRow : Nat
  devCol : Nat
  role : BitVec 2
  holdCount : Word
  deriving DecidableEq, Repr

/-- A fault an element detects: code, AUX and address (R344). -/
structure ElemFault where
  code : Nat
  aux : Nat
  addr : Nat
  deriving DecidableEq, Repr

/-- What an instruction does in one element: the element after it, and an answer, or a fault (R352). -/
abbrev EM (α : Type) := StateT Element (Except ElemFault) α

def EM.fault {α : Type} (code aux addr : Nat) : EM α := fun _ => .error ⟨code, aux, addr⟩

/-- A check of R356: the fault when the condition fails. -/
def EM.check (ok : Bool) (code aux addr : Nat) : EM Unit := if ok then pure () else EM.fault code aux addr

/-! ### Event counters (R243) -/

def Element.countIn (e : Element) (event : Nat) (by_ : Nat) (c : Nat) : Element :=
  let x := e.counters.get Counter.zero c
  if x.event.toNat = event && event != 0 then
    { e with counters := e.counters.set Counter.zero c { x with value := x.value + BitVec.ofNat 48 by_ } }
  else e

/-- Every counter that counts the event adds its occurrences. -/
def Element.count (e : Element) (event by_ : Nat) : Element :=
  [0, 1, 2, 3].foldl (fun e c => e.countIn event by_ c) e

/-- An occurrence in the word being executed: it counts when the word is left (R243). -/
def EM.count (event by_ : Nat) : EM Unit :=
  modify fun e => { e with tally := e.tally.set 0 event (e.tally.get 0 event + by_) }

/-- The word's events are counted (R243). -/
def Element.flushTally (e : Element) : Element :=
  { e.tally.foldl (fun e p => e.count p.1 p.2) e with tally := [] }

/-! ### Reads (R62, R369) -/

/-- The check of a read: the value, zero when stale in mode Z, a stale-read fault in mode T; a poisoned current item raises
uncorrectable with its class. The answer says whether the value was current. -/
def readChecked (env : ElemEnv) (gen : Gen) (poison : Bool) (cls addr : Nat) : EM Bool :=
  if gen = env.gen then (if poison then EM.fault 0x18 cls addr else pure true)
  else if env.trap then EM.fault 0x10 (gen.toNat + env.gen.toNat * 2 ^ 16) addr
  else do EM.count 8 1; pure false

/-- A vector operand with the tag it carries; a blank one matches every check (R53, R226). -/
structure VSource where
  data : Vec
  fmt : BitVec 4
  scaled : Bool
  blank : Bool
  deriving DecidableEq, Repr

def VSource.none : VSource := ⟨0, 0, false, true⟩

/-- The side a port view faces: v28 pw, v29 pn, v30 pe, v31 ps (R50). -/
def portSide (v : Nat) : Dir := if v = 28 then .west else if v = 29 then .north else if v = 30 then .east else .south

/-- A port view for the word: the value of the later sending word where two land (R233), zero where none does. -/
def portView (env : ElemEnv) (e : Element) (v : Nat) : VSource :=
  let here := e.ports.filter fun a => a.side = portSide v ∧ a.word = env.n
  match here.foldl (fun (best : Option Arrived) a =>
      match best with
      | Option.none => some a
      | some b => if b.sent ≤ a.sent then some a else some b) Option.none with
  | some a => ⟨a.value.data, a.value.fmt, a.value.scaled, a.value.blank⟩
  | Option.none => VSource.none

/-- Read V[v], a register or a port view (R50, R62). -/
def readV (env : ElemEnv) (v : Nat) : EM VSource := do
  let e ← get
  if 28 ≤ v then pure (portView env e v)
  else
    let r := e.v.get VReg.zero v
    if ← readChecked env r.gen r.poison 1 0 then pure ⟨r.data, r.fmt, r.scaled, false⟩ else pure VSource.none

/-- Read S[i] under R62. -/
def readS (env : ElemEnv) (i : Nat) : EM SWord := do
  let r := (← get).s.get (Tagged.zero 32) i
  if ← readChecked env r.gen r.poison 1 0 then pure r.data else pure 0

/-- Read K[i] under R62; k0 reads all ones (R50). -/
def readK (env : ElemEnv) (i : Nat) : EM Word := do
  if i = 0 then pure (-1)
  else
    let r := (← get).k.get (Tagged.zero 64) i
    if ← readChecked env r.gen r.poison 1 0 then pure r.data else pure 0

/-- Read the descriptor of buffer i, by any access but BDECL and BQRY (R239). -/
def readB (env : ElemEnv) (i : Nat) : EM Word := do
  let r := (← get).b.get (Tagged.zero 64) i
  if ← readChecked env r.gen r.poison 1 0 then pure r.data else pure 0

/-- Read granule g of the scratchpad (R62); `addr` is the address a fault reports. -/
def readGranule (env : ElemEnv) (g addr : Nat) : EM Vec := do
  let r := (← get).pad.get (Tagged.zero 512) g
  if ← readChecked env r.gen r.poison 2 addr then pure r.data else pure 0

/-! ### Ring renaming (R54, R55) -/

/-- The register a field names under a ring descriptor. -/
def ringName (d : BitVec 16) (f : Nat) : Nat :=
  let b := (d.extractLsb' 0 5).toNat
  let n := (d.extractLsb' 5 5).toNat
  let i := (d.extractLsb' 10 5).toNat
  if b ≤ f ∧ f < b + n then b + (f - b + i) % n else f

/-- Rename field f if rx puts it under ring control; bit 0 of rx covers the destination, bit 1 the sources. -/
def rename (env : ElemEnv) (rx : BitVec 4) (dest : Bool) (f : BitVec 5) : EM Nat := do
  if (if dest then rx.getLsbD 0 else rx.getLsbD 1) then
    let r := (← get).ring.get (Tagged.zero 16) (rx.extractLsb' 2 2).toNat
    if ← readChecked env r.gen r.poison 1 0 then pure (if 28 ≤ f.toNat then f.toNat else ringName r.data f.toNat)
    else pure f.toNat
  else pure f.toNat

/-- A vector source under ring control. -/
def sourceV (env : ElemEnv) (rx : BitVec 4) (f : BitVec 5) : EM VSource := do
  readV env (← rename env rx false f)

/-- The ring advance a word's LE causes on level L: one step modulo N, unless the descriptor is stale (R54). -/
def Element.advanceRing (e : Element) (gen : Gen) (level : Nat) : Element :=
  let r := e.ring.get (Tagged.zero 16) level
  let n := (r.data.extractLsb' 5 5).toNat
  if r.gen = gen ∧ n ≠ 0 then
    let i := ((r.data.extractLsb' 10 5).toNat + 1) % n
    let r := { r with data := BitVec.ofNat 16 (r.data.toNat % 2 ^ 10 + i * 2 ^ 10) }
    { e with ring := e.ring.set (Tagged.zero 16) level r }
  else e

/-! ### Claiming writes (R63) -/

/-- The item's bits after a write of the masked bits: an item stale under the stamped generation is claimed with zeros. -/
def claimed {w : Nat} (current : Bool) (old data mask : BitVec w) : BitVec w :=
  if current then (old &&& ~~~mask) ||| (data &&& mask) else data &&& mask

/-- A tagged item after a write of the masked bits under a generation (R63, R369). -/
def Tagged.write {w : Nat} (r : Tagged w) (gen : Gen) (data mask : BitVec w) : Tagged w :=
  { data := claimed (r.gen == gen) r.data data mask, gen, poison := r.poison && r.gen == gen && mask != -1 }

/-- The bytes of granule g that a fill half wrote in this cycle, which stand over a word's writes (R58). -/
def Element.landedMask (e : Element) (g : Nat) : Vec :=
  e.landed.foldl (fun m h => if h.1 = g then m ||| BitVec.ofNat 512 ((2 ^ 256 - 1) * (if h.2 then 2 ^ 256 else 1)) else m) 0

/-- Write the masked bits of granule g now. -/
def writeGranule (env : ElemEnv) (g : Nat) (data mask : Vec) : EM Unit :=
  modify fun e =>
    let r := (e.pad.get (Tagged.zero 512) g).write env.gen data (mask &&& ~~~e.landedMask g)
    { e with pad := e.pad.set (Tagged.zero 512) g r }

/-- Queue a result that lands λ cycles after E (R201). -/
def later (env : ElemEnv) (slotB : Bool) (latency : Nat) (w : Write) : EM Unit :=
  modify fun e => { e with pending := e.pending ++ [⟨env.time + latency, env.n, slotB, env.gen, w⟩] }

/-- A result as it lands, stamped with the generation of its word's E (R201). -/
def Element.land (e : Element) (gen : Gen) : Write → Element
  | .v i data mask fmt scaled =>
    let r := e.v.get VReg.zero i
    let poison := r.poison && r.gen == gen && mask != -1
    { e with v := e.v.set VReg.zero i ⟨claimed (r.gen == gen) r.data data mask, gen, fmt, scaled, poison⟩ }
  | .a i data mask kindI =>
    let r := e.a.get AReg.zero i
    let poison := r.poison && r.gen == gen && mask != -1
    { e with a := e.a.set AReg.zero i ⟨claimed (r.gen == gen) r.data data mask, gen, kindI, poison⟩ }
  | .s i data => { e with s := e.s.set (Tagged.zero 32) i ((e.s.get (Tagged.zero 32) i).write gen data (-1)) }
  | .k i data mask =>
    if i = 0 then e
    else { e with k := e.k.set (Tagged.zero 64) i ((e.k.get (Tagged.zero 64) i).write gen data mask) }
  | .ring i data => { e with ring := e.ring.set (Tagged.zero 16) i ⟨data, gen, false⟩ }

/-- Whether a result lands before another due in the same cycle: that of the earlier word (log 98, DEDUCED), and slot A's before slot B's (R127). -/
def Pending.before (p q : Pending) : Bool :=
  p.word < q.word || (p.word == q.word && !p.slotB && q.slotB)

def insertPending (p : Pending) : List Pending → List Pending
  | [] => [p]
  | q :: rest => if p.before q then p :: q :: rest else q :: insertPending p rest

/-- The results due at a signature time, in the order they land. -/
def dueAt (t : Nat) (ps : List Pending) : List Pending :=
  (ps.filter fun p => p.due ≤ t).foldl (fun acc p => insertPending p acc) []

/-- All results due at a signature time land. -/
def Element.landDue (e : Element) (t : Nat) : Element :=
  (dueAt t e.pending).foldl (fun e p => e.land p.gen p.write) { e with pending := e.pending.filter fun p => t < p.due }

/-! ### Lanes (R100, R126) -/

/-- Lane i of width w, as a number. -/
def laneOf (v : Vec) (i w : Nat) : Nat := v.toNat / 2 ^ (w * i) % 2 ^ w

/-- The mask bit of the lowest byte of lane i. -/
def laneBit (m : Word) (i w : Nat) : Bool := m.getLsbD (i * w / 8)

/-- Whether the guard enables some lane of width w. -/
def guardAny (env : ElemEnv) (w : Nat) : Bool := (List.range (512 / w)).any fun i => laneBit env.lanes i w

/-- Whether the guard enables some of `count` lanes from `first` on. -/
def guardSome (env : ElemEnv) (w first count : Nat) : Bool := (List.range count).any fun i => laneBit env.lanes (first + i) w

/-- Byte lane 0 of the guard, which enables a whole instruction (R126). -/
def guardZero (env : ElemEnv) : Bool := env.lanes.getLsbD 0

/-- Lanes computed in ascending order with σ passed along: data, mask of the lanes written, and σ. -/
structure LaneAcc where
  data : Nat
  mask : Nat
  sigma : SWord
  deriving DecidableEq, Repr

/-- One lane: computed when active; zeroed under kz; otherwise left (R53, R156). -/
def laneStep (w : Nat) (active : Nat → Bool) (kz : Bool) (op : Nat → SWord → Nat × SWord) (acc : LaneAcc) (i : Nat) :
    LaneAcc :=
  if active i then
    let (y, σ) := op i acc.sigma
    ⟨acc.data + y % 2 ^ w * 2 ^ (w * i), acc.mask + (2 ^ w - 1) * 2 ^ (w * i), σ⟩
  else if kz then { acc with mask := acc.mask + (2 ^ w - 1) * 2 ^ (w * i) }
  else acc

/-- The lanes `first` to `first + count − 1`. -/
def runLanes (w first count : Nat) (active : Nat → Bool) (kz : Bool) (op : Nat → SWord → Nat × SWord) (σ : SWord) : LaneAcc :=
  (List.range count).foldl (fun acc j => laneStep w active kz op acc (first + j)) ⟨0, 0, σ⟩

/-- A vector whose lanes a function gives. -/
def lanesOf (w : Nat) (f : Nat → Nat) : Vec :=
  BitVec.ofNat 512 ((List.range (512 / w)).foldl (fun acc i => acc + f i % 2 ^ w * 2 ^ (w * i)) 0)

/-! ### Rounding in force (R105, R107, R121) -/

/-- One step of σ (R107). -/
def stepSigma (σ : SWord) : SWord :=
  let nb := σ.getLsbD 31 ^^ σ.getLsbD 21 ^^ σ.getLsbD 1 ^^ σ.getLsbD 0
  (σ <<< 1) ||| (if nb then 1 else 0)

/-- The mode code an md or rm field selects: DFL takes the captured DRM (R105). -/
def roundingCode (mode : BitVec 8) (md : BitVec 3) : Nat :=
  if md = 7 then (mode.extractLsb' 4 3).toNat else md.toNat

/-- The captured OVF (R120). -/
def capturedOvf (mode : BitVec 8) : Bool := mode.getLsbD 7

/-- The captured DFMT (R120). -/
def capturedDfmt (mode : BitVec 8) : BitVec 4 := mode.extractLsb' 0 4

/-- The rounding of one lane and σ after it: SR steps σ first and then uses it (R107). -/
def nextRounding (code : Nat) (ovf : Bool) (σ : SWord) : Rounding × SWord :=
  if code = 4 then (⟨4, (stepSigma σ).toNat, ovf⟩, stepSigma σ) else (⟨code, 0, ovf⟩, σ)

/-- σ after a number of steps. -/
def stepSigmas : Nat → SWord → SWord
  | 0, σ => σ
  | n + 1, σ => stepSigmas n (stepSigma σ)

end Sys2Proof.Machine
end

