-- ==== Sys2Proof/Machine/Flags.lean ====
section
/-!
DEFINITION. Every comparison and condition of the Z9: the branch conditions of BRC (R159), the comparison codes of VCMP and FCMP
(R207, R213), and the predicates they write. The Z9 has no arithmetic flags (R104, R167).
-/

namespace Sys2Proof.Machine

/-- The condition of BRC (R131, R159). -/
def branchCondition (cond : BitVec 3) (x y : Word) : Bool :=
  match cond.toNat with
  | 0 => x == y
  | 1 => x != y
  | 2 => x.toInt < y.toInt
  | 3 => y.toInt ≤ x.toInt
  | 4 => x.toNat < y.toNat
  | 5 => y.toNat ≤ x.toNat
  | 6 => x.getLsbD (y.toNat % 64)
  | _ => !x.getLsbD (y.toNat % 64)

/-- The comparison codes eq, ne, lt, le, gt, ge on an order: c is −1, 0 or 1 (R207). -/
def orderCondition (code : Nat) (c : Int) : Bool :=
  match code with
  | 0 => c == 0
  | 1 => c != 0
  | 2 => c < 0
  | 3 => c ≤ 0
  | 4 => 0 < c
  | _ => 0 ≤ c

/-- VCMP on two integer lanes (R207). -/
def intCondition (f : BitVec 4) (code a b : Nat) : Bool :=
  let x := intValue f a
  let y := intValue f b
  orderCondition code (if x < y then -1 else if x = y then 0 else 1)

/-- FCMP on two float lanes (R213). -/
def floatCondition (f : BitVec 4) (code a b : Nat) : Bool :=
  let x := readFormat f a
  let y := readFormat f b
  let un := x.isNan || y.isNan
  match code with
  | 6 => un
  | 7 => !un
  | 1 => un || x.compare y != 0
  | c => !un && orderCondition c (x.compare y)

/-- The predicate bits of a comparison (R207): for w ≥ 8 the bits of each active lane's bytes take its truth; for 4-bit lanes a
byte's bit is the truth of both its lanes. Inactive bits merge, or become 0 under kz. -/
structure PredAcc where
  data : Word
  mask : Word
  deriving DecidableEq, Repr

/-- The value and the mask of a predicate write, byte by byte. -/
def comparePredicate (w : Nat) (active : Nat → Bool) (kz : Bool) (truth : Nat → Bool) : PredAcc :=
  (List.range 64).foldl (fun acc j =>
    let lane := j * 8 / w
    let on := active lane
    let t := if w = 4 then truth lane && truth (lane + 1) else truth lane
    let bit : Word := (1 : Word) <<< j
    if on then ⟨if t then acc.data ||| bit else acc.data, acc.mask ||| bit⟩
    else if kz then { acc with mask := acc.mask ||| bit }
    else acc) ⟨0, 0⟩

end Sys2Proof.Machine
end

