-- ==== Sys2Proof/Machine/VectorOps.lean ====
section
/-!
DEFINITION. The lane arithmetic of slot A's vector instructions, in one element: integer (R204 to R208), float (R209 to R214),
and cross-lane (R215 to R219).
-/

namespace Sys2Proof.Machine

/-! ### The shared shapes -/

/-- A lane-wise A-V instruction (R200): reads kp, the sources it names and its rings, computes the active lanes, and writes vd
with FMT := fmt after λ cycles. A guard that enables none of its lanes leaves it undone (R126). -/
def laneWise (env : ElemEnv) (rx : BitVec 4) (vd : BitVec 5) (kp : BitVec 3) (kz : Bool) (fmt : BitVec 4) (w first count latency : Nat)
    (scaled : Bool) (op : Nat → SWord → Nat × SWord) : EM Unit := do
  let d ← rename env rx true vd
  let p ← readK env kp.toNat
  let active i := laneBit env.lanes i w && laneBit p i w
  let acc := runLanes w first count active kz op (← get).sigma
  modify fun e => { e with sigma := acc.sigma }
  later env false latency (.v d (BitVec.ofNat 512 acc.data) (BitVec.ofNat 512 acc.mask) fmt scaled)

/-- An operation of two source lanes without rounding. -/
def intLanes (env : ElemEnv) (f : AV) (latency : Nat) (usesVb usesVc : Bool) (op : Nat → Nat → Nat → Nat) : EM Unit := do
  if guardAny env (laneWidth f.ty) then
    let a ← sourceV env f.rx f.va
    let b ← if usesVb then sourceV env f.rx f.vb else pure VSource.none
    let c ← if usesVc then sourceV env f.rx f.vc else pure VSource.none
    let w := laneWidth f.ty
    laneWise env f.rx f.vd f.kp (f.kz == 1) f.ty w 0 (512 / w) latency false
      fun i σ => (op (laneOf a.data i w) (laneOf b.data i w) (laneOf c.data i w), σ)

/-- An immediate operation on one source lane (R206). -/
def immLanes (env : ElemEnv) (f : AI) (latency : Nat) (usesVa : Bool) (op : Nat → SWord → Nat × SWord) : EM Unit := do
  if guardAny env (laneWidth f.ty) then
    let a ← if usesVa then readV env f.va.toNat else pure VSource.none
    let w := laneWidth f.ty
    laneWise env 0 f.vd f.kp (f.kz == 1) f.ty w 0 (512 / w) latency false fun i σ => op (laneOf a.data i w) σ

/-- A rounding float operation (R209): the exact value of each lane, rounded by md into ty. -/
def floatLanes (env : ElemEnv) (f : AV) (latency : Nat) (usesVc : Bool) (op : Nat → Nat → Nat → Nat → FVal) : EM Unit := do
  if guardAny env (laneWidth f.ty) then
    let a ← sourceV env f.rx f.va
    let b ← sourceV env f.rx f.vb
    let c ← if usesVc then sourceV env f.rx f.vc else pure VSource.none
    let w := laneWidth f.ty
    let code := roundingCode env.mode f.md
    laneWise env f.rx f.vd f.kp (f.kz == 1) f.ty w 0 (512 / w) latency false fun i σ =>
      let (r, σ) := nextRounding code (capturedOvf env.mode) σ
      (convertTo f.ty r (op code (laneOf a.data i w) (laneOf b.data i w) (laneOf c.data i w)), σ)

/-! ### Integer lanes -/

/-- WRAP or SAT of an exact result (R202, R204). -/
def narrow (f : BitVec 4) (sat : Bool) (x : Int) : Nat :=
  wrapInt (if sat then clampInt x (intLo f) (intHi f) else x) (laneWidth f)

/-- 2^(s − 1) under RND for s ≥ 1, else 0 (R204). -/
def roundHalf (rnd : Bool) (s : Nat) : Nat := if rnd && 1 ≤ s then 2 ^ (s - 1) else 0

/-- floor(x / 2^s). -/
def shiftDown (x : Int) (s : Nat) : Int := x / (2 ^ s : Nat)

def lanesVadd (f : BitVec 4) (sat : Bool) (a b : Nat) : Nat := narrow f sat (intValue f a + intValue f b)
def lanesVsub (f : BitVec 4) (sat : Bool) (a b : Nat) : Nat := narrow f sat (intValue f a - intValue f b)
def lanesVmul (f : BitVec 4) (sat : Bool) (a b : Nat) : Nat := narrow f sat (intValue f a * intValue f b)

/-- VMULH: floor((a · b + RND · 2^(w−1)) / 2^w) (R204). -/
def lanesVmulh (f : BitVec 4) (rnd : Bool) (a b : Nat) : Nat :=
  let w := laneWidth f
  wrapInt (shiftDown (intValue f a * intValue f b + roundHalf rnd w) w) w

def lanesVmad (f : BitVec 4) (sat : Bool) (a b c : Nat) : Nat :=
  narrow f sat (intValue f a * intValue f b + intValue f c)

/-- VSHL: a · 2^s with the whole lane b as the count (R204). -/
def lanesVshl (f : BitVec 4) (sat : Bool) (a b : Nat) : Nat := narrow f sat (intValue f a * (2 ^ b : Nat))

def lanesVshr (f : BitVec 4) (rnd : Bool) (a b : Nat) : Nat := ((a + roundHalf rnd b) / 2 ^ b) % 2 ^ laneWidth f

def lanesVsra (f : BitVec 4) (rnd : Bool) (a b : Nat) : Nat :=
  let w := laneWidth f
  wrapInt (shiftDown (sint a w + roundHalf rnd b) b) w

def lanesVmin (f : BitVec 4) (a b : Nat) : Nat := if intValue f a ≤ intValue f b then a else b
def lanesVmax (f : BitVec 4) (a b : Nat) : Nat := if intValue f a ≤ intValue f b then b else a
def lanesVabs (f : BitVec 4) (sat : Bool) (a : Nat) : Nat := narrow f sat (intValue f a).natAbs

/-- Leading zero bits of a w-bit pattern; w when it is 0 (R204). -/
def leadingZeros (w a : Nat) : Nat := if a = 0 then w else w - 1 - Nat.log2 a

/-- The number of one bits below a width. -/
def onesBelow (w a : Nat) : Nat := (List.range w).foldl (fun n i => if a.testBit i then n + 1 else n) 0

def elemVadd (f : AV) (env : ElemEnv) : EM Unit :=
  intLanes env f 1 true false fun a b _ => lanesVadd f.ty (f.md == 1) a b
def elemVsub (f : AV) (env : ElemEnv) : EM Unit :=
  intLanes env f 1 true false fun a b _ => lanesVsub f.ty (f.md == 1) a b
def elemVmul (f : AV) (env : ElemEnv) : EM Unit :=
  intLanes env f 2 true false fun a b _ => lanesVmul f.ty (f.md == 1) a b
def elemVmulh (f : AV) (env : ElemEnv) : EM Unit :=
  intLanes env f 2 true false fun a b _ => lanesVmulh f.ty (f.md == 1) a b
def elemVmad (f : AV) (env : ElemEnv) : EM Unit :=
  intLanes env f 2 true true fun a b c => lanesVmad f.ty (f.md == 1) a b c
def elemVand (f : AV) (env : ElemEnv) : EM Unit := intLanes env f 1 true false fun a b _ => a &&& b
def elemVor (f : AV) (env : ElemEnv) : EM Unit := intLanes env f 1 true false fun a b _ => a ||| b
def elemVxor (f : AV) (env : ElemEnv) : EM Unit := intLanes env f 1 true false fun a b _ => a ^^^ b
def elemVshl (f : AV) (env : ElemEnv) : EM Unit :=
  intLanes env f 1 true false fun a b _ => lanesVshl f.ty (f.md == 1) a b
def elemVshr (f : AV) (env : ElemEnv) : EM Unit :=
  intLanes env f 1 true false fun a b _ => lanesVshr f.ty (f.md == 1) a b
def elemVsra (f : AV) (env : ElemEnv) : EM Unit :=
  intLanes env f 1 true false fun a b _ => lanesVsra f.ty (f.md == 1) a b
def elemVmin (f : AV) (env : ElemEnv) : EM Unit := intLanes env f 1 true false fun a b _ => lanesVmin f.ty a b
def elemVmax (f : AV) (env : ElemEnv) : EM Unit := intLanes env f 1 true false fun a b _ => lanesVmax f.ty a b
def elemVabs (f : AV) (env : ElemEnv) : EM Unit :=
  intLanes env f 1 false false fun a _ _ => lanesVabs f.ty (f.md == 1) a
def elemVclz (f : AV) (env : ElemEnv) : EM Unit :=
  intLanes env f 1 false false fun a _ _ => leadingZeros (laneWidth f.ty) a
def elemVpopc (f : AV) (env : ElemEnv) : EM Unit :=
  intLanes env f 1 false false fun a _ _ => onesBelow (laneWidth f.ty) a

/-- The predicate write shared by VCMP and FCMP (R207, R213). -/
def elemCompare (f : AV) (env : ElemEnv) (truth : Nat → Nat → Bool) : EM Unit := do
  let w := laneWidth f.ty
  if guardAny env w then
    let a ← sourceV env f.rx f.va
    let b ← sourceV env f.rx f.vb
    let p ← readK env f.kp.toNat
    let active i := laneBit env.lanes i w && laneBit p i w
    let acc := comparePredicate w active (f.kz == 1) fun i => truth (laneOf a.data i w) (laneOf b.data i w)
    later env false 1 (.k f.vd.toNat acc.data acc.mask)

def elemVcmp (f : AV) (env : ElemEnv) : EM Unit := elemCompare f env (intCondition f.ty f.md.toNat)

/-- VSEL: kp selects, the guard masks (R208). -/
def elemVsel (f : AV) (env : ElemEnv) : EM Unit := do
  let w := laneWidth f.ty
  if guardAny env w then
    let a ← sourceV env f.rx f.va
    let b ← sourceV env f.rx f.vb
    let p ← readK env f.kp.toNat
    let d ← rename env f.rx true f.vd
    let acc := runLanes w 0 (512 / w) (fun i => laneBit env.lanes i w) false
      (fun i σ => (if laneBit p i w then laneOf a.data i w else laneOf b.data i w, σ)) 0
    later env false 1 (.v d (BitVec.ofNat 512 acc.data) (BitVec.ofNat 512 acc.mask) f.ty false)

/-- m = wrap(sext(imm, 64), w) (R206). -/
def immValue (f : AI) : Nat := wrapInt f.imm.toInt (laneWidth f.ty)

def elemVaddi (f : AI) (env : ElemEnv) : EM Unit :=
  immLanes env f 1 true fun a σ => ((a + immValue f) % 2 ^ laneWidth f.ty, σ)
def elemVmuli (f : AI) (env : ElemEnv) : EM Unit :=
  immLanes env f 2 true fun a σ => ((a * immValue f) % 2 ^ laneWidth f.ty, σ)
def elemVandi (f : AI) (env : ElemEnv) : EM Unit := immLanes env f 1 true fun a σ => (a &&& immValue f, σ)
def elemVshli (f : AI) (env : ElemEnv) : EM Unit :=
  immLanes env f 1 true fun a σ => (a * 2 ^ f.imm.toNat % 2 ^ laneWidth f.ty, σ)
def elemVshri (f : AI) (env : ElemEnv) : EM Unit := immLanes env f 1 true fun a σ => (a / 2 ^ f.imm.toNat, σ)

/-- The FP32 value of an A-I immediate (R133). -/
def f30 (imm : BitVec 30) : FVal := (floatFormat fp32).read (imm.toNat * 4)

def elemVmovi (f : AI) (env : ElemEnv) : EM Unit :=
  immLanes env f 1 false fun _ σ =>
    (if isIntFormat f.ty then immValue f else convertTo f.ty ⟨0, 0, capturedOvf env.mode⟩ (f30 f.imm), σ)

/-! ### Float lanes -/

def elemFadd (f : AV) (env : ElemEnv) : EM Unit :=
  floatLanes env f 4 false fun code a b _ => FVal.sum code [readFormat f.ty a, readFormat f.ty b]
def elemFsub (f : AV) (env : ElemEnv) : EM Unit :=
  floatLanes env f 4 false fun code a b _ => FVal.sum code [readFormat f.ty a, (readFormat f.ty b).neg]
def elemFmul (f : AV) (env : ElemEnv) : EM Unit :=
  floatLanes env f 4 false fun _ a b _ => (readFormat f.ty a).mul (readFormat f.ty b)
def elemFfma (f : AV) (env : ElemEnv) : EM Unit :=
  floatLanes env f 4 true fun code a b c =>
    FVal.sum code [(readFormat f.ty a).mul (readFormat f.ty b), readFormat f.ty c]

/-- FSCL: b is read as a signed integer of the lane's width (R209). -/
def elemFscl (f : AV) (env : ElemEnv) : EM Unit :=
  floatLanes env f 4 false fun _ a b _ => (readFormat f.ty a).scale (sint b (laneWidth f.ty))

/-- FMULI rounds by the captured DRM (R209). -/
def elemFmuli (f : AI) (env : ElemEnv) : EM Unit :=
  immLanes env f 4 true fun a σ =>
    let (r, σ) := nextRounding (env.mode.extractLsb' 4 3).toNat (capturedOvf env.mode) σ
    (convertTo f.ty r ((readFormat f.ty a).mul (f30 f.imm)), σ)

def elemFmin (f : AV) (env : ElemEnv) : EM Unit :=
  intLanes env f 1 true false fun a b _ => floatMinMax (floatFormat f.ty) false a b
def elemFmax (f : AV) (env : ElemEnv) : EM Unit :=
  intLanes env f 1 true false fun a b _ => floatMinMax (floatFormat f.ty) true a b

/-- The sign and magnitude of a lane, rewritten with another sign; a NaN gives the canonical NaN (R210). -/
def withSign (F : FloatFormat) (a : Nat) (sign : Bool → Bool) : Nat :=
  if (F.read a).isNan then F.canonicalNan
  else
    let x := a / 2 ^ F.low % 2 ^ (F.ebits + F.mbits + 1)
    F.pack (sign (2 ^ (F.ebits + F.mbits) ≤ x)) (x % 2 ^ (F.ebits + F.mbits))

def elemFabs (f : AV) (env : ElemEnv) : EM Unit :=
  intLanes env f 1 false false fun a _ _ => withSign (floatFormat f.ty) a fun _ => false
def elemFneg (f : AV) (env : ElemEnv) : EM Unit :=
  intLanes env f 1 false false fun a _ _ => withSign (floatFormat f.ty) a fun n => !n

def elemFcmp (f : AV) (env : ElemEnv) : EM Unit := elemCompare f env (floatCondition f.ty f.md.toNat)

def elemSpecial (k : Special) (f : AV) (env : ElemEnv) : EM Unit :=
  intLanes env f 8 false false fun a _ _ => specialLane k a

/-- FRNDI (R214). -/
def elemFrndi (f : AV) (env : ElemEnv) : EM Unit := do
  if guardAny env (laneWidth f.ty) then
    let a ← sourceV env f.rx f.va
    let w := laneWidth f.ty
    laneWise env f.rx f.vd f.kp (f.kz == 1) f.ty w 0 (512 / w) 2 false fun i σ =>
      let (r, σ) := nextRounding (roundingCode env.mode f.md) (capturedOvf env.mode) σ
      (roundIntegral f.ty r (laneOf a.data i w), σ)

/-- The part of an FCVT (R212): the values converted, the first destination lane, and the first source lane. -/
def fcvtPart (f : AV) : Nat × Nat × Nat :=
  let pt := (f.sub.extractLsb' 6 3).toNat
  let ws := laneWidth (f.sub.extractLsb' 9 4)
  let wd := laneWidth f.ty
  let m := 512 / Nat.max ws wd
  if wd ≤ ws then (m, pt * m, 0) else (m, 0, pt * m)

/-- FCVT between any two formats, by part (R212); its lanes are those the part addresses (R126). An integer source that goes to an integer
format saturates exactly. -/
def elemFcvt (f : AV) (env : ElemEnv) : EM Unit := do
  let sf := f.sub.extractLsb' 9 4
  let wd := laneWidth f.ty
  let (m, first, shift) := fcvtPart f
  if guardSome env wd first m then
    let a ← sourceV env f.rx f.va
    laneWise env f.rx f.vd f.kp (f.kz == 1) f.ty wd first m 2 false fun di σ =>
      let (r, σ) := nextRounding (roundingCode env.mode f.md) (capturedOvf env.mode) σ
      (convertTo f.ty r (readFormat sf (laneOf a.data (di - first + shift) (laneWidth sf))), σ)

/-! ### Cross-lane -/

/-- combine of R216 on the included lanes, with a rounding for a float sum. -/
def combineLanes (f : BitVec 4) (op : Nat) (sat : Bool) (r : Rounding) (xs : List Nat) : Nat :=
  match xs with
  | [] => 0
  | x :: rest =>
    match op with
    | 0 =>
      if isIntFormat f then narrow f sat (((x :: rest).map (intValue f)).foldl (· + ·) 0)
      else convertTo f r (FVal.sum r.mode ((x :: rest).map (readFormat f)))
    | 1 => rest.foldl (fun a b => if isIntFormat f then lanesVmin f a b else floatMinMax (floatFormat f) false a b) (canon x)
    | 2 => rest.foldl (fun a b => if isIntFormat f then lanesVmax f a b else floatMinMax (floatFormat f) true a b) (canon x)
    | 3 => rest.foldl (· &&& ·) x
    | 4 => rest.foldl (· ||| ·) x
    | _ => rest.foldl (· ^^^ ·) x
where
  /-- a single float lane as FMIN and FMAX of itself give it -/
  canon (x : Nat) : Nat := if isIntFormat f then x else floatMinMax (floatFormat f) false x x

/-- The included lanes with index at most `last`, in ascending order. -/
def includedLanes (v : Vec) (p : Word) (w last : Nat) : List Nat :=
  ((List.range (last + 1)).filter fun i => laneBit p i w).map fun i => laneOf v i w

def elemVred (f : AV) (env : ElemEnv) : EM Unit := do
  if guardZero env then
    let op := (f.sub.extractLsb' 10 3).toNat
    let w := laneWidth f.ty
    let a ← sourceV env f.rx f.va
    let p ← readK env f.kp.toNat
    let d ← rename env f.rx true f.vd
    let code := if op = 0 && !isIntFormat f.ty then roundingCode env.mode f.md else 0
    let (r, σ) := nextRounding code (capturedOvf env.mode) (← get).sigma
    modify fun e => { e with sigma := σ }
    let y := combineLanes f.ty op (f.md == 1) r (includedLanes a.data p w (512 / w - 1))
    later env false 4 (.v d (BitVec.ofNat 512 (y % 2 ^ w)) (-1) f.ty false)

def elemVscan (f : AV) (env : ElemEnv) : EM Unit := do
  if guardZero env then
    let op := (f.sub.extractLsb' 10 3).toNat
    let w := laneWidth f.ty
    let a ← sourceV env f.rx f.va
    let p ← readK env f.kp.toNat
    let d ← rename env f.rx true f.vd
    let code := if op = 0 && !isIntFormat f.ty then roundingCode env.mode f.md else 0
    let acc := runLanes w 0 (512 / w) (fun _ => true) false
      (fun i σ =>
        let (r, σ) := nextRounding code (capturedOvf env.mode) σ
        (combineLanes f.ty op (f.md == 1) r (includedLanes a.data p w i), σ)) (← get).sigma
    modify fun e => { e with sigma := acc.sigma }
    later env false 4 (.v d (BitVec.ofNat 512 acc.data) (-1) f.ty false)

/-- A permutation (R217 to R219): lanes move unconverted, and S is that of va. Bits that R100 has zero in a lane of FP6 or E8M10 move as they stand
(log 87, DESIGN CHOICE). -/
def permuteLanes (env : ElemEnv) (f : AV) (latency : Nat) (usesVb usesVc : Bool) (op : Vec → Vec → Vec → Nat → Nat) : EM Unit := do
  if guardAny env (laneWidth f.ty) then
    let a ← sourceV env f.rx f.va
    let b ← if usesVb then sourceV env f.rx f.vb else pure VSource.none
    let c ← if usesVc then sourceV env f.rx f.vc else pure VSource.none
    let w := laneWidth f.ty
    laneWise env f.rx f.vd f.kp (f.kz == 1) f.ty w 0 (512 / w) latency a.scaled fun i σ => (op a.data b.data c.data i, σ)

/-- j = sub[12:6] (R215). -/
def laneIndex (f : AV) : Nat := (f.sub.extractLsb' 6 7).toNat

def elemVshuf (f : AV) (env : ElemEnv) : EM Unit :=
  let w := laneWidth f.ty
  let n := 512 / w
  permuteLanes env f 2 true true fun a b c i =>
    let x := laneOf b i 8
    let t := x % 128 % (2 * n)
    if 128 ≤ x then 0 else if t < n then laneOf a t w else laneOf c (t - n) w

def elemVrot (f : AV) (env : ElemEnv) : EM Unit :=
  let w := laneWidth f.ty
  permuteLanes env f 1 false false fun a _ _ i => laneOf a ((i + laneIndex f) % (512 / w)) w

def elemVbcst (f : AV) (env : ElemEnv) : EM Unit :=
  permuteLanes env f 1 false false fun a _ _ _ => laneOf a (laneIndex f) (laneWidth f.ty)

def elemVins (f : AV) (env : ElemEnv) : EM Unit :=
  let w := laneWidth f.ty
  permuteLanes env f 1 true false fun a b _ i => if i = laneIndex f then laneOf b 0 w else laneOf a i w

def elemVext (f : AV) (env : ElemEnv) : EM Unit :=
  let w := laneWidth f.ty
  permuteLanes env f 1 true false fun a b _ i =>
    let t := i + laneIndex f
    if t < 512 / w then laneOf a t w else laneOf b (t - 512 / w) w

end Sys2Proof.Machine
end

