-- ==== Sys2Proof/Machine/MatrixOps.lean ====
section
/-!
DEFINITION. The matrix group in one element (R225 to R231): the operand reads and checks at E, the tile read at E + 3,
and the arithmetic of MMA, MMAS, the drains and requantisation (R112 to R118).
-/

namespace Sys2Proof.Machine

/-- Value (i, j) of a tile. -/
def tileAt (t : Tile) (i j : Nat) : Nat := t.toNat / 2 ^ (32 * (8 * i + j)) % 2 ^ 32

/-- A tile from its values. -/
def tileOf (f : Nat → Nat → Nat) : Tile :=
  BitVec.ofNat 2048 ((List.range 64).foldl (fun acc x => acc + f (x / 8) (x % 8) % 2 ^ 32 * 2 ^ (32 * x)) 0)

/-- The mask of the rows a test names. -/
def tileRows (test : Nat → Bool) : Tile := tileOf fun i _ => if test i then 2 ^ 32 - 1 else 0

/-- k of R112: 64 div the lane width. -/
def dotLength (fa : BitVec 4) : Nat := 64 / laneWidth fa

/-- Element i of A's row run or B's column run (R227): lane i·k + t. -/
def operandAt (v : Vec) (f : BitVec 4) (i t : Nat) : Nat := laneOf v (i * dotLength f + t) (laneWidth f)

/-- The exact products A[i][t] · B[t][j] as values; INT8 of MMAS stands for i × 2⁻⁶ (R114). -/
def productTerms (mx : Bool) (fa fb : BitVec 4) (va vb : Vec) (i j : Nat) (scale : Int) : List FVal :=
  (List.range (dotLength fa)).map fun t =>
    let a := mxValue mx fa (operandAt va fa i t)
    let b := mxValue mx fb (operandAt vb fb j t)
    match a.mul b with
    | .num n m e => .num n m (e + scale)
    | y => y
where
  mxValue (mx : Bool) (f : BitVec 4) (x : Nat) : FVal :=
    if mx && f == 12 then (match readFormat f x with | .num n m e => .num n m (e - 6) | y => y) else readFormat f x

/-- One element of a float MMA or an MMAS (R113): the exact sum with c, absent under ov = 1, rounded once with IEEE overflow. -/
def mmaElement (r : Rounding) (terms : List FVal) (scaleNan : Bool) (ov : Bool) (c : Nat) : Nat :=
  let F := floatFormat fp32
  if scaleNan then F.canonicalNan
  else F.convert { r with ovf := true } (FVal.sum r.mode (if ov then terms else F.read c :: terms))

/-- One element of an integer MMA (R115). -/
def mmaInteger (fa fb : BitVec 4) (va vb : Vec) (i j : Nat) (sat ov : Bool) (c : Nat) : Nat :=
  let p := (List.range (dotLength fa)).foldl (fun acc t =>
    acc + intValue fa (operandAt va fa i t) * intValue fb (operandAt vb fb j t)) (0 : Int)
  let x := p + (if ov then 0 else sint c 32)
  wrapInt (if sat then clampInt x (-(2 ^ 31)) (2 ^ 31 - 1) else x) 32

/-- E8M0 byte of a scale vector (R102, R228). -/
def scaleByte (vc : Vec) (q i : Nat) : Nat := laneOf vc (8 * q + i) 8

/-- The rounding of the x-th value an instruction rounds, from σ before its first (R107). -/
def nthRounding (code : Nat) (ovf : Bool) (σ : SWord) (x : Nat) : Rounding :=
  if code = 4 then ⟨4, (stepSigmas (x + 1) σ).toNat, ovf⟩ else ⟨code, 0, ovf⟩

/-- The destination tile of an MMA or MMAS (R113, R115, R228). -/
def mmaTile (f : AM) (mx : Bool) (op : MatrixOp) (c : Tile) : Tile :=
  let ov := f.ov == 1
  if !mx && isIntFormat f.fa then
    tileOf fun i j => mmaInteger f.fa f.fb op.va op.vb i j (f.rm == 1) ov (tileAt c i j)
  else
    let code := roundingCode op.mode f.rm
    tileOf fun i j =>
      let ea := scaleByte op.vc (f.sub.extractLsb' 0 3).toNat i
      let eb := scaleByte op.vc (f.sub.extractLsb' 3 3).toNat j
      let scale : Int := if mx then (ea : Int) + eb - 254 else 0
      mmaElement (nthRounding code true op.sigma (8 * i + j)) (productTerms mx f.fa f.fb op.va op.vb i j scale)
        (mx && (ea == 255 || eb == 255)) ov (tileAt c i j)

/-- Step 1 of R117: the tile value times the tensor scale, rounded to FP32 by RNE. -/
def drainValue (kindI : Bool) (scale : Option Nat) (x : Nat) : FVal :=
  let F := floatFormat fp32
  let a := if kindI then FVal.ofInt (sint x 32) else F.read x
  let t := match scale with | some y => F.read y | none => .num false 1 0
  F.read (F.convert Rounding.rne (a.mul t))

/-- A drained value in its destination format (R117): an integer tile to an integer format without a scale is converted directly. -/
def drainLane (fa : BitVec 4) (r : Rounding) (kindI : Bool) (scale : Option Nat) (x : Nat) : Nat :=
  if kindI && isIntFormat fa && scale.isNone then convertTo fa r (FVal.ofInt (sint x 32))
  else convertTo fa r (drainValue kindI scale x)

/-- Where the drained value (i, j) goes under MDRN's part p (R230): its lane, or none when it is not drained. -/
def drainPlace (w p i j : Nat) : Option Nat :=
  if w = 32 then (if i / 2 = p then some (8 * (i - 2 * p) + j) else none)
  else if w = 16 then (if i / 4 = p then some (8 * (i - 4 * p) + j) else none)
  else if w = 8 then some (8 * i + j)
  else some (64 * p + 8 * i + j)

/-- The number of values MDRN drains (R230). -/
def drainCount (w : Nat) : Nat := if w = 32 then 16 else if w = 16 then 32 else 64

/-- The tensor scale of a drain: FP32 lane j of vb with ts = 1 (R230). -/
def drainScale (f : AM) (vb : Vec) : Option Nat :=
  if f.sub.getLsbD 4 then some (laneOf vb (f.sub.extractLsb' 0 4).toNat 32) else none

/-- MDRN's vector and the mask of its lanes (R230). -/
def mdrnVector (f : AM) (op : MatrixOp) (t : Tile) (kindI : Bool) : Vec × Vec :=
  let w := laneWidth f.fa
  let p := (f.sub.extractLsb' 5 2).toNat
  let code := roundingCode op.mode f.rm
  let acc := (List.range 64).foldl (fun (acc : Nat × Nat × Nat) x =>
    match drainPlace w p (x / 8) (x % 8) with
    | none => acc
    | some lane =>
      let r := nthRounding code (capturedOvf op.mode) op.sigma acc.2.2
      let y := drainLane f.fa r kindI (drainScale f op.vb) (tileAt t (x / 8) (x % 8))
      (acc.1 + y % 2 ^ w * 2 ^ (w * lane), acc.2.1 + (2 ^ w - 1) * 2 ^ (w * lane), acc.2.2 + 1)) (0, 0, 0)
  (BitVec.ofNat 512 acc.1, BitVec.ofNat 512 acc.2.1)

/-- emax of an MX element format (R118). -/
def emax (fa : BitVec 4) : Int :=
  match fa.toNat with
  | 0 | 1 => 2
  | 2 | 5 => 4
  | 3 => 8
  | 4 => 15
  | _ => 0

/-- floor(log2 |x|) of a nonzero finite value. -/
def floorLog2 : FVal → Int
  | .num _ m e => e + Nat.log2 m
  | _ => 0

/-- The scale byte of a row of 32 values (R118); 0xFF when one of them is NaN or infinite. -/
def rowScale (fa : BitVec 4) (xs : List FVal) : Nat :=
  if xs.any fun x => x.isNan || x.isInf true || x.isInf false then 255
  else
    let nonzero := xs.filter fun x => match x with | .num _ m _ => m != 0 | _ => false
    let top : Option Int := nonzero.foldl (fun best x =>
      match best with
      | none => some (floorLog2 x)
      | some b => some (max b (floorLog2 x))) none
    match top with
    | none => 0
    | some l => (clampInt (l - emax fa + 127) 0 254).toNat

/-- An element of a requantised row: x · 2^(−X) converted with saturation (R118). -/
def rowElement (fa : BitVec 4) (r : Rounding) (scale : Nat) (x : FVal) : Nat :=
  if scale = 255 then (if isIntFormat fa then 0 else (floatFormat fa).canonicalNan)
  else
    let shift : Int := 127 - (scale : Int) + (if isIntFormat fa then 6 else 0)
    convertTo fa { r with ovf := false } (match x with | .num n m e => .num n m (e + shift) | y => y)

/-- Row ρ of the span a[ad] to a[ad + 3] after step 1 of R117, which MDRQ makes for every format (R118, R231; log 89, DEDUCED). -/
def spanRow (tiles : Nat → Tile × Bool) (scale : Option Nat) (row : Nat) : List FVal :=
  (List.range 32).map fun e =>
    let t := tiles (e / 8)
    drainValue t.2 scale (tileAt t.1 row (e % 8))

/-- What MDRQ writes: two element vectors, the scale vector, and the mask of its scale bytes (R231). -/
structure Requantised where
  lo : Vec
  hi : Vec
  scales : Vec
  scaleMask : Vec
  deriving DecidableEq, Repr

def mdrqVectors (f : AM) (op : MatrixOp) (tiles : Nat → Tile × Bool) : Requantised :=
  let w := laneWidth f.fa
  let p := if f.sub.getLsbD 5 then 1 else 0
  let g := (f.sub.extractLsb' 6 3).toNat
  let code := roundingCode op.mode f.rm
  let rows := if w = 8 then (List.range 4).map (· + 4 * p) else List.range 8
  let perVector := if w = 8 then 2 else 4
  let out := rows.foldl (fun (acc : Nat × Nat × Nat × Nat) row =>
    let k := row - rows.headD 0
    let xs := spanRow tiles (drainScale f op.vb) row
    let sc := rowScale f.fa xs
    let ys := (List.range 32).foldl (fun acc e =>
      let r := nthRounding code false op.sigma (32 * k + e)
      acc + rowElement f.fa r sc (xs.getD e .nan) % 2 ^ w * 2 ^ (w * e)) 0
    let at_ := ys * 2 ^ (32 * w * (k % perVector))
    let (lo, hi) := if k < perVector then (acc.1 + at_, acc.2.1) else (acc.1, acc.2.1 + at_)
    (lo, hi, acc.2.2.1 + sc * 2 ^ (8 * (8 * g + row)), acc.2.2.2 + 255 * 2 ^ (8 * (8 * g + row)))) (0, 0, 0, 0)
  ⟨BitVec.ofNat 512 out.1, BitVec.ofNat 512 out.2.1, BitVec.ofNat 512 out.2.2.1, BitVec.ofNat 512 out.2.2.2⟩

/-! ### At E -/

/-- The tile an element will hold at a later signature time, as far as the writes in its pipeline say (R372): pending results, and
matrix instructions whose tile lands one cycle after their read. The answer is its generation and kind. -/
def tileTagsAt (e : Element) (i time : Nat) : Gen × Bool :=
  let r := e.a.get AReg.zero i
  let landed := (dueAt time e.pending).foldl (fun (acc : Gen × Bool) p =>
    match p.write with
    | .a j _ _ kindI => if j = i then (p.gen, kindI) else acc
    | _ => acc) (r.gen, r.kindI)
  e.matrix.foldl (fun acc m =>
    if m.readAt < time then
      match m.instr with
      | .mma f => if f.ad.toNat = i then (m.gen, isIntFormat f.fa) else acc
      | .mmas f => if f.ad.toNat = i then (m.gen, false) else acc
      | _ => acc
    else acc) landed

/-- The generation check at E of a tile that is read at E + 3 (R372, R373); true when the tile will be current. A stale tile in mode Z counts
event 8 here, at E (R243; log 22, DEDUCED). -/
def checkTile (env : ElemEnv) (i : Nat) : EM Bool := do
  let e ← get
  let (gen, _) := tileTagsAt e i (env.time + 3)
  let r := e.a.get AReg.zero i
  readChecked env gen (r.poison && r.gen == env.gen && gen == env.gen) 1 0

/-- The tag check of a vector source (R226); AUX of R344. -/
def checkTag (v : VSource) (fmt : BitVec 4) (scaled : Bool) : EM Unit :=
  EM.check (v.blank || (v.fmt == fmt && v.scaled == scaled)) 0x11
    (v.fmt.toNat + (if v.scaled then 16 else 0) + fmt.toNat * 2 ^ 8 + (if scaled then 2 ^ 12 else 0)) 0

/-- The kind check of an accumulated tile (R226). -/
def checkKind (kindI wantI : Bool) : EM Unit :=
  EM.check (kindI == wantI) 0x11 (2 ^ 16) 0

/-- Start a matrix-unit instruction at E: its operands are held until the tile read, and σ steps as often as it will round. -/
def startMatrix (env : ElemEnv) (instr : Instr) (rounds : Nat) (code : Nat) (va vb vc : Vec) : EM Unit := do
  let σ := (← get).sigma
  modify fun e => { e with
    matrix := e.matrix ++ [⟨env.time + 3, env.n, env.gen, instr, va, vb, vc, σ, env.mode⟩]
    sigma := if code = 4 then stepSigmas rounds σ else σ }
  EM.count 3 1

/-- MMA at E (R226, R228). -/
def elemMma (f : AM) (env : ElemEnv) : EM Unit := do
  if guardZero env then
    let a ← sourceV env f.rx f.va
    let b ← sourceV env f.rx f.vb
    let wantI := isIntFormat f.fa
    let tags := tileTagsAt (← get) f.ad.toNat (env.time + 3)
    let current ← if f.ov == 1 then pure false else checkTile env f.ad.toNat
    checkTag a f.fa false
    checkTag b f.fb false
    if current then checkKind tags.2 wantI
    startMatrix env (.mma f) (if wantI then 0 else 64) (roundingCode env.mode f.rm) a.data b.data 0
    EM.count 4 (64 * dotLength f.fa)

/-- MMAS at E (R226, R228). -/
def elemMmas (f : AM) (env : ElemEnv) : EM Unit := do
  if guardZero env then
    let a ← sourceV env f.rx f.va
    let b ← sourceV env f.rx f.vb
    let c ← sourceV env f.rx f.vc
    let tags := tileTagsAt (← get) f.ad.toNat (env.time + 3)
    let current ← if f.ov == 1 then pure false else checkTile env f.ad.toNat
    checkTag a f.fa true
    checkTag b f.fb true
    checkTag c 13 true
    if current then checkKind tags.2 false
    startMatrix env (.mmas f) 64 (roundingCode env.mode f.rm) a.data b.data c.data
    EM.count 4 (64 * dotLength f.fa)

/-- MDRN at E (R226, R230). -/
def elemMdrn (f : AM) (env : ElemEnv) : EM Unit := do
  if guardZero env then
    let ts := f.sub.getLsbD 4
    let b ← if ts then sourceV env f.rx f.vb else pure VSource.none
    let _ ← checkTile env f.ad.toNat
    if ts then checkTag b 9 false
    startMatrix env (.mdrn f) (drainCount (laneWidth f.fa)) (roundingCode env.mode f.rm) 0 b.data 0

/-- MDRQ at E (R226, R231). -/
def elemMdrq (f : AM) (env : ElemEnv) : EM Unit := do
  if guardZero env then
    let ts := f.sub.getLsbD 4
    let b ← if ts then sourceV env f.rx f.vb else pure VSource.none
    for t in [0, 1, 2, 3] do
      let _ ← checkTile env (f.ad.toNat + t)
    if ts then checkTag b 9 false
    startMatrix env (.mdrq f) (if laneWidth f.fa = 8 then 128 else 256) (roundingCode env.mode f.rm) 0 b.data 0

/-- MZERO (R229). -/
def elemMzero (f : AM) (env : ElemEnv) : EM Unit := do
  if guardZero env then later env false 1 (.a f.ad.toNat 0 (-1) (isIntFormat f.fa))

/-- MLDR: two rows from a vector (R229). -/
def elemMldr (f : AM) (env : ElemEnv) : EM Unit := do
  if guardZero env then
    let a ← sourceV env f.rx f.va
    let q := (f.sub.extractLsb' 0 2).toNat
    let kindI := f.sub.getLsbD 2
    let lane (h j : Nat) : Nat :=
      let x := laneOf a.data (8 * h + j) 32
      if !kindI && ((floatFormat fp32).read x).isNan then (floatFormat fp32).canonicalNan else x
    let data := tileOf fun i j => if i = 2 * q then lane 0 j else if i = 2 * q + 1 then lane 1 j else 0
    later env false 1 (.a f.ad.toNat data (tileRows fun i => i = 2 * q || i = 2 * q + 1) kindI)

/-- MTRN (R229): read at E; a stale source in mode Z gives zeros of the captured DFMT's kind. -/
def elemMtrn (f : AM) (env : ElemEnv) : EM Unit := do
  if guardZero env then
    let r := (← get).a.get AReg.zero f.va.toNat
    if ← readChecked env r.gen r.poison 1 0 then
      later env false 1 (.a f.ad.toNat (tileOf fun i j => tileAt r.data j i) (-1) r.kindI)
    else later env false 1 (.a f.ad.toNat 0 (-1) (isIntFormat (capturedDfmt env.mode)))

/-! ### At E + 3 -/

/-- A tile as the unit reads it at E + 3: zero when it is stale under the generation of the word's E (R62, R372). -/
def tileRead (e : Element) (gen : Gen) (i : Nat) : Tile × Bool :=
  let r := e.a.get AReg.zero i
  if r.gen = gen then (r.data, r.kindI) else (0, false)

/-- The results of a matrix-unit instruction, read at E + 3 and landing at E + 4 (R225). -/
def MatrixOp.writes (op : MatrixOp) (e : Element) : List Write :=
  match op.instr with
  | .mma f => [.a f.ad.toNat (mmaTile f false op (tileRead e op.gen f.ad.toNat).1) (-1) (isIntFormat f.fa)]
  | .mmas f => [.a f.ad.toNat (mmaTile f true op (tileRead e op.gen f.ad.toNat).1) (-1) false]
  | .mdrn f =>
    let t := tileRead e op.gen f.ad.toNat
    let r := mdrnVector f op t.1 t.2
    [.v f.va.toNat r.1 r.2 f.fa false]
  | .mdrq f =>
    let r := mdrqVectors f op fun i => tileRead e op.gen (f.ad.toNat + i)
    [.v f.va.toNat r.lo (-1) f.fa true, .v (f.va.toNat + 1) r.hi (-1) f.fa true,
      .v f.vc.toNat r.scales r.scaleMask 13 true]
  | _ => []

/-- The tile reads due at a signature time become pending results of the next cycle. -/
def Element.readTiles (e : Element) (t : Nat) : Element :=
  let due := e.matrix.filter fun m => m.readAt ≤ t
  let made := due.flatMap fun m => (m.writes e).map fun w => (⟨m.readAt + 1, m.word, false, m.gen, w⟩ : Pending)
  { e with matrix := e.matrix.filter (fun m => t < m.readAt), pending := e.pending ++ made }

end Sys2Proof.Machine
end

