-- ==== Sys2Proof/Machine/ScalarOps.lean ====
section
/-!
DEFINITION. Element scalars (R220, R221), predicates (R222) and the VOTE contribution (R223), in one element. All are whole:
they act only when the guard enables byte lane 0 (R126).
-/

namespace Sys2Proof.Machine

/-- A scalar instruction with two register sources. -/
def scalarOp (env : ElemEnv) (f : AS) (latency : Nat) (usesSb : Bool) (op : SWord → SWord → SWord) : EM Unit := do
  if guardZero env then
    let a ← readS env f.sa.toNat
    let b ← if usesSb then readS env f.sb.toNat else pure 0
    later env false latency (.s f.sd.toNat (op a b))

def elemSadd (f : AS) (env : ElemEnv) : EM Unit := scalarOp env f 1 true fun a b => a + b
def elemSsub (f : AS) (env : ElemEnv) : EM Unit := scalarOp env f 1 true fun a b => a - b
def elemSmul (f : AS) (env : ElemEnv) : EM Unit := scalarOp env f 2 true fun a b => a * b
def elemSand (f : AS) (env : ElemEnv) : EM Unit := scalarOp env f 1 true fun a b => a &&& b
def elemSor (f : AS) (env : ElemEnv) : EM Unit := scalarOp env f 1 true fun a b => a ||| b
def elemSxor (f : AS) (env : ElemEnv) : EM Unit := scalarOp env f 1 true fun a b => a ^^^ b
def elemSshl (f : AS) (env : ElemEnv) : EM Unit := scalarOp env f 1 true fun a b => a <<< (b.toNat % 32)
def elemSshr (f : AS) (env : ElemEnv) : EM Unit :=
  scalarOp env f 1 true fun a b => if f.sub.getLsbD 0 then a.sshiftRight (b.toNat % 32) else a >>> (b.toNat % 32)
def elemSslt (f : AS) (env : ElemEnv) : EM Unit :=
  scalarOp env f 1 true fun a b =>
    if (if f.sub.getLsbD 0 then decide (a.toNat < b.toNat) else decide (a.toInt < b.toInt)) then 1 else 0
def elemSaddi (f : AS) (env : ElemEnv) : EM Unit := scalarOp env f 1 false fun a _ => a + f.imm

def elemSmovi (f : AS) (env : ElemEnv) : EM Unit := do
  if guardZero env then later env false 1 (.s f.sd.toNat f.imm)

/-- The coordinate ELID reads (R221). -/
def coordinate (env : ElemEnv) (sel : Nat) : Nat :=
  match sel with
  | 0 => env.row
  | 1 => env.col
  | 2 => env.row * env.width + env.col
  | 3 => env.role.toNat
  | 4 => env.row % 16
  | _ => env.col % 16

def elemElid (f : AS) (env : ElemEnv) : EM Unit := do
  if guardZero env then later env false 1 (.s f.sd.toNat (BitVec.ofNat 32 (coordinate env f.sub.toNat)))

/-- A predicate instruction with two predicate sources. -/
def predicateOp (env : ElemEnv) (f : AK) (usesKb : Bool) (op : Word → Word → Word) : EM Unit := do
  if guardZero env then
    let a ← readK env f.ka.toNat
    let b ← if usesKb then readK env f.kb.toNat else pure 0
    later env false 1 (.k f.kd.toNat (op a b) (-1))

def elemKand (f : AK) (env : ElemEnv) : EM Unit := predicateOp env f true fun a b => a &&& b
def elemKor (f : AK) (env : ElemEnv) : EM Unit := predicateOp env f true fun a b => a ||| b
def elemKxor (f : AK) (env : ElemEnv) : EM Unit := predicateOp env f true fun a b => a ^^^ b
def elemKnot (f : AK) (env : ElemEnv) : EM Unit := predicateOp env f false fun a _ => ~~~a

/-- One predicate bit per byte, by a test of the byte number. -/
def bitsWhere (test : Nat → Bool) : Word :=
  (List.range 64).foldl (fun acc i => if test i then acc ||| ((1 : Word) <<< i) else acc) 0

def elemKmov (f : AK) (env : ElemEnv) : EM Unit := do
  if guardZero env then
    let x ← match (f.sub.extractLsb' 0 2).toNat with
      | 0 => readK env f.ka.toNat
      | 1 => do
        let v ← readV env f.va.toNat
        pure (bitsWhere fun i => laneOf v.data i 8 != 0)
      | 2 => do
        let s ← readS env f.sa.toNat
        pure (s.setWidth 64)
      | _ => do
        let s ← readS env f.sa.toNat
        pure (bitsWhere fun i => i < s.toNat)
    later env false 1 (.k f.kd.toNat x (-1))

def elemKpopc (f : AK) (env : ElemEnv) : EM Unit := do
  if guardZero env then
    let a ← readK env f.ka.toNat
    later env false 1 (.s f.sa.toNat (BitVec.ofNat 32 (onesBelow 64 a.toNat)))

/-- What an element contributes to a VOTE: its K[ka], if it takes part (R223). -/
def elemVote (f : AK) (env : ElemEnv) : EM (Option Word) := do
  if guardZero env then
    let a ← readK env f.ka.toNat
    pure (some a)
  else pure none

end Sys2Proof.Machine
end

