-- ==== Sys2Proof/Machine/PadOps.lean ====
section
/-!
DEFINITION. Slot B in one element: scratchpad access and its atomics (R234 to R238, R97), buffers (R59, R60, R239, R370), moves and
rings (R240, R241), the route instruction (R232, R233), egress hand-over (R242) and counters (R243).
-/

namespace Sys2Proof.Machine

/-! ### Atomic operations (R97) -/

/-- FP32 or BF16 addition as FADD and BADD make it: RNE with IEEE overflow. -/
def atomicFloatAdd (f : BitVec 4) (a b : Nat) : Nat :=
  convertTo f Rounding.rne (FVal.sum 0 [readFormat f a, readFormat f b])

/-- The new value at the location, for a width of 32 or 64 bits (R97). -/
def atomicResult (aop w old x cmp : Nat) : Nat :=
  match aop with
  | 0 => (old + x) % 2 ^ w
  | 1 => old &&& x
  | 2 => old ||| x
  | 3 => old ^^^ x
  | 4 => if sint old w ≤ sint x w then old else x
  | 5 => if sint old w ≤ sint x w then x else old
  | 6 => Nat.min old x
  | 7 => Nat.max old x
  | 8 => x
  | 9 => if old = cmp then x else old
  | 10 => atomicFloatAdd fp32 old x
  | _ => atomicFloatAdd bf16 (old % 2 ^ 16) (x % 2 ^ 16) + atomicFloatAdd bf16 (old / 2 ^ 16) (x / 2 ^ 16) * 2 ^ 16

/-! ### Bytes and granules -/

/-- The scratchpad's size in bytes (R57). -/
def padBytes : Nat := 0x18000

/-- base + off of a B-L slot: off alone under NB, else with S[sb] (R234). -/
def padAddress (env : ElemEnv) (f : BL) : EM Nat := do
  if f.sub.getLsbD 0 then pure f.off.toNat
  else
    let b ← readS env f.sb.toNat
    pure (b.toNat + f.off.toNat)

/-- Read `len` bytes at a, at most 64, as a number; each granule is checked on its own (R62, R235). -/
def readPad (env : ElemEnv) (a len : Nat) : EM Nat := do
  let g := a / 64
  let lo ← readGranule env g a
  if a % 64 + len ≤ 64 then pure (lo.toNat / 2 ^ (8 * (a % 64)) % 2 ^ (8 * len))
  else
    let hi ← readGranule env (g + 1) (64 * (g + 1))
    pure ((lo.toNat + hi.toNat * 2 ^ 512) / 2 ^ (8 * (a % 64)) % 2 ^ (8 * len))

/-- Write the masked bits of a value of `len` bytes at a; a granule none of whose bits is written is not touched. -/
def writePad (env : ElemEnv) (a len data mask : Nat) : EM Unit := do
  let g := a / 64
  let d := data * 2 ^ (8 * (a % 64))
  let m := mask * 2 ^ (8 * (a % 64))
  if m % 2 ^ 512 ≠ 0 then writeGranule env g (BitVec.ofNat 512 d) (BitVec.ofNat 512 m)
  if 64 < a % 64 + len ∧ m / 2 ^ 512 ≠ 0 then
    writeGranule env (g + 1) (BitVec.ofNat 512 (d / 2 ^ 512)) (BitVec.ofNat 512 (m / 2 ^ 512))

/-- The lane width a vector access selects (R234). -/
def padLaneWidth (sz : BitVec 3) : Nat := if sz = 0 then 8 else if sz = 1 then 16 else 32

/-- Bits of the active lanes of width w. -/
def activeMask (w : Nat) (active : Nat → Bool) : Vec := lanesOf w fun i => if active i then 2 ^ w - 1 else 0

/-- Read the active lanes' bytes at a: a granule that holds no active byte is not read. -/
def loadLanes (env : ElemEnv) (a : Nat) (mask : Vec) : EM Vec := do
  let m := mask.toNat * 2 ^ (8 * (a % 64))
  let g := a / 64
  let lo ← if m % 2 ^ 512 = 0 then pure 0 else readGranule env g a
  let hi ← if m / 2 ^ 512 = 0 then pure 0 else readGranule env (g + 1) (64 * (g + 1))
  pure (BitVec.ofNat 512 ((lo.toNat + hi.toNat * 2 ^ 512) / 2 ^ (8 * (a % 64))))

/-- The address checks of a vector access: alignment for LD and ST, then the range (R234, R235, R356). -/
def vectorAddress (a : Nat) (aligned : Bool) : EM Unit := do
  if aligned then EM.check (a % 64 == 0) 0x07 64 a
  EM.check (a + 64 ≤ padBytes) 0x16 0 a

/-- Granules that hold a byte of a mask laid at address a. -/
def granulesTouched (a : Nat) (mask : Vec) : Nat :=
  let m := mask.toNat * 2 ^ (8 * (a % 64))
  (if m % 2 ^ 512 = 0 then 0 else 1) + (if m / 2 ^ 512 = 0 then 0 else 1)

/-- The bits of the active lanes of a vector access, its kp read under R62 (R126, R235). -/
def padMask (env : ElemEnv) (f : BL) : EM Vec := do
  let w := padLaneWidth f.sz
  let p ← readK env f.kp.toNat
  pure (activeMask w fun i => laneBit env.lanes i w && laneBit p i w)

/-- The lanes of LD, LDX and LDB (R235, R237): the vector lands after 2 cycles with a format tag. -/
def loadVector (env : ElemEnv) (f : BL) (mask : Vec) (d a : Nat) (fmt : BitVec 4) (scaled : Bool) : EM Unit := do
  let data ← loadLanes env a mask
  EM.count 5 (granulesTouched a mask)
  later env true 2 (.v d (data &&& mask) (if f.mode.getLsbD 0 then -1 else mask) fmt scaled)

/-- The lanes of ST, STX and STB (R235, R237). -/
def storeVector (env : ElemEnv) (mask data : Vec) (a : Nat) : EM Unit := do
  EM.count 5 (granulesTouched a mask)
  writePad env a 64 (data &&& mask).toNat mask.toNat

def elemLoad (aligned : Bool) (f : BL) (env : ElemEnv) : EM Unit := do
  if guardAny env (padLaneWidth f.sz) then
    let a ← padAddress env f
    vectorAddress a aligned
    let mask ← padMask env f
    let d ← rename env f.rx true f.vr
    loadVector env f mask d a (capturedDfmt env.mode) false

def elemStore (aligned : Bool) (f : BL) (env : ElemEnv) : EM Unit := do
  if guardAny env (padLaneWidth f.sz) then
    let a ← padAddress env f
    vectorAddress a aligned
    let mask ← padMask env f
    let v ← sourceV env f.rx f.vr
    storeVector env mask v.data a

/-- The checks of a scalar access: alignment, then the range (R236, R356). -/
def scalarAddress (a size : Nat) : EM Unit := do
  EM.check (a % size == 0) 0x07 size a
  EM.check (a + size ≤ padBytes) 0x16 0 a

def elemLds (f : BL) (env : ElemEnv) : EM Unit := do
  if guardZero env then
    let a ← padAddress env f
    let size := 2 ^ f.sz.toNat
    scalarAddress a size
    let x ← readPad env a size
    EM.count 5 1
    later env true 2 (.s f.vr.toNat
      (if f.mode.getLsbD 0 then BitVec.ofInt 32 (sint x (8 * size)) else BitVec.ofNat 32 x))

def elemSts (f : BL) (env : ElemEnv) : EM Unit := do
  if guardZero env then
    let a ← padAddress env f
    let size := 2 ^ f.sz.toNat
    scalarAddress a size
    let x ← readS env f.vr.toNat
    EM.count 5 1
    writePad env a size (x.toNat % 2 ^ (8 * size)) (2 ^ (8 * size) - 1)

/-- SATOM (R238): one read and one write of the granule at E; the old value lands at E + 2. -/
def elemSatom (f : BL) (env : ElemEnv) : EM Unit := do
  if guardZero env then
    let a ← padAddress env f
    let wide := f.sz == 3
    let size := if wide then 8 else 4
    scalarAddress a size
    let v := f.vr.toNat
    let aop := (f.sub.extractLsb' 2 4).toNat
    let x0 ← readS env v
    let x1 ← if wide then readS env (v + 1) else pure 0
    let c0 ← if aop = 9 then readS env (if wide then v + 2 else v + 1) else pure 0
    let c1 ← if aop = 9 && wide then readS env (v + 3) else pure 0
    let old ← readPad env a size
    let new := atomicResult aop (8 * size) old (x0.toNat + x1.toNat * 2 ^ 32) (c0.toNat + c1.toNat * 2 ^ 32)
    EM.count 5 1
    writePad env a size new (2 ^ (8 * size) - 1)
    later env true 2 (.s v (BitVec.ofNat 32 old))
    if wide then later env true 2 (.s (v + 1) (BitVec.ofNat 32 (old / 2 ^ 32)))

/-! ### Buffer descriptors (R59, R60) -/

/-- The fields of a buffer descriptor (R59). -/
structure BufferDesc where
  base : Nat
  cnt : Nat
  fcnt : Nat
  fmt : BitVec 4
  scaled : Bool
  /-- EMPTY 0, FILLING 1, FULL 2, DRAINING 3 -/
  st : Nat
  void : Bool
  deriving DecidableEq, Repr

def BufferDesc.ofWord (d : Word) : BufferDesc :=
  { base := (d.extractLsb' 0 11).toNat, cnt := (d.extractLsb' 11 11).toNat, fcnt := (d.extractLsb' 22 11).toNat
    fmt := d.extractLsb' 33 4, scaled := d.getLsbD 37, st := (d.extractLsb' 38 2).toNat, void := d.getLsbD 40 }

def BufferDesc.toWord (d : BufferDesc) : Word :=
  BitVec.ofNat 64 (d.base % 2 ^ 11 + d.cnt % 2 ^ 11 * 2 ^ 11 + d.fcnt % 2 ^ 11 * 2 ^ 22 + d.fmt.toNat * 2 ^ 33
    + (if d.scaled then 2 ^ 37 else 0) + d.st % 4 * 2 ^ 38 + (if d.void then 2 ^ 40 else 0))

/-- Write a descriptor under the current generation. -/
def Element.setBuffer (e : Element) (gen : Gen) (i : Nat) (d : BufferDesc) : Element :=
  { e with b := e.b.set (Tagged.zero 64) i ⟨d.toWord, gen, false⟩ }

/-- The port changes a descriptor: a mark of poison stays until the whole descriptor is written (R369). -/
def Element.updateBuffer (e : Element) (gen : Gen) (i : Nat) (d : BufferDesc) : Element :=
  { e with b := e.b.set (Tagged.zero 64) i ⟨d.toWord, gen, (e.b.get (Tagged.zero 64) i).poison⟩ }

def setBuffer (env : ElemEnv) (i : Nat) (d : BufferDesc) : EM Unit := modify fun e => e.setBuffer env.gen i d

/-- The descriptor of a buffer that must be declared (R239). -/
def declaredBuffer (i : Nat) (desc : Word) : EM BufferDesc := do
  let d := BufferDesc.ofWord desc
  EM.check (d.cnt != 0) 0x14 i 0
  pure d

/-- The descriptor of a declared buffer, read for an access (R239). -/
def readBuffer (env : ElemEnv) (i : Nat) : EM BufferDesc := do
  declaredBuffer i (← readB env i)

/-- The void-buffer and buffer-state checks, in the order of R356. -/
def checkBufferState (d : BufferDesc) (voidFaults : Bool) (ok : Bool) : EM Unit := do
  EM.check (!(voidFaults && d.void)) 0x13 d.toWord.toNat 0
  EM.check ok 0x12 d.toWord.toNat 0

/-- The byte address of granule g of a buffer, checked (R237). -/
def bufferGranule (d : BufferDesc) (g : Nat) : EM Nat := do
  EM.check (g < d.cnt) 0x15 d.toWord.toNat 0
  pure (64 * (d.base + g))

/-- LDB (R237): stale reads come before the buffer's own faults (R356). -/
def elemLdb (f : BL) (env : ElemEnv) : EM Unit := do
  if guardAny env (padLaneWidth f.sz) then
    let g ← padAddress env f
    let desc ← readB env f.bf.toNat
    let mask ← padMask env f
    let r ← rename env f.rx true f.vr
    let d ← declaredBuffer f.bf.toNat desc
    let a ← bufferGranule d g
    checkBufferState d true (d.st == 2)
    loadVector env f mask r a d.fmt d.scaled

/-- STB (R237). -/
def elemStb (f : BL) (env : ElemEnv) : EM Unit := do
  if guardAny env (padLaneWidth f.sz) then
    let g ← padAddress env f
    let desc ← readB env f.bf.toNat
    let mask ← padMask env f
    let v ← sourceV env f.rx f.vr
    let d ← declaredBuffer f.bf.toNat desc
    let a ← bufferGranule d g
    checkBufferState d true (d.st == 0)
    storeVector env mask v.data a

/-- BDECL (R59, R239): a stale descriptor counts as EMPTY. -/
def elemBdecl (f : BD) (env : ElemEnv) : EM Unit := do
  if guardZero env then
    let r := (← get).b.get (Tagged.zero 64) f.b.toNat
    let d := if r.gen = env.gen then BufferDesc.ofWord r.data else BufferDesc.ofWord 0
    checkBufferState d false (d.st == 0 || d.st == 2)
    setBuffer env f.b.toNat
      { base := (f.n.extractLsb' 0 11).toNat, cnt := (f.sub.extractLsb' 0 11).toNat, fcnt := 0, fmt := 0, scaled := false
        st := 0, void := false }

/-- BSTATE full (R60, R239). -/
def elemBstateFull (f : BD) (env : ElemEnv) : EM Unit := do
  if guardZero env then
    let d ← readBuffer env f.b.toNat
    checkBufferState d true (d.st == 0 || d.st == 2)
    if d.st = 0 then
      setBuffer env f.b.toNat { d with st := 2, fcnt := d.cnt, fmt := capturedDfmt env.mode, scaled := false }

/-- BSTATE empty (R60, R239). -/
def elemBstateEmpty (f : BD) (env : ElemEnv) : EM Unit := do
  if guardZero env then
    let d ← readBuffer env f.b.toNat
    checkBufferState d false (d.st == 0 || d.st == 2)
    if d.st = 2 then setBuffer env f.b.toNat { d with st := 0, fcnt := 0, void := false }

/-- BQRY: zero for a stale descriptor, in either stale-read mode (R239); in mode Z that counts as a stale read answered with zero (R243). A
current descriptor that is poisoned raises class 1, as at every read (R369). -/
def elemBqry (f : BD) (env : ElemEnv) : EM Unit := do
  if guardZero env then
    let r := (← get).b.get (Tagged.zero 64) f.b.toNat
    EM.check (!(r.gen == env.gen && r.poison)) 0x18 1 0
    if r.gen ≠ env.gen && !env.trap then EM.count 8 1
    let d : Word := if r.gen = env.gen then r.data else 0
    later env true 1 (.s f.sb.toNat (d.extractLsb' 0 32))
    later env true 1 (.s (f.sb.toNat + 1) (d.extractLsb' 32 32))

/-- The wait condition of a slot B instruction under H = 1 (R23); false on a stale or undeclared buffer (R60, R239). -/
def waitCondition (gen : Gen) (e : Element) (i : Instr) : Bool :=
  let unless_ (b : BitVec 3) (st : Nat) : Bool :=
    let r := e.b.get (Tagged.zero 64) b.toNat
    let d := BufferDesc.ofWord r.data
    r.gen == gen && d.cnt != 0 && d.st != st
  match i with
  | .ldb f => unless_ f.bf 2
  | .stb f => unless_ f.bf 0
  | .egrBuffer f => unless_ f.b 2
  | _ => false

/-! ### Moves and rings (R240, R241) -/

def elemVmov (f : BD) (env : ElemEnv) : EM Unit := do
  if guardZero env then
    let v ← readV env (f.n.extractLsb' 0 5).toNat
    later env true 1 (.v f.vr.toNat v.data (-1) (if v.blank then capturedDfmt env.mode else v.fmt) (!v.blank && v.scaled))

def elemSmov (f : BD) (env : ElemEnv) : EM Unit := do
  if guardZero env then
    let j := (f.n.extractLsb' 0 4).toNat
    let x ← match (f.sub.extractLsb' 0 2).toNat with
      | 0 => do
        let v ← readV env f.vr.toNat
        pure (BitVec.ofNat 32 (laneOf v.data j 32))
      | 1 => pure (env.bcast.extractLsb' 0 32)
      | 2 => pure (env.bcast.extractLsb' 32 32)
      | _ => readS env j
    later env true 1 (.s f.sb.toNat x)

/-- VFROMS (R240): the low w bits of the scalar; bits that R100 has zero in a lane of FP6 or E8M10 are written as they stand (log 87, DESIGN
CHOICE). -/
def elemVfroms (f : BD) (env : ElemEnv) : EM Unit := do
  if guardZero env then
    let ty := f.sub.extractLsb' 0 4
    let w := laneWidth ty
    let u := (← readS env f.sb.toNat).toNat % 2 ^ w
    let j := (f.n.extractLsb' 0 7).toNat
    if f.sub.getLsbD 4 then
      later env true 1 (.v f.vr.toNat (lanesOf w fun i => if i = j then u else 0)
        (lanesOf w fun i => if i = j then 2 ^ w - 1 else 0) ty false)
    else later env true 1 (.v f.vr.toNat (lanesOf w fun _ => u) (-1) ty false)

/-- RINGSET: in force from the next word, after this word's own advance (R241). -/
def elemRingset (f : BD) (env : ElemEnv) : EM Unit := do
  if guardZero env then
    later env true 1 (.ring f.st.toNat (BitVec.ofNat 16 (f.n.extractLsb' 0 10).toNat))

/-! ### The route instruction (R20, R232, R233) -/

/-- Whether a hop from the element in a direction leaves the signature (R20). -/
def atEdge (env : ElemEnv) : Dir → Bool
  | .east => env.col + 1 == env.width
  | .west => env.col == 0
  | .south => env.row + 1 == env.height
  | .north => env.row == 0

/-- Whether a hop crosses a die boundary (R19): die rows are 64 elements high, die columns 128 wide. -/
def crossesDie (env : ElemEnv) : Dir → Bool
  | .east => (env.devCol + 1) % 128 == 0
  | .west => env.devCol % 128 == 0
  | .south => (env.devRow + 1) % 64 == 0
  | .north => env.devRow % 64 == 0

/-- The word of the receiver that reads a value sent in word n with delay d (R20). -/
def receivingWord (env : ElemEnv) (dir : Dir) (d : Nat) : Nat :=
  match dir with
  | .east | .south => env.n + d
  | .west | .north => env.n + d + (if crossesDie env dir then 14 else 2)

/-- The signature time at which the value lands in the receiver's port view: one cycle for the hop, its delay, and the crossing. -/
def landingTime (env : ElemEnv) (dir : Dir) (d : Nat) : Nat :=
  env.time + 1 + d + (if crossesDie env dir then 6 else 0)

/-- The value an output sends, by its source code (R232). -/
def routeSource (env : ElemEnv) (e : Element) (code : Nat) (lv lw : VSource) : PortValue :=
  let of (v : VSource) : PortValue := ⟨v.data, v.fmt, v.scaled, v.blank⟩
  match code with
  | 1 => of (portView env e 28)
  | 2 => of (portView env e 29)
  | 3 => of (portView env e 30)
  | 4 => of (portView env e 31)
  | 5 => of lv
  | 6 => of lw
  | _ => ⟨lanesOf 32 fun i => (if i % 2 = 0 then env.bcast.extractLsb' 0 32 else env.bcast.extractLsb' 32 32).toNat,
          capturedDfmt env.mode, false, false⟩

/-- One output of RT: nothing for code 0; a value across the outer edge is discarded. -/
def routeOutput (env : ElemEnv) (e : Element) (lv lw : VSource) (dir : Dir) (o : BitVec 8) : List Routed :=
  let code := (o.extractLsb' 4 4).toNat
  let d := (o.extractLsb' 0 4).toNat
  if code = 0 ∨ atEdge env dir then []
  else [⟨dir, landingTime env dir d, env.n, receivingWord env dir d, routeSource env e code lv lw⟩]

def elemRt (f : BT) (env : ElemEnv) : EM Unit := do
  if guardZero env then
    let uses (code : Nat) := f.outs.any fun o => (o.extractLsb' 4 4).toNat = code
    let lv ← if uses 5 then readV env f.lv.toNat else pure VSource.none
    let lw ← if uses 6 then readV env f.lw.toNat else pure VSource.none
    let e ← get
    let sent := routeOutput env e lv lw .east f.e ++ routeOutput env e lv lw .south f.s
      ++ routeOutput env e lv lw .west f.w ++ routeOutput env e lv lw .north f.n
    modify fun e => { e with delay := e.delay ++ sent }
    EM.count 9 (f.outs.filter fun o => o.extractLsb' 4 4 != 0).length

/-! ### Egress hand-over (R242) -/

/-- EGR's egress checks: AUX bits 7:4 give the reason, 0 for none; `state` answers for a number of granules handed over. -/
def checkEgress (handle reason : Nat) : EM Unit := EM.check (reason == 0) 0x17 (handle + 16 * reason) 0

/-- The vector form; of a full queue and a surplus granule the full queue is reported (R242; log 23, DEDUCED). -/
def elemEgrVector (f : BD) (reason : Nat → Nat) (env : ElemEnv) : EM Unit := do
  if guardZero env then
    let h := (f.n.extractLsb' 0 4).toNat
    let v ← readV env f.vr.toNat
    let full := 16 ≤ (← get).egress.length
    let why := reason 1
    checkEgress h (if why = 1 ∨ why = 2 ∨ why = 3 then why else if full then 4 else why)
    modify fun e => { e with egress := e.egress ++ [⟨h, .vector v.data⟩] }

/-- The buffer form: FULL becomes DRAINING (R60); the granules that are queued are those of BASE and CNT as they stand at E. Of a full queue and a
surplus granule the full queue is reported (R242; log 23, DEDUCED). -/
def elemEgrBuffer (f : BD) (reason : Nat → Nat) (env : ElemEnv) : EM Unit := do
  if guardZero env then
    let h := (f.n.extractLsb' 0 4).toNat
    let d ← readBuffer env f.b.toNat
    checkBufferState d true (d.st == 2)
    let full := 16 ≤ (← get).egress.length
    let why := reason d.cnt
    checkEgress h (if why = 1 ∨ why = 2 ∨ why = 3 then why else if full then 4 else why)
    setBuffer env f.b.toNat { d with st := 3 }
    modify fun e => { e with egress := e.egress ++ [⟨h, .buffer ⟨f.b.toNat, d.base, d.cnt, env.gen, 0⟩⟩] }

/-! ### Counters (R243) -/

/-- The counter index in b[1:0]. -/
def counterIndex (f : BD) : Nat := (f.b.extractLsb' 0 2).toNat

/-- CNT sel (R243); the events of its own word count for the selection it makes (log 88, DESIGN CHOICE). -/
def elemCntSel (f : BD) (env : ElemEnv) : EM Unit := do
  if guardZero env then
    modify fun e => { e with counters := e.counters.set Counter.zero (counterIndex f) ⟨0, f.n.extractLsb' 0 4⟩ }

/-- A read of a counter's bits from `first` up. -/
def counterRead (f : BD) (env : ElemEnv) (first : Nat) : EM Unit := do
  if guardZero env then
    let c := (← get).counters.get Counter.zero (counterIndex f)
    later env true 1 (.s f.sb.toNat (c.value.extractLsb' first 32))

def elemCntRdlo (f : BD) (env : ElemEnv) : EM Unit := counterRead f env 0
def elemCntRdhi (f : BD) (env : ElemEnv) : EM Unit := counterRead f env 32

/-- CNT clr (R243); the events of its own word count after it (log 88, DESIGN CHOICE). -/
def elemCntClr (f : BD) (env : ElemEnv) : EM Unit := do
  if guardZero env then
    modify fun e =>
      let c := e.counters.get Counter.zero (counterIndex f)
      { e with counters := e.counters.set Counter.zero (counterIndex f) { c with value := 0 } }

def elemCntHlo (f : BD) (env : ElemEnv) : EM Unit := do
  if guardZero env then later env true 1 (.s f.sb.toNat (env.holdCount.extractLsb' 0 32))

def elemCntHhi (f : BD) (env : ElemEnv) : EM Unit := do
  if guardZero env then later env true 1 (.s f.sb.toNat (env.holdCount.extractLsb' 32 32))

end Sys2Proof.Machine
end

