-- ==== Sys2Proof/Machine/Crypto.lean ====
section
/-!
DEFINITION. The ciphers and hashes the spec names: AES-256 in XTS and GCM modes (R88, R313), SHA-384 with HMAC and HKDF
(R308, R311, R312, R332), and ECDSA P-384 verification (R332). The spec cites their standards and does not restate them (log 10, PRESUMED).
-/

namespace Sys2Proof.Machine

/-! ### AES-256 (FIPS 197) -/

/-- Multiplication in GF(2⁸) modulo x⁸ + x⁴ + x³ + x + 1, over the low k bits of b. -/
def gfMul : Nat → Byte → Byte → Byte → Byte
  | 0, _, _, acc => acc
  | k + 1, a, b, acc =>
    gfMul k ((a <<< 1) ^^^ (if a.getLsbD 7 then 0x1b else 0)) (b >>> 1) (if b.getLsbD 0 then acc ^^^ a else acc)

/-- A byte times a coefficient of MixColumns, which has 4 bits. -/
def gfTimes (m a : Byte) : Byte := gfMul 4 a m 0

/-- The S-box, 32 bytes to a number, the lowest byte first. -/
def aesSboxRows : List Nat :=
  [0xc072a49cafa2d4adf04759fa7dc982ca76abd7fe2b670130c56f6bf27b777c63,
   0x75b227ebe28012079a059618c323c7041531d871f1e5a534ccf73f362693fdb7,
   0xcf584c4a39becb6a5bb1fc20ed00d153842fe329b3d63b52a05a6e1b1a2c8309,
   0xd2f3ff1021dab6bcf5389d928f40a351a89f3c507f02f94585334d43fbaaefd0,
   0xdb0b5ede14b8ee4688902a22dc4f816073195d643d7ea7c41744975fec130ccd,
   0x08ae7a65eaf4566ca94ed58d6d37c8e779e4959162acd3c25c2406490a3a32e0,
   0x9e1dc186b95735610ef6034866b53e708a8bbd4b1f74dde8c6b4a61c2e2578ba,
   0x16bb54b00f2d99416842e6bf0d89a18cdf2855cee9871e9b948ed9691198f8e1]

/-- The inverse S-box. -/
def aesInvSboxRows : List Nat :=
  [0xcbe9dec444438e3487ff2f9b8239e37cfbd7f3819ea340bf38a53630d56a0952,
   0x25d18b6d49a25b76b224d92866a12e084ec3fa420b954cee3d23c2a632947b54,
   0x849d8da75746155edab9edfd5048706c92b6655dcc5ca4d41698688664f6f872,
   0x6b8a130103bdafc1020f3fca8f1e2cd00645b3b80558e4f70ad3bc8c00abd890,
   0x6edf751ce837f9e28535ade72274ac9673e6b4f0cecff297eadc674f4111913a,
   0xf45acd78fec0db9a2079d2c64b3e56fc1bbe18aa0e62b76f89c5291d711af147,
   0xef9cc9939f7ae52d0d4ab519a97f51605fec8027591012b131c7078833a8dd1f,
   0x7d0c2155631469e126d677ba7e042b17619953833cbbebc8b0f52aae4d3be0a0]

/-- Entry x of a table of 256 bytes. -/
def tableByte (rows : List Nat) (x : Byte) : Byte := BitVec.ofNat 8 (rows.getD (x.toNat / 32) 0 / 2 ^ (8 * (x.toNat % 32)))

def aesSbox (x : Byte) : Byte := tableByte aesSboxRows x
def aesInvSbox (x : Byte) : Byte := tableByte aesInvSboxRows x

def byteAt (xs : List Byte) (i : Nat) : Byte := xs.getD i 0

def xorBytes (xs ys : List Byte) : List Byte := List.zipWith (· ^^^ ·) xs ys

/-- One further 4-byte word of the key schedule from the words so far, the latest first. -/
def aesNextWord (ws : List (List Byte)) (i : Nat) (rcon : Byte) : List Byte :=
  let prev := ws.getD 0 []
  let t :=
    if i % 8 = 0 then
      xorBytes ([byteAt prev 1, byteAt prev 2, byteAt prev 3, byteAt prev 0].map aesSbox) [rcon, 0, 0, 0]
    else if i % 8 = 4 then prev.map aesSbox
    else prev
  xorBytes (ws.getD 7 []) t

def aesExpand : Nat → Nat → Byte → List (List Byte) → List (List Byte)
  | 0, _, _, ws => ws
  | k + 1, i, rcon, ws =>
    aesExpand k (i + 1) (if i % 8 = 0 then gfTimes 2 rcon else rcon) (aesNextWord ws i rcon :: ws)

/-- The 15 round keys of a 32-byte key. -/
def aesKeys (key : List Byte) : List (List Byte) :=
  let words := (List.range 8).map fun i => (key.drop (4 * i)).take 4
  let all := (aesExpand 52 8 1 words.reverse).reverse
  (List.range 15).map fun r => ((all.drop (4 * r)).take 4).flatten

def aesShiftRows (s : List Byte) : List Byte :=
  (List.range 16).map fun i => byteAt s ((i + 4 * (i % 4)) % 16)

def aesInvShiftRows (s : List Byte) : List Byte :=
  (List.range 16).map fun i => byteAt s ((i + 16 - 4 * (i % 4)) % 16)

/-- One column through a circulant matrix with first row m0 m1 m2 m3. -/
def aesMixWith (m0 m1 m2 m3 : Byte) (s : List Byte) : List Byte :=
  (List.range 16).map fun i =>
    let c := i / 4 * 4
    let r := i % 4
    gfTimes m0 (byteAt s (c + r)) ^^^ gfTimes m1 (byteAt s (c + (r + 1) % 4)) ^^^ gfTimes m2 (byteAt s (c + (r + 2) % 4))
      ^^^ gfTimes m3 (byteAt s (c + (r + 3) % 4))

def aesEncrypt (keys : List (List Byte)) (block : List Byte) : List Byte :=
  let s := xorBytes block (keys.getD 0 [])
  let s := ((keys.drop 1).take 13).foldl (fun s k =>
    xorBytes (aesMixWith 2 3 1 1 (aesShiftRows (s.map aesSbox))) k) s
  xorBytes (aesShiftRows (s.map aesSbox)) (keys.getD 14 [])

def aesDecrypt (keys : List (List Byte)) (block : List Byte) : List Byte :=
  let s := xorBytes block (keys.getD 14 [])
  let s := ((keys.drop 1).take 13).reverse.foldl (fun s k =>
    aesMixWith 14 11 13 9 (xorBytes ((aesInvShiftRows s).map aesInvSbox) k)) s
  xorBytes ((aesInvShiftRows s).map aesInvSbox) (keys.getD 0 [])

/-! ### Bytes and numbers -/

/-- The n low bytes of a number, the lowest first (R2). -/
def bytesOf : Nat → Nat → List Byte
  | 0, _ => []
  | n + 1, x => BitVec.ofNat 8 x :: bytesOf n (x / 256)

def natOf (bs : List Byte) : Nat := bs.foldr (fun b acc => b.toNat + 256 * acc) 0

/-- A number from bytes the highest first. -/
def natOfBig (bs : List Byte) : Nat := bs.foldl (fun acc b => acc * 256 + b.toNat) 0

def bytesBig (n x : Nat) : List Byte := (bytesOf n x).reverse

/-! ### XTS over a 64-byte unit (R88, IEEE 1619) -/

/-- The tweak times x in GF(2¹²⁸), as a little-endian number. -/
def xtsDouble (t : Nat) : Nat := (2 * t % 2 ^ 128) ^^^ (if 2 ^ 127 ≤ t then 0x87 else 0)

def xtsBlocks (f : List Byte → List Byte) : Nat → Nat → List Byte → List Byte
  | 0, _, _ => []
  | k + 1, t, data =>
    let tb := bytesOf 16 t
    xorBytes (f (xorBytes (data.take 16) tb)) tb ++ xtsBlocks f k (xtsDouble t) (data.drop 16)

/-- Seal (or open) a unit under a key pair: the data key in the low 256 bits, the tweak key in the high (R88). -/
def xtsUnit (open_ : Bool) (key : Vec) (tweak : Nat) (data : Vec) : Vec :=
  let k1 := aesKeys (bytesOf 32 (key.toNat % 2 ^ 256))
  let k2 := aesKeys (bytesOf 32 (key.toNat / 2 ^ 256))
  let t := natOf (aesEncrypt k2 (bytesOf 16 tweak))
  BitVec.ofNat 512 (natOf (xtsBlocks (if open_ then aesDecrypt k1 else aesEncrypt k1) 4 t (bytesOf 64 data.toNat)))

def sealUnit (key : Vec) (tweak : Nat) (data : Vec) : Vec := xtsUnit false key tweak data
def openUnit (key : Vec) (tweak : Nat) (data : Vec) : Vec := xtsUnit true key tweak data

/-! ### GCM (R313, NIST SP 800-38D) -/

/-- Multiplication in GF(2¹²⁸) with the bit order of GCM, on big-endian numbers. -/
def ghashMul : Nat → Nat → Nat → Nat → Nat
  | 0, _, _, z => z
  | k + 1, x, v, z =>
    ghashMul k x (if v % 2 = 1 then v / 2 ^^^ 0xe1 * 2 ^ 120 else v / 2) (if x.testBit k then z ^^^ v else z)

def ghash (h : Nat) (blocks : List Nat) : Nat := blocks.foldl (fun y x => ghashMul 128 (y ^^^ x) h 0) 0

/-- Blocks of 16 bytes, the last one padded with zeros, as big-endian numbers. -/
def gcmBlocks : Nat → List Byte → List Nat
  | 0, _ => []
  | k + 1, bs => if bs.isEmpty then [] else natOfBig ((bs.take 16 ++ List.replicate 16 0).take 16) :: gcmBlocks k (bs.drop 16)

def gcmStream (keys : List (List Byte)) (nonce : List Byte) : Nat → Nat → List Byte → List Byte
  | 0, _, _ => []
  | k + 1, ctr, bs =>
    if bs.isEmpty then []
    else xorBytes (bs.take 16) (aesEncrypt keys (nonce ++ bytesBig 4 ctr)) ++ gcmStream keys nonce k (ctr + 1) (bs.drop 16)

/-- The ciphertext (or plaintext: the stream is its own inverse) of a 12-byte nonce. -/
def gcmCrypt (key nonce data : List Byte) : List Byte := gcmStream (aesKeys key) nonce (data.length / 16 + 1) 2 data

/-- The tag over authenticated bytes and ciphertext. -/
def gcmTag (key nonce aad cipher : List Byte) : BitVec 128 :=
  let keys := aesKeys key
  let h := natOfBig (aesEncrypt keys (List.replicate 16 0))
  let n := ghash h (gcmBlocks (aad.length / 16 + 1) aad ++ gcmBlocks (cipher.length / 16 + 1) cipher
    ++ [8 * aad.length * 2 ^ 64 + 8 * cipher.length])
  BitVec.ofNat 128 (n ^^^ natOfBig (aesEncrypt keys (nonce ++ bytesBig 4 1)))

/-! ### SHA-384 (FIPS 180-4), HMAC and HKDF -/

/-- Word i of a table packed four words to a number, the first word lowest. -/
def packedWord (rows : List Nat) (i : Nat) : Word := BitVec.ofNat 64 (rows.getD (i / 4) 0 / 2 ^ (64 * (i % 4)))

/-- The hash value that SHA-384 begins with (FIPS 180-4). -/
def shaStart : List Nat :=
  [0x152fecd8f70e59399159015a3070dd17629a292a367cd507cbbb9d5dc1059ed8,
   0x47b5481dbefa4fa4db0c2e0d64f98fa78eb44a876858151167332667ffc00b31]

/-- The 80 constants of the rounds (FIPS 180-4). -/
def shaRows : List Nat :=
  [0xe9b5dba58189dbbcb5c0fbcfec4d3b2f7137449123ef65cd428a2f98d728ae22,
   0xab1c5ed5da6d8118923f82a4af194f9b59f111f1b605d0193956c25bf348b538,
   0x550c7dc3d5ffb4e2243185be4ee4b28c12835b0145706fbed807aa98a3030242,
   0xc19bf174cf6926949bdc06a725c7123580deb1fe3b1696b172be5d74f27b896f,
   0x240ca1cc77ac9c650fc19dc68b8cd5b5efbe4786384f25e3e49b69c19ef14ad2,
   0x76f988da831153b55cb0a9dcbd41fbd44a7484aa6ea6e4832de92c6f592b0275,
   0xbf597fc7beef0ee4b00327c898fb213fa831c66d2db43210983e5152ee66dfab,
   0x142929670a0e6e7006ca6351e003826fd5a79147930aa725c6e00bf33da88fc2,
   0x53380d139d95b3df4d2c6dfc5ac42aed2e1b21385c26c92627b70a8546d22ffc,
   0x92722c851482353b81c2c92e47edaee6766a0abb3c77b2a8650a73548baf63de,
   0xc76c51a30654be30c24b8b70d0f89791a81a664bbc423001a2bfe8a14cf10364,
   0x106aa07032bbd1b8f40e35855771202ad69906245565a910d192e819d6ef5218,
   0x34b0bcb5e19b48a82748774cdf8eeb991e376c085141ab5319a4c116b8d2d0c8,
   0x682e6ff3d6b2b8a35b9cca4f7763e3734ed8aa4ae3418acb391c0cb3c5c95a63,
   0x8cc702081a6439ec84c87814a1f0ab7278a5636f43172f60748f82ee5defb2fc,
   0xc67178f2e372532bbef9a3f7b2c67915a4506cebde82bde990befffa23631e28,
   0xf57d4f7fee6ed178eada7dd6cde0eb1ed186b8c721c0c207ca273eceea26619c,
   0x1b710b35131c471b113f9804bef90dae0a637dc5a2c898a606f067aa72176fba,
   0x431d67c49c100d4c3c9ebe0a15c9bebc32caab7b40c7249328db77f523047d84,
   0x6c44198c4a4758175fcb6fab3ad6faec597f299cfc657e2a4cc5d4becb3e42b6]

/-- A word rotated by several amounts and once shifted (0: not shifted), all combined by exclusive or. -/
def shaSigma (rotations : List Nat) (shift : Nat) (x : Word) : Word :=
  rotations.foldl (fun acc r => acc ^^^ x.rotateRight r) (if shift = 0 then 0 else x >>> shift)

/-- The next word of the message schedule from the sixteen words before it, the earliest first. -/
def shaNext (w : List Word) : Word :=
  w.getD 0 0 + shaSigma [1, 8] 7 (w.getD 1 0) + w.getD 9 0 + shaSigma [19, 61] 6 (w.getD 14 0)

/-- One round on the eight working words: x is the round's constant plus its schedule word. -/
def shaTurn (x : Word) (v : List Word) : List Word :=
  let at_ (i : Nat) : Word := v.getD i 0
  let pick := at_ 6 ^^^ (at_ 4 &&& (at_ 5 ^^^ at_ 6))
  let most := (at_ 0 &&& at_ 1) ||| (at_ 2 &&& (at_ 0 ||| at_ 1))
  let x := x + pick + at_ 7 + shaSigma [14, 18, 41] 0 (at_ 4)
  (x + most + shaSigma [28, 34, 39] 0 (at_ 0)) :: ((v.take 7).set 3 (at_ 3 + x))

/-- The rounds that are left, with a window of sixteen schedule words. -/
def shaTurns : Nat → List Word → List Word → List Word
  | 0, _, v => v
  | k + 1, w, v => shaTurns k (w.drop 1 ++ [shaNext w]) (shaTurn (packedWord shaRows (79 - k) + w.getD 0 0) v)

/-- A block of 128 bytes taken into the hash value. -/
def shaAbsorb (h : List Word) (block : List Byte) : List Word :=
  let w := (List.range 16).map fun i => BitVec.ofNat 64 (natOfBig ((block.drop (8 * i)).take 8))
  List.zipWith (· + ·) h (shaTurns 80 w h)

/-- SHA-384, as 48 bytes: the message is closed by a one bit, zeros, and its length in bits, up to a whole block. -/
def sha384 (msg : List Byte) : List Byte :=
  let blocks := (msg.length + 144) / 128
  let closed := msg ++ 0x80 :: List.replicate (128 * blocks - 17 - msg.length) 0 ++ bytesBig 16 (8 * msg.length)
  let h := (List.range blocks).foldl (fun h i => shaAbsorb h ((closed.drop (128 * i)).take 128)) ((List.range 8).map (packedWord shaStart))
  (h.take 6).flatMap fun w => bytesBig 8 w.toNat

/-- A 48-byte digest as stored little-endian (R2): its first byte is bits 7:0. -/
def digestBits (bs : List Byte) : BitVec 384 := BitVec.ofNat 384 (natOf bs)

def digestBytes (d : BitVec 384) : List Byte := bytesOf 48 d.toNat

def hmacSha384 (key msg : List Byte) : List Byte :=
  let k0 := if 128 < key.length then sha384 key else key
  let k := (k0 ++ List.replicate 128 0).take 128
  sha384 (k.map (· ^^^ 0x5c) ++ sha384 (k.map (· ^^^ 0x36) ++ msg))

/-- HKDF with one block of output, of at most 48 bytes (RFC 5869). -/
def hkdfSha384 (salt input info : List Byte) (n : Nat) : List Byte :=
  (hmacSha384 (hmacSha384 salt input) (info ++ [1])).take n

/-! ### ECDSA P-384 verification (FIPS 186-4) -/

def p384P : Nat := 2 ^ 384 - 2 ^ 128 - 2 ^ 96 + 2 ^ 32 - 1
def p384B : Nat := 0xb3312fa7e23ee7e4988e056be3f82d19181d9c6efe8141120314088f5013875ac656398d8a2ed19d2a85c8edd3ec2aef
def p384N : Nat := 0xffffffffffffffffffffffffffffffffffffffffffffffffc7634d81f4372ddf581a0db248b0a77aecec196accc52973
def p384Gx : Nat := 0xaa87ca22be8b05378eb1c71ef320ad746e1d3b628ba79b9859f741e082542a385502f25dbf55296c3a545e3872760ab7
def p384Gy : Nat := 0x3617de4a96262c6f5d9e98bf9292dc29f8f41dbd289a147ce9da3113b5f0b8c00a60b1ce1d7e819d7a431d7c90ea0e5f

/-- a^e mod m over the low k bits of e, from the highest. -/
def powMod (m a e : Nat) : Nat → Nat → Nat
  | 0, acc => acc
  | k + 1, acc => powMod m a e k (if e.testBit k then acc * acc % m * a % m else acc * acc % m)

def invMod (m a : Nat) : Nat := powMod m (a % m) (m - 2) 384 1

/-- A point of the curve; none is the point at infinity. -/
abbrev CurvePoint := Option (Nat × Nat)

def pointAdd : CurvePoint → CurvePoint → CurvePoint
  | none, q => q
  | p, none => p
  | some (x1, y1), some (x2, y2) =>
    let p := p384P
    if x1 = x2 ∧ (y1 + y2) % p = 0 then none
    else
      let l := if x1 = x2 then 3 * (x1 * x1 % p + (p - 1)) * invMod p (2 * y1) % p
               else (y2 + p - y1) * invMod p (x2 + p - x1) % p
      let x3 := (l * l + 2 * p - x1 - x2) % p
      some (x3, (l * (x1 + p - x3) + p - y1) % p)

def pointMul (k : Nat) (q : CurvePoint) : Nat → CurvePoint → CurvePoint
  | 0, acc => acc
  | n + 1, acc =>
    let d := pointAdd acc acc
    pointMul k q n (if k.testBit n then pointAdd d q else d)

def onP384 (x y : Nat) : Bool :=
  x < p384P && y < p384P && y * y % p384P == (x * x % p384P * x + (p384P - 3) * x + p384B) % p384P

/-- Whether (r, s) signs a 48-byte digest under the public key (x, y). -/
def ecdsaVerify (digest : List Byte) (x y r s : Nat) : Bool :=
  let n := p384N
  if r = 0 ∨ n ≤ r ∨ s = 0 ∨ n ≤ s then false
  else if !onP384 x y then false
  else
    let z := natOfBig digest
    let w := invMod n s
    match pointAdd (pointMul (z * w % n) (some (p384Gx, p384Gy)) 384 none) (pointMul (r * w % n) (some (x, y)) 384 none) with
    | none => false
    | some (px, _) => px % n == r

end Sys2Proof.Machine
end

