-- ==== Sys2Proof/Machine/Memory.lean ====
section
/-!
DEFINITION. Physical memory: bytes and 64-byte units (R71), its canonical form, and the homes of addresses (R10, R71).
-/

namespace Sys2Proof.Machine

/-! ### Bytes -/

/-- The byte at a physical address. -/
def Memory.read (m : Memory) (a : Nat) : Byte :=
  match m with
  | [] => Memory.default
  | (j, x) :: rest => if j = a then x else Memory.read rest a

/-- The canonical form: addresses strictly rise, and no entry holds what an unlisted address reads as. -/
def Memory.wf : Memory → Bool
  | [] => true
  | [(_, x)] => x != Memory.default
  | (i, x) :: (j, y) :: rest => x != Memory.default && i < j && Memory.wf ((j, y) :: rest)

/-- Store a byte and keep the canonical form: writing what an unlisted address reads as removes the entry. -/
def Memory.write (m : Memory) (a : Nat) (b : Byte) : Memory :=
  match m with
  | [] => if b = Memory.default then [] else [(a, b)]
  | (j, x) :: rest =>
    if a < j then (if b = Memory.default then (j, x) :: rest else (a, b) :: (j, x) :: rest)
    else if a = j then (if b = Memory.default then rest else (a, b) :: rest)
    else (j, x) :: Memory.write rest a b

/-- The n bytes from address a as a little-endian number. -/
def Memory.readNat (m : Memory) (a : Nat) : Nat → Nat
  | 0 => 0
  | n + 1 => (m.read a).toNat + 256 * Memory.readNat m (a + 1) n

/-- Store the low n bytes of a number at address a, those whose mask bit is set (bit k for byte k). -/
def Memory.writeNat (m : Memory) (a n data mask : Nat) : Memory :=
  match n with
  | 0 => m
  | n + 1 =>
    Memory.writeNat (if mask % 2 = 1 then m.write a (BitVec.ofNat 8 data) else m) (a + 1) n (data / 256) (mask / 2)

/-! ### Memory units (R78) -/

/-- The 64 bytes of the unit with index u, its physical address div 64. -/
def Memory.unit (m : Memory) (u : Nat) : Vec := BitVec.ofNat 512 (m.readNat (64 * u) 64)

def Memory.setUnit (m : Memory) (u : Nat) (v : Vec) : Memory := m.writeNat (64 * u) 64 v.toNat (2 ^ 64 - 1)

/-! ### Homes (R10, R71) -/

/-- A home memory controller: an HBM stack, or the host-link interface. -/
inductive Home where
  | stack (n : Nat)
  | host
  deriving DecidableEq, Repr

/-- The home of a physical address, if it has one. -/
def homeOf (pa : Nat) : Option Home :=
  if pa < 1152 * 10 ^ 9 then some (.stack (pa / 4096 % 12))
  else if 2 ^ 50 ≤ pa ∧ pa < 2 ^ 51 then some .host
  else none

/-- The die at whose edge a home lies; the host-link interface lies at die 0 (R10, R331). -/
def Home.die : Home → Nat
  | .host => 0
  | .stack n => [0, 1, 2, 2, 5, 8, 8, 7, 6, 6, 3, 0].getD n 0

/-- Where the carve-outs of a state begin, and their bytes: HBM under CARVE, host memory under ECARVE in state 2 (R334, R341). -/
def State.carveOuts (s : State) : List (Nat × Nat) :=
  let size (w : Word) : Nat := (w.extractLsb' 56 8).toNat * 2 ^ 30
  let p := s.platform
  ((p.carve.extractLsb' 30 21).toNat * 2 ^ 30, size p.carve)
    :: (if p.service = 2 then [(2 ^ 50 + (p.ecarve.extractLsb' 30 20).toNat * 2 ^ 30, size p.ecarve)] else [])

/-- Whether a physical address lies in a carve-out (R71, R334). (log 73, DEDUCED) -/
def State.inCarveOut (s : State) (pa : Nat) : Bool := s.carveOuts.any fun c => c.1 ≤ pa && pa < c.1 + c.2

/-- What the carve-out's layout puts at an offset: the device tables, a key slot, a place of the trace ring, or the image store (R343). -/
inductive CarveItem where
  | tables (offset : Nat)
  | keySlot (n : Nat)
  | ringPlace (i : Nat)
  | images (offset : Nat)
  deriving DecidableEq, Repr

def carveItem (offset : Nat) : CarveItem :=
  if offset < 0x00010000 then .tables offset
  else if offset < 0x10010000 then .keySlot ((offset - 0x00010000) / 256)
  else if offset < 0x20010000 then .ringPlace ((offset - 0x10010000) / 32)
  else .images (offset - 0x20010000)

/-- n units from unit u hold what the device sealed there under its own key, whose bytes are open (R343). (log 73, DEDUCED) -/
def Memory.sealUnits (m : Memory) (free u : Nat) : Nat → Memory
  | 0 => m
  | n + 1 => Memory.sealUnits (m.setUnit u (Config.sealedUnit free u)) free (u + 1) n

/-- Regions that are a carve-out no longer keep the device's sealed bytes, which are memory again from now on. -/
def State.leaveSealed (s : State) (regions : List (Nat × Nat)) : State :=
  { s with memory := regions.foldl (fun m c => m.sealUnits s.free (c.1 / 64) (c.2 / 64)) s.memory, free := s.free + 1 }

/-- The item at a physical address of the carve-out that is in use: ECARVE's in state 2, CARVE's from state 3. -/
def State.carved (s : State) (pa : Nat) : Option CarveItem :=
  match s.carveOuts.getLast? with
  | some (base, size) => if base ≤ pa ∧ pa < base + size then some (carveItem (pa - base)) else none
  | none => none

end Sys2Proof.Machine
end

