-- ==== Sys2Proof/Machine/Translate.lean ====
section
/-!
DEFINITION. Translation: page tables (R72), the edge TLB (R73), range entries (R74, R75), and the checks of a request in the order
of R364.
-/

namespace Sys2Proof.Machine

/-- Why a request fails a check: fault code and AUX (R344, R364). -/
structure CheckFault where
  code : Nat
  aux : Nat
  deriving DecidableEq, Repr

/-- What an access needs of a range and a leaf. -/
inductive Need where
  | rd | wr | at | x
  deriving DecidableEq, Repr

/-- AUX of a permission fault (R344). -/
def Need.aux : Need → Nat
  | .rd => 1 | .wr => 2 | .at => 4 | .x => 8

/-- The permission bit of a leaf (R72). -/
def Need.leafBit : Need → Nat
  | .rd => 2 | .wr => 3 | .at => 5 | .x => 4

/-- The permission bit of a range's ATTR (R74); fetch uses no range. -/
def Need.rangeBit : Need → Nat
  | .rd => 0 | .wr => 1 | .at => 2 | .x => 3

/-! ### The walk (R72) -/

/-- Lowest VA bit and number of VA bits a level indexes. -/
def levelBits : Nat → Nat × Nat
  | 3 => (39, 17)
  | 2 => (30, 9)
  | 1 => (21, 9)
  | _ => (16, 5)

/-- A leaf found by a walk: the entry and its level. -/
structure Leaf where
  entry : Word
  level : Nat
  deriving DecidableEq, Repr

/-- Whether an entry's reserved and must-be-zero bits are zero, at its level (R72). -/
def entryClean (e : Word) (level : Nat) : Bool :=
  let pfnLow (n : Nat) : Bool := (e.extractLsb' 16 n).toNat = 0
  (e.extractLsb' 51 13).toNat = 0 && (e.extractLsb' 6 2).toNat = 0 &&
    (if e.getLsbD 1 then
      (e.extractLsb' 8 8).toNat = 0 && (if level = 1 then pfnLow 5 else if level = 2 then pfnLow 14 else true)
    else (e.extractLsb' 2 4).toNat = 0 && (if level = 1 then true else (e.extractLsb' 8 4).toNat = 0))

/-- Whether memory answers at a physical address: it has a home, and HBM is there, which it is not in state 2 (R334, R364). -/
def homeThere (hbm : Bool) (pa : Nat) : Except CheckFault Unit :=
  match homeOf pa with
  | none => .error ⟨0x0D, 0⟩
  | some (.stack _) => if hbm then .ok () else .error ⟨0x08, 0xF⟩
  | some .host => .ok ()

/-- One entry of a walk: a leaf, or the address of the next table. An entry at an address without a home is no-home (log 11, DEDUCED); one in
a poisoned unit is uncorrectable, class 5 (R368). -/
def walkEntry (m : Memory) (poisoned : List Nat) (hbm : Bool) (va table level : Nat) : Except CheckFault (Leaf ⊕ Nat) :=
  let (lo, n) := levelBits level
  let a := table + 8 * (va / 2 ^ lo % 2 ^ n)
  let e : Word := BitVec.ofNat 64 (m.readNat a 8)
  match homeThere hbm a with
  | .error f => .error f
  | .ok _ =>
    if poisoned.contains (a / 64) then .error ⟨0x18, 5⟩
    else if !e.getLsbD 0 || !entryClean e level then .error ⟨0x08, level⟩
    else if e.getLsbD 1 then (if level = 3 then .error ⟨0x08, 3⟩ else .ok (.inl ⟨e, level⟩))
    else .ok (.inr ((e.extractLsb' 8 43).toNat * 256))

/-- The walk from a table down: the leaf, or the level of the entry at which it ends with a translation fault. -/
def walkFrom (m : Memory) (poisoned : List Nat) (hbm : Bool) (va table : Nat) : Nat → Except CheckFault Leaf
  | 0 =>
    match walkEntry m poisoned hbm va table 0 with
    | .error e => .error e
    | .ok (.inl l) => .ok l
    | .ok (.inr _) => .error ⟨0x08, 0⟩
  | level + 1 =>
    match walkEntry m poisoned hbm va table (level + 1) with
    | .error e => .error e
    | .ok (.inl l) => .ok l
    | .ok (.inr next) => walkFrom m poisoned hbm va next level

/-- The walk of an interface's page tables. -/
def State.walk (s : State) (vif va : Nat) : Except CheckFault Leaf :=
  walkFrom s.memory s.poisonedUnits (s.platform.service != 2) va (((s.iface vif).troot.extractLsb' 20 31).toNat * 2 ^ 20) 3

/-- The physical address a leaf gives. -/
def Leaf.address (l : Leaf) (va : Nat) : Nat :=
  let (lo, _) := levelBits l.level
  (l.entry.extractLsb' 16 35).toNat * 2 ^ 16 / 2 ^ lo * 2 ^ lo + va % 2 ^ lo

/-! ### The edge TLB (R73) -/

/-- log2 of the page a level maps, in 64 KiB pages. -/
def levelSpan (level : Nat) : Nat := (levelBits level).1 - 16

def TlbEntry.covers (e : TlbEntry) (die vif va : Nat) : Bool :=
  e.die == die && e.vif == vif && va / 2 ^ 16 / 2 ^ e.span == e.page / 2 ^ e.span

/-- The leaf a die's TLB holds for an address. -/
def State.tlbHit (s : State) (die vif va : Nat) : Option Leaf :=
  (s.tlb.find? fun e => e.covers die vif va).map fun e => ⟨e.leaf, if e.span = 0 then 0 else if e.span = 5 then 1 else 2⟩

/-- A fill of the TLB; with 4,096 entries on the die, one that is not architected gives way (R73; log 5, DESIGN CHOICE). -/
def State.fillTlb (s : State) (die vif va : Nat) (l : Leaf) : State :=
  let span := levelSpan l.level
  let e : TlbEntry := ⟨die, vif, va / 2 ^ 16 / 2 ^ span * 2 ^ span, span, l.entry⟩
  let mine := s.tlb.filter (·.die = die)
  let others := s.tlb.filter (·.die ≠ die)
  let kept := if mine.length < 4096 then mine else mine.eraseIdx (Config.choice s.free % 4096)
  { s with tlb := others ++ kept ++ [e], free := s.free + 1 }

/-! ### The checks of R364 -/

/-- Checks 6 to 8 on a physical address. -/
def State.checkPhysical (s : State) (pa : Nat) : Except CheckFault Nat :=
  if s.inCarveOut pa then .error ⟨0x08, 0xF⟩
  else
    match homeThere (s.platform.service != 2) pa with
    | .error f => .error f
    | .ok _ => .ok pa

/-- Checks 5 to 8: an access through a leaf. -/
def State.checkLeaf (s : State) (l : Leaf) (va : Nat) (need : List Need) : Except CheckFault Nat :=
  match need.find? fun n => !l.entry.getLsbD n.leafBit with
  | some n => .error ⟨0x09, n.aux⟩
  | none => s.checkPhysical (l.address va)

/-- Checks 1 and 4 to 8: an access through the page tables, served by a die's TLB where it holds the page. -/
def State.translatePages (s : State) (die : Option Nat) (vif : Nat) (va : Word) (need : List Need) : Except CheckFault Nat :=
  if (va.extractLsb' 56 8).toNat ≠ 0 then .error ⟨0x08, 0xF⟩
  else
    match die.bind fun d => s.tlbHit d vif va.toNat with
    | some l => s.checkLeaf l va.toNat need
    | none =>
      match s.walk vif va.toNat with
      | .error e => .error e
      | .ok l => s.checkLeaf l va.toNat need

/-! ### Range entries (R74, R75) -/

structure Range where
  vbase : Word
  vlim : Word
  pbase : Word
  scva : Word
  attr : Word
  deriving DecidableEq, Repr

def Range.ofVec (v : Vec) : Range :=
  ⟨v.extractLsb' 0 64, v.extractLsb' 64 64, v.extractLsb' 128 64, v.extractLsb' 192 64, v.extractLsb' 256 64⟩

def Range.sfmt (r : Range) : BitVec 8 := r.attr.extractLsb' 4 8

/-- Entry i of an interface's range table as it stands in memory; RTAB bits 21:0 are reserved (R304). -/
def State.rangeVec (s : State) (vif i : Nat) : Vec :=
  s.memory.unit (((s.iface vif).rtab.extractLsb' 22 29).toNat * 2 ^ 16 + i)

/-- The device's own read of an interface's range table: it fails where HBM is absent (R334). -/
def State.rangeThere (s : State) (vif : Nat) : Except CheckFault Unit :=
  homeThere (s.platform.service != 2) (((s.iface vif).rtab.extractLsb' 22 29).toNat * 2 ^ 22)

/-- Whether a range entry is empty or breaks R74 (R75). -/
def Range.bad (r : Range) : Bool :=
  (r.vbase = 0 && r.vlim = 0) || r.vlim.toNat ≤ r.vbase.toNat || r.vbase.toNat % 2 ^ 16 != 0 || r.vlim.toNat % 2 ^ 16 != 0

/-- Checks 1 to 3: a stream's address against its range; `scale` for a scale byte. -/
def Range.check (r : Range) (va : Word) (scale : Bool) (need : Need) : Except CheckFault Unit :=
  let lo := if scale then r.scva.toNat else r.vbase.toNat
  if (va.extractLsb' 56 8).toNat ≠ 0 then .error ⟨0x08, 0xF⟩
  else if va.toNat < lo ∨ r.vlim.toNat ≤ va.toNat then .error ⟨0x08, 0xF⟩
  else if !r.attr.getLsbD need.rangeBit then .error ⟨0x09, need.aux⟩
  else .ok ()

/-- The physical address of a linear mode (R75). -/
def Range.linear (r : Range) (va : Word) : Nat := (r.pbase + (va - r.vbase)).toNat

end Sys2Proof.Machine
end

