-- ==== Sys2Proof/Machine/Access.lean ====
section
/-!
DEFINITION. Sealed memory: the key of a request (R88, R93), opening and sealing of units at their home (R89), and the accesses of the
controllers through an interface's page tables and world key (R32, R37, R84, R292, R306, R308, R347).
-/

namespace Sys2Proof.Machine

/-! ### Keys -/

/-- A key and the base of its domain; `none` for data that is not sealed (R88). -/
abbrev Material := Option (Vec × Nat)

def State.keySlot (s : State) (n : Nat) : KeySlot := s.keySlots.get KeySlot.free n
def State.setKeySlot (s : State) (n : Nat) (k : KeySlot) : State := { s with keySlots := s.keySlots.set KeySlot.free n k }

/-- AUX of a key fault (R344). -/
def KeyUse.aux : KeyUse → Nat
  | .plain => 0
  | .world => 2 ^ 32
  | .slot n g _ => n + g % 2 ^ 12 * 2 ^ 20

/-- The key a request is opened or sealed with: the one of its captured epoch (R93), if the slot has not ended (R95) and the world key
exists (R377). -/
def State.material (s : State) (vif : Nat) : KeyUse → Option Material
  | .plain => some none
  | .world => (s.iface vif).worldKey.map fun k => some (k, 0)
  | .slot n g epoch =>
    let k := s.keySlot n
    if k.live ∧ k.sgen = g then
      if k.epoch = epoch then some (some (k.key, k.base.toNat))
      else
        match k.old with
        | some (o, e) => if e = epoch then some (some (o, k.base.toNat)) else none
        | none => none
    else none

/-- Whether a slot and generation pass the checks of R93 for an interface. -/
def State.keyValid (s : State) (vif slot gen : Nat) (kw : Bool) : Bool :=
  if kw then slot == 0 && gen == 0
  else if slot = 0 && gen = 0 then (s.iface vif).conf.getLsbD 0
  else
    let k := s.keySlot slot
    slot != 0 && k.live && k.owner == vif && k.sgen == gen

/-- The key use that KEYSEL or SKEY captures now (R79, R93). -/
def State.keyUse (s : State) (slot gen : Nat) (kw : Bool) : KeyUse :=
  if kw then .world else if slot = 0 then .plain else .slot slot gen (s.keySlot slot).epoch

/-- KSLOT, KGEN and KW of a key word (R79, R178). -/
def keyFields (w : Word) : Nat × Nat × Bool :=
  ((w.extractLsb' 16 20).toNat, (w.extractLsb' 36 12).toNat, w.getLsbD 48)

/-! ### Units under a key -/

/-- A unit as a key opens it, from its stored bytes and its virtual address div 64. -/
def openWith (k : Material) (unitVa : Nat) (data : Vec) : Vec :=
  match k with
  | none => data
  | some (key, d) => openUnit key ((64 * unitVa - d) / 64) data

def sealWith (k : Material) (unitVa : Nat) (data : Vec) : Vec :=
  match k with
  | none => data
  | some (key, d) => sealUnit key ((64 * unitVa - d) / 64) data

/-- Whether a unit lies below its key's domain (R88). -/
def belowDomain (k : Material) (unitVa : Nat) : Bool :=
  match k with
  | none => false
  | some (_, d) => 64 * unitVa < d

/-- The masked bytes of a unit are written at its home, which opens, merges and seals in one step; a write of the whole unit is sealed
as it is and clears a poison mark (R89, R368). -/
def State.putUnit (s : State) (k : Material) (pa unitVa : Nat) (data mask : Vec) : State :=
  let u := pa / 64
  if mask = -1 then
    { s with memory := s.memory.setUnit u (sealWith k unitVa data), poisonedUnits := s.poisonedUnits.filter (· ≠ u) }
  else
    let old := openWith k unitVa (s.memory.unit u)
    { s with memory := s.memory.setUnit u (sealWith k unitVa ((old &&& ~~~mask) ||| (data &&& mask))) }

/-- The opened bytes of a unit. -/
def State.getUnit (s : State) (k : Material) (pa unitVa : Nat) : Vec := openWith k unitVa (s.memory.unit (pa / 64))

/-! ### Accesses of the controllers -/

/-- The world key of an interface, or the key fault of R377. -/
def State.worldMaterial (s : State) (vif : Nat) : Except CheckFault Material :=
  match s.material vif .world with
  | some k => .ok k
  | none => .error ⟨0x0A, 2 ^ 32⟩

/-- The opened unit that holds a virtual address. -/
def State.readUnit (s : State) (vif : Nat) (va : Word) : Except CheckFault Vec :=
  match s.translatePages none vif va [.rd], s.worldMaterial vif with
  | .error e, _ => .error e
  | _, .error e => .error e
  | .ok pa, .ok k =>
    if s.poisonedUnits.contains (pa / 64) then .error ⟨0x18, 3⟩ else .ok (s.getUnit k pa (va.toNat / 64))

/-- n bytes at an address, within one unit, as a number. -/
def State.readVirtual (s : State) (vif : Nat) (va : Word) (n : Nat) : Except CheckFault Nat :=
  match s.readUnit vif va with
  | .error e => .error e
  | .ok u => .ok (u.toNat / 2 ^ (8 * (va.toNat % 64)) % 2 ^ (8 * n))

/-- n units from an aligned address. -/
def State.readUnits (s : State) (vif : Nat) (va : Word) : Nat → Except CheckFault (List Vec)
  | 0 => .ok []
  | n + 1 =>
    match s.readUnit vif va, State.readUnits s vif (va + 64) n with
    | .error e, _ => .error e
    | _, .error e => .error e
    | .ok u, .ok us => .ok (u :: us)

/-- Store the low n bytes of a number at an address, within one unit. -/
def State.writeVirtual (s : State) (vif : Nat) (va : Word) (n data : Nat) : Except CheckFault State :=
  match s.translatePages none vif va [.wr], s.worldMaterial vif with
  | .error e, _ => .error e
  | _, .error e => .error e
  | .ok pa, .ok k =>
    let sh := 8 * (va.toNat % 64)
    let mask : Vec := BitVec.ofNat 512 ((2 ^ (8 * n) - 1) * 2 ^ sh)
    if mask ≠ -1 && s.poisonedUnits.contains (pa / 64) then .error ⟨0x18, 4⟩
    else .ok (s.putUnit k pa (va.toNat / 64) (BitVec.ofNat 512 (data * 2 ^ sh)) mask)

/-- The 64-bit ADD of 1 at a completion object (R84): its leaf must permit reading and writing, and AT is not asked for. (log 82, DESIGN
CHOICE) -/
def State.addOne (s : State) (vif : Nat) (va : Word) : Except CheckFault State :=
  match s.readVirtual vif va 8 with
  | .error e => .error e
  | .ok old => s.writeVirtual vif va 8 ((old + 1) % 2 ^ 64)

/-- Store a byte list at an address, unit by unit. -/
def State.writeBytes (s : State) (vif : Nat) : Nat → Word → List Byte → Except CheckFault State
  | 0, _, _ => .ok s
  | fuel + 1, va, bs =>
    if bs.isEmpty then .ok s
    else
      let n := min bs.length (64 - va.toNat % 64)
      match s.writeVirtual vif va n (natOf (bs.take n)) with
      | .error e => .error e
      | .ok s => State.writeBytes s vif fuel (va + BitVec.ofNat 64 n) (bs.drop n)

/-- Read a byte list, unit by unit. -/
def State.readBytes (s : State) (vif : Nat) : Nat → Word → Nat → Except CheckFault (List Byte)
  | 0, _, _ => .ok []
  | fuel + 1, va, len =>
    if len = 0 then .ok []
    else
      let n := min len (64 - va.toNat % 64)
      match s.readVirtual vif va n, State.readBytes s vif fuel (va + BitVec.ofNat 64 n) (len - n) with
      | .error e, _ => .error e
      | _, .error e => .error e
      | .ok x, .ok rest => .ok (bytesOf n x ++ rest)

end Sys2Proof.Machine
end

