-- ==== Sys2Proof/Machine/Report.lean ====
section
/-!
DEFINITION. Reporting: the disciplined time (R310), trace records and their drop rule (R315 to R318), fault records and the fault area
(R346 to R350), interrupts (R38, R307, R350).
-/

namespace Sys2Proof.Machine

/-! ### Time (R310) -/

/-- Nanoseconds of the disciplined time. -/
def State.ns (s : State) : Nat := s.clock.time / 5000000 % 2 ^ 64

/-- Its 16-bit fraction. -/
def State.nsFraction (s : State) : Nat := s.clock.time % 5000000 * 2 ^ 16 / 5000000

/-- An interface's activity counters rise (R338). -/
def State.spend (s : State) (vif : Nat) (f : Activity → Activity) : State :=
  let i := s.iface vif
  s.setIface vif { i with activity := f i.activity }

/-! ### Folios, dies and corners -/

/-- Die of a device folio: 4 folio rows and 8 folio columns to a die, 3 by 3 dies (R9). -/
def dieOf (row col : Nat) : Nat := row / 4 * 3 + col / 8

/-- The lead spine of a signature, which lives in its corner folio (R16). -/
def State.spineOf (s : State) (sig : Nat) : Spine := (s.folio (s.sig sig).row0 (s.sig sig).col0).spine

def State.setSpineOf (s : State) (sig : Nat) (p : Spine) : State :=
  let g := s.sig sig
  s.setFolio g.row0 g.col0 { s.folio g.row0 g.col0 with spine := p }

/-- A signature's folios, as device rows and columns, row-major. -/
def Sig.folios (g : Sig) : List (Nat × Nat) :=
  (List.range g.ht).flatMap fun i => (List.range g.wd).map fun j => (g.row0 + i, g.col0 + j)

/-- The stale-read mode of a launch record (R30). -/
def Sig.gmode (g : Sig) : Bool := g.record.getLsbD (384 + 20)

/-- Word k of a launch record (R29). -/
def recordWord (r : Vec) (k : Nat) : Word := r.extractLsb' (64 * k) 64

/-! ### Trace (R315 to R318) -/

def traceClass (r : TraceRecord) : Nat := (r.extractLsb' 80 2).toNat
def traceEvent (r : TraceRecord) : Nat := (r.extractLsb' 64 16).toNat
def traceSeq (r : TraceRecord) : BitVec 16 := r.extractLsb' 176 16
def tracePayload (r : TraceRecord) : Nat := (r.extractLsb' 192 64).toNat

/-- A record's 32 bytes (R315), but for SEQ. -/
def traceRecord (ns : Nat) (unsync : Bool) (vif signum place : Nat) (regions : List (BitVec 16)) (event cls payload : Nat) :
    TraceRecord :=
  let region (i : Nat) : Nat := (regions.getD i 0).toNat * 2 ^ (128 + 16 * i)
  BitVec.ofNat 256 (ns % 2 ^ 64 + event % 2 ^ 16 * 2 ^ 64 + cls % 4 * 2 ^ 80 + (if unsync then 2 ^ 82 else 0) + vif % 64 * 2 ^ 88
    + signum % 2 ^ 16 * 2 ^ 96 + place % 2 ^ 16 * 2 ^ 112 + region 0 + region 1 + region 2 + payload % 2 ^ 64 * 2 ^ 192)

def withSeq (r : TraceRecord) (n : Nat) : TraceRecord :=
  (r &&& ~~~(0xFFFF#256 <<< 176)) ||| (BitVec.ofNat 256 (n % 2 ^ 16) <<< 176)

/-- Position of the oldest record of the lowest class, sparing the gap record of the current run, which stands at position `gap`. -/
def dropIndex (gap : Option Nat) (rs : List TraceRecord) : Nat :=
  let best := (List.range rs.length).foldl (fun (b : Option Nat) i =>
    let r := rs.getD i 0
    if gap = some i then b
    else
      match b with
      | none => some i
      | some j => if traceClass r < traceClass (rs.getD j 0) then some i else some j) none
  best.getD 0

/-- What a dropped record adds to the count: one, and an earlier gap record's own count with it. -/
def dropCount (r : TraceRecord) : Nat := if traceEvent r = 0xFF then tracePayload r + 1 else 1

/-- The record at a position counts n more drops. -/
def raiseCount (rs : List TraceRecord) (i n : Nat) : List TraceRecord :=
  rs.modify i fun x => x + (BitVec.ofNat 256 n <<< 192)

/-- The oldest record leaves an area: positions move up by one, and a gap record that leaves ends its run. -/
def TraceArea.tail (a : TraceArea) : TraceArea :=
  { a with records := a.records.tail, gap := match a.gap with | some (k + 1) => some k | _ => none }

/-- The staging folio that a record names. -/
def tracePlace (r : TraceRecord) : Nat := (r.extractLsb' 112 16).toNat

/-- The run that is open in an area for drops under a name: drops of a folio's flush are counted under that folio's name, and so in a run of their
own (R378). -/
def TraceArea.run (a : TraceArea) (place : Nat) : Option Nat := a.gap.filter fun k => tracePlace (a.records.getD k 0) = place

/-- Insert a record into an area of a capacity (R318). `fresh` says that the record gets its SEQ here: how many were inserted before it, since the first
record of an area that starts with a count of 0 has SEQ 0 (R378). `place` is the area's name, and `unsync` says how SYNC stands. -/
def TraceArea.insert (a : TraceArea) (capacity : Nat) (r : TraceRecord) (fresh : Bool) (place : Nat) (unsync : Bool) : TraceArea :=
  let seqOf (n : Nat) : TraceRecord := if fresh then withSeq r n else r
  if a.records.length < capacity then ⟨a.records ++ [seqOf a.inserted], a.inserted + 1, none⟩
  else
    let all := a.records ++ [r]
    let i := dropIndex (a.run place) all
    let first := all.getD i 0
    let rest := all.eraseIdx i
    -- whether the arriving record, the last of `all`, is still there
    let kept := i + 1 < all.length
    match a.run place with
    | some k =>
      -- where the gap record stands once the dropped one is gone
      let g := if i < k then k - 1 else k
      let rest := raiseCount rest g (dropCount first)
      if kept then ⟨rest.dropLast ++ [seqOf a.inserted], a.inserted + 1, some g⟩
      else ⟨rest, a.inserted, some g⟩
    | none =>
      let j := dropIndex none rest
      let second := rest.getD j 0
      let rest2 := rest.eraseIdx j
      let kept2 := kept && j + 1 < rest.length
      let gap := withSeq (traceRecord (first.extractLsb' 0 64).toNat unsync 0 0 place [] 0xFF 3 (dropCount first + dropCount second))
        a.inserted
      if kept2 then ⟨rest2.dropLast ++ [gap, seqOf (a.inserted + 1)], a.inserted + 2, some (rest2.length - 1)⟩
      else ⟨rest2 ++ [gap], a.inserted + 1, some rest2.length⟩

/-- Stage a record at a folio; none is staged in a gated folio (R378), nor one below the interface's TCLS (R316). -/
def State.traceAt (s : State) (row col vif signum : Nat) (regions : List (BitVec 16)) (event cls payload : Nat) : State :=
  let f := s.folio row col
  let place := row + col * 2 ^ 8
  let r := traceRecord s.ns (!s.clock.synced) vif signum place regions event cls payload
  if f.gated || cls < (s.iface vif).policy.tcls then s
  else s.setFolio row col { f with staging := f.staging.insert 64 r true place (!s.clock.synced) }

/-- Stage a record at a die buffer, which holds 131,072 (R317). -/
def State.traceDie (s : State) (die vif signum : Nat) (regions : List (BitVec 16)) (event cls payload : Nat) : State :=
  let b := s.dieBuffers.get DieBuffer.zero die
  let r := traceRecord s.ns (!s.clock.synced) vif signum 0xFFFF regions event cls payload
  if cls < (s.iface vif).policy.tcls then s
  else
    let area := b.area.insert 131072 r true 0xFFFF (!s.clock.synced)
    { s with dieBuffers := s.dieBuffers.set DieBuffer.zero die { b with area } }

/-- A record at the lead folio of a signature. -/
def State.traceSig (s : State) (sig event cls payload : Nat) : State :=
  let g := s.sig sig
  s.traceAt g.row0 g.col0 g.vif sig (s.spineOf sig).region event cls payload

/-! ### Interrupts (R307, R350) -/

/-- Write the interrupt record of an interface: count, interface, and bit 63; bit 62 marks one for a fault record (R307, R350). -/
def State.interrupt (s : State) (vif count : Nat) (fault : Bool) : State :=
  let f := s.iface vif
  if !f.ictl.getLsbD 16 || f.iaddr = 0 then s
  else
    let w := count % 2 ^ 32 + vif % 64 * 2 ^ 32 + 2 ^ 63 + (if fault then 2 ^ 62 else 0)
    { s with memory := s.memory.writeNat (2 ^ 50 + f.iaddr.toNat % 2 ^ 50) 8 w 0xFF, interrupts := s.interrupts ++ [(vif, count)] }

/-! ### Fault records (R346 to R350) -/

/-- What a fault record says (R348, R349). -/
structure FaultInfo where
  code : Nat
  /-- 0 REPORT, 1 HOLD, 2 STOP, 3 END -/
  disp : Nat
  /-- 1 ABORT, 2 RESUME, 4 RETRY -/
  acts : Nat
  unit : Nat
  slot : Nat
  sig : Nat
  offset : Nat
  /-- element coordinates, when valid -/
  place : Option (Nat × Nat)
  time : Nat
  addr : Nat
  aux : Nat
  more : Nat
  handle : Nat
  ctxGen : Nat
  /-- stream context and request that a HOLD record is about -/
  ctx : Nat
  request : Nat
  /-- disciplined time of the detection in ns, where that is not the time of the record's writing -/
  seen : Option Nat
  deriving DecidableEq, Repr

def FaultInfo.report (code unit aux addr : Nat) : FaultInfo :=
  { code, disp := 0, acts := 0, unit, slot := 0, sig := 0, offset := 0, place := none, time := 0, addr, aux, more := 0
    handle := 0, ctxGen := 0, ctx := 0, request := 0, seen := none }

/-- The 64 bytes of a record with number k; TIME is that of the detection (R348). -/
def FaultInfo.bytes (f : FaultInfo) (k vif ns : Nat) : Vec :=
  let info := f.code % 2 ^ 8 + f.disp % 4 * 2 ^ 8 + f.unit % 8 * 2 ^ 10 + f.slot % 4 * 2 ^ 13 + f.sig % 2 ^ 16 * 2 ^ 16
    + f.acts % 8 * 2 ^ 32
  let loc := f.offset % 2 ^ 32 +
    (match f.place with | none => 0 | some (r, c) => r % 2 ^ 8 * 2 ^ 40 + c % 2 ^ 9 * 2 ^ 48 + 2 ^ 57)
  let ctx := min f.more 0xFFFF + vif % 64 * 2 ^ 16 + f.handle % 16 * 2 ^ 22 + f.ctxGen % 2 ^ 16 * 2 ^ 32
  BitVec.ofNat 512 (k % 2 ^ 64 + info * 2 ^ 64 + loc * 2 ^ 128 + f.time % 2 ^ 64 * 2 ^ 192 + f.addr % 2 ^ 64 * 2 ^ 256
    + f.aux % 2 ^ 64 * 2 ^ 320 + f.seen.getD ns % 2 ^ 64 * 2 ^ 384 + ctx * 2 ^ 448)

/-- Base and number of records of an interface's fault area (R346). -/
def Iface.faultArea (f : Iface) : Word × Nat :=
  let esz := (f.farea.extractLsb' 0 5).toNat
  (f.farea &&& 0x00FFFFFFFFFFF000, 2 ^ (if 6 ≤ esz ∧ esz ≤ 16 then esz else 6))

/-- Record k's address. -/
def faultSlot (base : Word) (count k : Nat) : Word := base + BitVec.ofNat 64 (64 + 64 * ((k - 1) % count))

/-- Try to write a record as R347 orders it; the number it got, or nothing when it was not written. -/
def State.writeFault (s : State) (vif : Nat) (f : FaultInfo) : State × Option Nat :=
  let i := s.iface vif
  let (base, count) := i.faultArea
  let lost (s : State) : State :=
    let lost := i.lost + 1
    let s' := (s.writeVirtual vif (base + 0x10) 8 lost.toNat).toOption.getD s
    s'.setIface vif { s'.iface vif with lost }
  if base = 0 then (s, none)
  else
    match s.readVirtual vif (base + 8) 8 with
    | .error _ => (s, none)
    | .ok rcnt =>
      if rcnt + count ≤ i.wcnt.toNat then (lost s, none)
      else
        let k := i.wcnt.toNat + 1
        let bytes := f.bytes k vif s.ns
        match s.writeVirtual vif (faultSlot base count k) 64 bytes.toNat with
        | .error _ => (s, none)
        | .ok s1 =>
          match s1.writeVirtual vif base 8 k with
          | .error _ => (s, none)
          | .ok s2 =>
            let record : FaultRecord :=
              { seq := k, bytes, disp := f.disp, acts := f.acts, sig := f.sig, ctx := f.ctx, request := f.request, answered := false, lapsed := false }
            let i2 := s2.iface vif
            (s2.setIface vif { i2 with wcnt := BitVec.ofNat 64 k, records := i2.records ++ [record] }, some k)

/-- Write a record, and the interrupt record of a HOLD or STOP (R350). -/
def State.recordFault (s : State) (vif : Nat) (f : FaultInfo) : State × Option Nat :=
  let (s, k) := s.writeFault vif f
  if k.isSome ∧ (f.disp = 1 ∨ f.disp = 2) then (s.interrupt vif 0 true, k) else (s, k)

/-- A REPORT, which stops nothing. -/
def State.report (s : State) (vif : Nat) (f : FaultInfo) : State := (s.recordFault vif f).1

/-- The record of a number. -/
def Iface.record (f : Iface) (k : Nat) : Option FaultRecord := f.records.find? (·.seq = k)

/-- A further fault joins a record: MORE rises, and the record is rewritten while it is among the last 2^ESZ (R348). -/
def State.joinFault (s : State) (vif k : Nat) : State :=
  let i := s.iface vif
  let (base, count) := i.faultArea
  match i.record k with
  | none => s
  | some r =>
    let more := (r.bytes.extractLsb' 448 16).toNat
    let bytes := if more < 0xFFFF then r.bytes + (1 <<< 448) else r.bytes
    let s := s.setIface vif { i with records := i.records.map fun x => if x.seq = k then { x with bytes } else x }
    if i.wcnt.toNat < k + count ∧ base ≠ 0 then
      (s.writeVirtual vif (faultSlot base count k) 64 bytes.toNat).toOption.getD s
    else s

/-- A completion write or add that failed (R37, R84, R179): a completion-write record names the address. -/
def State.completionFailed (s : State) (vif unit sig aux : Nat) (addr : Word) : State :=
  s.report vif { FaultInfo.report 0x1C unit aux addr.toNat with sig, time := if sig = 0 then 0 else (s.sig sig).time }

/-- The CDONE add of a finished operation (R84), if it names a completion object. -/
def State.completionAdd (s : State) (vif unit sig : Nat) (cdone : Word) : State :=
  if cdone = 0 then s
  else
    match s.addOne vif cdone with
    | .ok s => s
    | .error _ => s.completionFailed vif unit sig 0 cdone

end Sys2Proof.Machine
end

