-- ==== Sys2Proof/Machine/StreamBlock.lean ====
section
/-!
DEFINITION. Stream parameter blocks (R79, R80), the order of a stream's runs (R81), its granules and their elements (R82), storage
formats at the ports (R76, R77), and the checks of STRM (R176, R344).
-/

namespace Sys2Proof.Machine

/-- A stream parameter block (R79, R80). -/
structure Block where
  base : Word
  cdone : Word
  cnt0 : Nat
  /-- LEV1 to LEV3: count and signed stride -/
  levels : List (Nat × Int)
  ixaddr : Word
  mode : Nat
  nlev : Nat
  rfmt : BitVec 4
  rs : Bool
  buf : Nat
  row0 : Nat
  rows : Nat
  col0 : Nat
  cols : Nat
  aop : Nat
  wide : Bool
  frow : Nat
  fcol : Nat
  ridx : Nat
  keysel : Word
  deriving DecidableEq, Repr

/-- Word k of a 64-byte block. -/
def blockWord (v : Vec) (k : Nat) : Word := v.extractLsb' (64 * k) 64

def Block.ofVec (v : Vec) : Block :=
  let ctl := blockWord v 6
  let level (k : Nat) : Nat × Int :=
    let w := blockWord v k
    ((w.extractLsb' 0 32).toNat, (w.extractLsb' 32 32).toInt)
  { base := blockWord v 0, cdone := blockWord v 1, cnt0 := ((blockWord v 2).extractLsb' 0 32).toNat
    levels := [level 3, level 4, level 5], ixaddr := blockWord v 5
    mode := (ctl.extractLsb' 0 3).toNat, nlev := (ctl.extractLsb' 3 2).toNat, rfmt := ctl.extractLsb' 5 4, rs := ctl.getLsbD 9
    buf := (ctl.extractLsb' 10 3).toNat, row0 := (ctl.extractLsb' 13 4).toNat, rows := (ctl.extractLsb' 17 4).toNat + 1
    col0 := (ctl.extractLsb' 21 4).toNat, cols := (ctl.extractLsb' 25 4).toNat + 1, aop := (ctl.extractLsb' 29 4).toNat
    wide := ctl.getLsbD 33, frow := (ctl.extractLsb' 34 4).toNat, fcol := (ctl.extractLsb' 38 5).toNat
    ridx := ((blockWord v 7).extractLsb' 0 16).toNat, keysel := blockWord v 7 }

/-- Gather, scatter and atomic-scatter. -/
def Block.indexed (b : Block) : Bool := b.mode == 2 || b.mode == 3 || b.mode == 4
def Block.loads (b : Block) : Bool := b.mode == 0 || b.mode == 2

/-- The permission a stream needs of its range and pages (R75). -/
def Block.need (b : Block) : Need := if b.loads then .rd else if b.mode = 4 then .at else .wr

/-! ### Storage formats (R76) -/

def packedSfmt (sfmt : BitVec 8) : Bool := sfmt.getLsbD 4
def mxSfmt (sfmt : BitVec 8) : Bool := sfmt.getLsbD 5
def elementSfmt (sfmt : BitVec 8) : BitVec 4 := sfmt.extractLsb' 0 4

/-- Bits of one storage element. -/
def storageWidth (sfmt : BitVec 8) : Nat := if packedSfmt sfmt then 6 else laneWidth (elementSfmt sfmt)

/-- Whether SFMT is a code of R76. -/
def sfmtValid (sfmt : BitVec 8) : Bool :=
  let e := elementSfmt sfmt
  (sfmt.extractLsb' 6 2).toNat = 0 && (if packedSfmt sfmt then e == 1 || e == 2 else if mxSfmt sfmt then isMxFormat e else true)

/-- RNE with saturation, as the ports round (R77, R110). -/
def portRounding : Rounding := ⟨0, 0, false⟩

/-- Conversion of one element between two formats at a port. -/
def portConvert (src dst : BitVec 4) (x : Nat) : Nat := convertTo dst portRounding (readFormat src x)

/-! ### Runs and granules (R81, R82) -/

/-- Levels in force: those above NLEV have count 1 and stride 0. -/
def Block.level (b : Block) (k : Nat) : Nat × Int := if k ≤ b.nlev then b.levels.getD (k - 1) (1, 0) else (1, 0)

def Block.runs (b : Block) : Nat := (b.level 1).1 * (b.level 2).1 * (if b.indexed then 1 else (b.level 3).1)

/-- The offset of run k from BASE, by the loop of R81; an indexed run adds its index times STRIDE1. -/
def Block.offset (b : Block) (k index : Nat) : Word :=
  let (c1, s1) := b.level 1
  let (c2, s2) := b.level 2
  let i1 := k % c1
  let i2 := k / c1 % c2
  if b.indexed then BitVec.ofInt 64 (i2 * s2 + index * s1)
  else BitVec.ofInt 64 ((k / (c1 * c2)) * (b.level 3).2 + i2 * s2 + i1 * s1)

/-- G, the granules of a run. -/
def Block.granules (b : Block) : Nat := (b.cnt0 * laneWidth b.rfmt + 511) / 512

/-- P, the elements of the window. -/
def Block.places (b : Block) : Nat := b.rows * b.cols

/-- The local element of the folio at place p of the window. -/
def Block.placeAt (b : Block) (p : Nat) : Nat × Nat := (b.row0 + p / b.cols % b.rows, b.col0 + p % b.cols)

/-- The place of a local element of the folio, if the window holds it. -/
def Block.placeOf (b : Block) (i j : Nat) : Option Nat :=
  if b.row0 ≤ i ∧ i < b.row0 + b.rows ∧ b.col0 ≤ j ∧ j < b.col0 + b.cols then some ((i - b.row0) * b.cols + (j - b.col0)) else none

/-- Granules of scales of a run under MX storage, one byte per block of 32, padded to whole granules (R77). -/
def Block.scaleGranules (b : Block) (sfmt : BitVec 8) : Nat := if mxSfmt sfmt then (b.cnt0 / 32 + 63) / 64 else 0

/-- Granules dealt to place p out of n per run. -/
def dealt (n places p : Nat) : Nat := (n + places - 1 - p) / places

/-! ### Pieces of a run (R78): one memory unit, or the part of one that the run covers -/

/-- A piece: address, offset in the run's bytes, byte count, and whether it holds scales. -/
structure Piece where
  va : Word
  off : Nat
  len : Nat
  scale : Bool
  deriving DecidableEq, Repr

/-- The pieces of bytes a to a + n − 1, unit by unit. -/
def piecesFrom (scale : Bool) : Nat → Word → Nat → Nat → List Piece
  | 0, _, _, _ => []
  | fuel + 1, a, off, n =>
    if n = 0 then []
    else
      let len := min n (64 - a.toNat % 64)
      ⟨a, off, len, scale⟩ :: piecesFrom scale fuel (a + BitVec.ofNat 64 len) (off + len) (n - len)

/-- Bytes of a run in storage. -/
def Block.runBytes (b : Block) (sfmt : BitVec 8) : Nat := b.cnt0 * storageWidth sfmt / 8

/-- Element index of an address of a range, counted from VBASE (R76). -/
def elementIndex (r : Range) (sfmt : BitVec 8) (a : Word) : Nat := (a.toNat - r.vbase.toNat) * 8 / storageWidth sfmt

/-- The pieces of a run that begins at address a: its data, then its scales. -/
def Block.pieces (b : Block) (r : Range) (a : Word) : List Piece :=
  let n := b.runBytes r.sfmt
  let data := piecesFrom false (n / 64 + 2) a 0 n
  if mxSfmt r.sfmt then
    let s := r.scva + BitVec.ofNat 64 (elementIndex r r.sfmt a / 32)
    data ++ piecesFrom true (b.cnt0 / 2048 + 2) s 0 (b.cnt0 / 32)
  else data

/-! ### Between storage bytes and granules (R77, R82) -/

/-- Bits `lo` to `lo + w − 1` of a number. -/
def bitsOf (x lo w : Nat) : Nat := x / 2 ^ lo % 2 ^ w

/-- Granule g of a run, from the run's storage bytes. -/
def Block.granuleOf (b : Block) (sfmt : BitVec 8) (bytes g : Nat) : Vec :=
  let w := laneWidth b.rfmt
  let ws := storageWidth sfmt
  lanesOf w fun i =>
    let e := g * (512 / w) + i
    if e < b.cnt0 then portConvert (elementSfmt sfmt) b.rfmt (bitsOf bytes (ws * e) ws) else 0

/-- Whether a stream moves register lanes as they are: an egress (R77), and an atomic-scatter whose formats are one, as R97 operates on the lane. -/
def Block.moves (b : Block) (sfmt : BitVec 8) : Bool := b.mode == 5 || (b.mode == 4 && sfmt == b.rfmt.setWidth 8)

/-- The storage bytes that hold granule g of a run: offset and count. -/
def Block.granuleBytes (b : Block) (sfmt : BitVec 8) (g : Nat) : Nat × Nat :=
  let per := 512 / laneWidth b.rfmt
  let ws := storageWidth sfmt
  let n := min per (b.cnt0 - g * per)
  (g * per * ws / 8, (n * ws + 7) / 8)

/-! ### The checks of STRM (R76, R77, R79, R80, R344) -/

/-- Whether every run starts at an element index that is a multiple of 32, as MX storage asks (R81): BASE does, and every stride
keeps it. The runs of an indexed mode are not checked. (log 82, DESIGN CHOICE) -/
def Block.runsAligned (b : Block) (r : Range) : Bool :=
  let bytes := 4 * storageWidth r.sfmt
  !mxSfmt r.sfmt || b.indexed ||
    ((b.base - r.vbase).toNat % bytes == 0 &&
      [1, 2, 3].all fun k => (b.level k).1 ≤ 1 || (b.level k).2 % (bytes : Int) == 0)

/-- The byte offset of the first field that refuses a block, if one does; `addressing` is the range's addressing format (R289). What rests on the
range's SFMT is judged only where the entry gives one (R75). A stride that breaks the alignment of MX runs is named by BASE. (log 82, DESIGN
CHOICE) -/
def Block.refused (v : Vec) (r : Range) (addressing : BitVec 8) : Option Nat :=
  let b := Block.ofVec v
  let ctl := blockWord v 6
  let sfmt := r.sfmt
  let ws := storageWidth sfmt
  let known := !r.bad && sfmtValid sfmt
  let levelBad (k : Nat) : Bool := k ≤ b.nlev && !(b.indexed && k == 3) && (b.levels.getD (k - 1) (1, 0)).1 == 0
  let aopBad := if b.mode = 4 then 11 < b.aop || b.aop == 9 || (9 < b.aop && b.wide) else b.aop != 0
  let cntBad := b.cnt0 == 0 || ((blockWord v 2).extractLsb' 32 32).toNat != 0
    || (known && (b.cnt0 * ws % 8 != 0 || (packedSfmt sfmt && b.cnt0 % 4 != 0) || (mxSfmt sfmt && b.cnt0 % 32 != 0)))
  let ctlBad := 5 < b.mode || (ctl.extractLsb' 43 21).toNat != 0 || (b.indexed && 2 < b.nlev) || 16 < b.row0 + b.rows
    || 16 < b.col0 + b.cols || aopBad
    || (known && ((mxSfmt sfmt && (!b.loads || b.rfmt != elementSfmt sfmt || 6 < b.buf)) || (b.mode == 5 && sfmt != b.rfmt.setWidth 8)))
  let rangeBad := ((blockWord v 7).extractLsb' 49 15).toNat != 0 || r.bad || !sfmtValid sfmt || (b.indexed && addressing != sfmt)
  ([(0x00, known && !b.runsAligned r), (0x08, b.cdone.toNat % 8 != 0), (0x10, cntBad), (0x18, levelBad 1), (0x20, levelBad 2),
    (0x28, levelBad 3 || (b.indexed && b.ixaddr.toNat % 4 != 0)), (0x30, ctlBad), (0x38, rangeBad)].find? (·.2)).map (·.1)

/-- Key of a context within its signature: the folio's place, row-major, and the handle. -/
def ctxKey (wd i j h : Nat) : Nat := (i * wd + j) * 16 + h

end Sys2Proof.Machine
end

