-- ==== Sys2Proof/Machine/Ops.lean ====
section
/-!
DEFINITION. The shared operations of the meanings: taking a fault in an element, at the spine or for a request, and returning from one
(R352 to R355, R365), performing a slot in the element in focus (R126, R127), and the lead spine's registers and slots (R128, R157, R158).
-/

namespace Sys2Proof.Machine

/-! ### Where a signature lies (R9, R19, R22) -/

/-- Die boundaries between element (0,0) and element (r,c). -/
def Sig.boundaries (g : Sig) (r c : Nat) : Nat :=
  ((16 * g.row0 + r) / 64 - 16 * g.row0 / 64) + ((16 * g.col0 + c) / 128 - 16 * g.col0 / 128)

/-- E(n,r,c) − I(n). -/
def Sig.delay (g : Sig) (r c : Nat) : Nat := 16 + r + c + 6 * g.boundaries r c

/-- E − I at the south-east corner. -/
def Sig.lastDelay (g : Sig) : Nat := g.delay (16 * g.ht - 1) (16 * g.wd - 1)

/-- Whether the south-east corner has executed every word emitted. -/
def Sig.emptied (g : Sig) : Bool := g.flight.all fun w => w.n + g.lastDelay < g.time

/-- Whether a launch that ends by fault has drained: its streams and copies issue nothing more, and nothing more lands (R353, R355). -/
def Sig.cutOff (g : Sig) : Bool := g.byFault && g.emptied

/-- The span of R22. -/
def Sig.span (g : Sig) : Nat :=
  (16 * g.ht - 1) + (16 * g.wd - 1) + 6 * g.boundaries (16 * g.ht - 1) (16 * g.wd - 1)

/-- Whether the signature is frozen in the current wall cycle (R48). -/
def Sig.frozen (g : Sig) : Bool :=
  g.held || g.waves.any (·.inForce) || (match g.stop with | some st => st.inForce | none => false)

/-- The elements of a signature, row-major. -/
def Sig.places (g : Sig) : List (Nat × Nat) :=
  (List.range (16 * g.ht)).flatMap fun r => (List.range (16 * g.wd)).map fun c => (r, c)

/-- Element (r,c) of a signature. -/
def State.elementOf (s : State) (sig r c : Nat) : Element := s.element (16 * (s.sig sig).row0 + r) (16 * (s.sig sig).col0 + c)

def State.setElementOf (s : State) (sig r c : Nat) (e : Element) : State :=
  s.setElement (16 * (s.sig sig).row0 + r) (16 * (s.sig sig).col0 + c) e

/-- The folio of a signature that holds element (r,c). -/
def State.folioOf (s : State) (sig r c : Nat) : Folio := s.folio ((s.sig sig).row0 + r / 16) ((s.sig sig).col0 + c / 16)

/-- The current generation of a signature's spine (R61). -/
def State.genOf (s : State) (sig : Nat) : Gen := (s.folio (s.sig sig).row0 (s.sig sig).col0).gen

/-- A folio's active plane. -/
def Folio.active (f : Folio) : Option (Nat × Plane) := f.planes.find? fun p => p.2.state = .active

/-- The role number of an element (R147). -/
def State.roleOf (s : State) (sig r c : Nat) : BitVec 2 :=
  match (s.folioOf sig r c).active with
  | some (_, p) => p.roles.extractLsb' (2 * (16 * (r % 16) + c % 16)) 2
  | none => 0

/-- Elements of a signature that hold anything, with their signature coordinates. -/
def State.busyPlaces (s : State) (sig : Nat) : List (Nat × Nat) :=
  let g := s.sig sig
  s.elements.filterMap fun (k, _) =>
    let r := k / 384
    let c := k % 384
    if 16 * g.row0 ≤ r ∧ r < 16 * (g.row0 + g.ht) ∧ 16 * g.col0 ≤ c ∧ c < 16 * (g.col0 + g.wd) then
      some (r - 16 * g.row0, c - 16 * g.col0)
    else none

/-- The signature's elements after a change of each that holds anything. -/
def State.mapElements (s : State) (sig : Nat) (f : Element → Element) : State :=
  (s.busyPlaces sig).foldl (fun s (r, c) => s.setElementOf sig r c (f (s.elementOf sig r c))) s

/-- Stream context `key` of a signature. -/
def State.ctx (s : State) (sig key : Nat) : Ctx := (s.sig sig).ctxs.get Ctx.free key

def State.setCtx (s : State) (sig key : Nat) (c : Ctx) : State :=
  let g := s.sig sig
  s.setSig sig { g with ctxs := g.ctxs.set Ctx.free key c }

/-- The device folio of a context's port. -/
def Sig.ctxFolio (g : Sig) (key : Nat) : Nat × Nat := (g.row0 + key / 16 / g.wd, g.col0 + key / 16 % g.wd)

/-! ### The lead spine's registers (R51, R128) -/

/-- Source G[i] of the word being performed: as before slot A; g0 reads zero. -/
def Spine.source (p : Spine) (i : Nat) : Word := if i = 0 then 0 else p.before.g.get 0 i

/-- G[i] := x; g0 discards. -/
def Spine.setG (p : Spine) (i : Nat) (x : Word) : Spine := if i = 0 then p else { p with g := p.g.set 0 i x }

/-- An occurrence of a capture event (R191). -/
def Spine.capture_ (p : Spine) (event by_ : Nat) : Spine :=
  let c := p.capture
  if !c.on || event = 0 then p
  else
    let counters := (List.range 8).foldl (fun (t : Tab Word) i =>
      if c.events.get 0 i = event then t.set 0 i (t.get 0 i + BitVec.ofNat 64 by_) else t) c.counters
    { p with capture := { c with counters } }

/-- The spine of the signature in focus. -/
def State.here (s : State) : Spine := s.spineOf s.focus.sig
def State.setHere (s : State) (p : Spine) : State := s.setSpineOf s.focus.sig p
def State.count (s : State) (sig event by_ : Nat) : State := s.setSpineOf sig ((s.spineOf sig).capture_ event by_)

/-- The code base of a signature (R161). -/
def Sig.code (g : Sig) : Word := recordWord g.record 0

/-- The code offset of the word at the spine's pc. -/
def State.codeOffset (s : State) (sig : Nat) : Nat := ((s.spineOf sig).pc - (s.sig sig).code).toNat % 2 ^ 32

/-! ### The notes of a fault stop (R352, R353) -/

/-- Slot numbers of a record (R349). -/
def slotCode (slotB : Bool) : Nat := if slotB then 2 else 1

/-- The record of an element's fault. -/
def FaultNote.info (n : FaultNote) (sig disp : Nat) : FaultInfo :=
  { code := n.code, disp, acts := if disp = 2 then 3 else 0, unit := 1, slot := n.slot, sig, offset := n.offset.toNat
    place := some (n.row, n.col), time := n.time, addr := n.addr.toNat, aux := n.aux.toNat, more := n.more, handle := 0, ctxGen := 0
    ctx := 0, request := 0, seen := some n.seen }

/-- Whether a fault comes before another: by T, then r, then c. -/
def FaultNote.earlier (a b : FaultNote) : Bool :=
  a.time < b.time || (a.time == b.time && (a.row < b.row || (a.row == b.row && a.col < b.col)))

/-- Add a fault to the notes of a stop: one note for each code, for the earliest, and MORE counts the others. -/
def addNote (n : FaultNote) : List FaultNote → List FaultNote
  | [] => [n]
  | m :: rest =>
    if m.code = n.code then
      (if n.earlier m then { n with more := n.more + m.more + 1 } else { m with more := m.more + n.more + 1 }) :: rest
    else m :: addNote n rest

/-- The faults noted for a launch that ends by fault are recorded with DISP END, one for each code (R353, R363; log 50, DEDUCED). -/
def State.flushNotes (s : State) (sig : Nat) : State :=
  let g := s.sig sig
  g.notes.foldl (fun s n => s.report g.vif (n.info sig 3)) (s.setSig sig { g with notes := [] })

/-- A signature as its launch begins to end by fault: a stop that has not taken effect freezes nothing, and its faults are noted with those that the
drain still raises. -/
def Sig.doomed (g : Sig) : Sig :=
  { g with
    status := .draining, byFault := true, stop := none
    notes := match g.stop with | some st => st.notes.foldl (fun l n => addNote n l) g.notes | none => g.notes }

/-- The launch begins to end by fault (R355): a key operation it still waits for is not made. -/
def State.beginEnd (s : State) (sig : Nat) : State :=
  let s : State := { s with serviceQueue := s.serviceQueue.filter (· != .key sig) }
  let s := s.setSpineOf sig { s.spineOf sig with phase := .ended, waiting := false, seamRequest := none }
  s.setSig sig (s.sig sig).doomed

/-! ### Ending by fault (R355) -/

/-- In-flight words, pipelines and delay lines are discarded unexecuted. -/
def State.discardPipelines (s : State) (sig : Nat) : State :=
  let s := s.mapElements sig fun e => { e with pending := [], matrix := [], delay := [], ports := [] }
  s.setSig sig { s.sig sig with flight := [], votes := [] }

/-- The launch ends by fault where an answer, or a record that is not written, ends it: no further word is emitted, and a frozen signature
discards what is in flight. A stop that was in force no longer waits for answers. (log 50, DEDUCED) -/
def State.endByFault (s : State) (sig : Nat) : State :=
  (if (s.sig sig).frozen then s.discardPipelines sig else s).beginEnd sig

/-! ### Taking a fault in an element (R352) -/

/-- cap.INTR rises when a wave or a stop strikes a signature that captures (R191, R385). -/
def Spine.interrupted (p : Spine) : Spine :=
  if p.capture.on then { p with capture := { p.capture with intr := p.capture.intr + 1 } } else p

/-- A fault stop is in force from now on: its trace record carries cause 4. -/
def State.stopBegins (s : State) (sig : Nat) : State :=
  (s.setSpineOf sig (s.spineOf sig).interrupted).traceSig sig 0x0003 1 4

/-- A fault stop takes effect: the signature freezes, and one record is written for each code; a fault whose record is not written counts
as answered with ABORT (R347). -/
def State.beginStop (s : State) (sig : Nat) (notes : List FaultNote) : State :=
  let s := s.setSig sig { s.sig sig with stop := some { from_ := s.cycle, notes := [], inForce := true, lifts := none } }
  let (s, all) := notes.foldl (fun (acc : State × Bool) n =>
    let (s, k) := acc.1.recordFault (acc.1.sig sig).vif (n.info sig 2)
    (s, acc.2 && k.isSome)) (s.stopBegins sig, true)
  if all then s else s.endByFault sig

/-- Record a STOP fault of a frozen signature at once: it joins the stop in force, or starts one, with the faults that wait for theirs; with
no record written the launch ends (R347). -/
def State.stopRecord (s : State) (sig : Nat) (n : FaultNote) : State :=
  let g := s.sig sig
  match g.stop with
  | some st =>
    if st.inForce then
      match s.recordFault g.vif (n.info sig 2) with
      | (s, none) => s.endByFault sig
      | (s, some _) => s.setSig sig { s.sig sig with stop := some { st with lifts := none } }
    else s.beginStop sig (st.notes ++ [n])
  | none => s.beginStop sig [n]

/-- Taking an element fault: a stop 12 cycles on for a running signature; at once while it is frozen; a note for the end of the launch
when it is already ending by fault (R353). -/
def State.takeElementFault (s : State) (sig : Nat) (n : FaultNote) : State :=
  let g := s.sig sig
  if g.byFault then s.setSig sig { g with notes := addNote n g.notes }
  else if g.frozen then s.stopRecord sig n
  else
    let st := g.stop.getD { from_ := s.cycle + 12, notes := [], inForce := false, lifts := none }
    s.setSig sig { g with stop := some { st with notes := addNote n st.notes } }

/-- The fault of the word in focus: its element is as before the word, and neither slot is performed; the word counts as executed all the
same (R243). SLOT is 0 for the guard. -/
def State.elementFault (s : State) (f : ElemFault) (slot : Nat) : State :=
  let c := s.focus
  let s := s.setElementOf c.sig c.row c.col (c.before.count 1 1)
  let s := { s with focus := { c with suppressed := true, vote := none } }
  s.takeElementFault c.sig
    { code := f.code, aux := BitVec.ofNat 64 f.aux, addr := BitVec.ofNat 64 f.addr, slot, offset := c.offset
      row := c.row, col := c.col, time := (s.sig c.sig).time, more := 0, seen := s.ns }

/-! ### Performing a slot in the element in focus -/

/-- What the instruction sees around its element. -/
def State.env (s : State) : ElemEnv :=
  let c := s.focus
  let g := s.sig c.sig
  { n := c.n, time := g.time, mode := c.mode, bcast := c.bcast, lanes := c.lanes, gen := (s.folioOf c.sig c.row c.col).gen, trap := g.gmode
    row := c.row, col := c.col, width := 16 * g.wd, height := 16 * g.ht, devRow := 16 * g.row0 + c.row
    devCol := 16 * g.col0 + c.col, role := s.roleOf c.sig c.row c.col, holdCount := g.hold }

/-- Perform an element instruction at the focus: the element after it and its answer, or its fault taken. A word of which a slot has
faulted performs nothing more. -/
def State.perform {α : Type} (s : State) (m : ElemEnv → EM α) (answer : α → State → State) : State :=
  if s.focus.suppressed then s
  else
    match m s.env (s.elementOf s.focus.sig s.focus.row s.focus.col) with
    | .ok (x, e) => answer x (s.setElementOf s.focus.sig s.focus.row s.focus.col e)
    | .error f => s.elementFault f (slotCode s.focus.slotB)

/-- The step of an element instruction. -/
def performSlot (s : State) (m : ElemEnv → EM Unit) : Host.Outcome State Fault Refusal :=
  .next (s.perform m fun _ s => s)

/-! ### Slots of a spine word (R128, R157, R158) -/

/-- The slot being performed is done; the next one is slot B, or the word is left. -/
def State.slotDone (s : State) : State :=
  let p := s.here
  let phase := match p.phase with | .slotA => .slotB | _ => .leave
  s.setHere { p with phase, waiting := false, progress := 0, answer := none }

/-- The slot being performed waits: one idle slot more (R158). -/
def State.slotWait (s : State) : State := s.setHere ({ s.here with waiting := true }.capture_ 8 1)

def State.writeG (s : State) (i : BitVec 5) (x : Word) : State := s.setHere (s.here.setG i.toNat x)
def State.readG (s : State) (i : BitVec 5) : Word := s.here.source i.toNat

/-- A register result, and the slot is done. -/
def spineResult (s : State) (gd : BitVec 5) (x : Word) : Host.Outcome State Fault Refusal := .next ((s.writeG gd x).slotDone)

/-- The sources of a spine word, as they stand before slot A (R128). -/
def State.sources (s : State) (sig : Nat) : Sources :=
  let p := s.spineOf sig
  { g := p.g, gen := s.genOf sig, mode := p.mode, progCnt := p.progCnt, barPh := p.barPh, region := p.region, vt := p.vt, capOn := p.capture.on
    capIntr := p.capture.intr, cycle := s.cycle, time := (s.sig sig).time }

/-- A control transfer at the end of the word, after idle slots; it counts as event 7 (R191; log 97, DESIGN CHOICE). -/
def State.transfer (s : State) (target : Word) (idles : Nat) : State :=
  s.setHere ({ s.here with target := some target, idles := s.here.idles + idles }.capture_ 7 1)

/-! ### Taking a fault at the spine (R353) -/

/-- Taking a spine fault: END ends the launch, STOP waits for its answer. `phase` is the phase of a stopped spine. -/
def State.takeSpineFault (s : State) (sig code disp acts slot aux addr : Nat) (phase : SpinePhase) : State :=
  let g := s.sig sig
  let info : FaultInfo :=
    { code, disp, acts, unit := 0, slot, sig, offset := s.codeOffset sig, place := none, time := g.time, addr, aux, more := 0
      handle := 0, ctxGen := 0, ctx := 0, request := 0, seen := none }
  if disp = 2 then
    match s.recordFault g.vif info with
    | (s, none) => s.endByFault sig
    | (s, some _) => s.setSpineOf sig { s.spineOf sig with phase, waiting := false, answer := none, progress := 0 }
  else
    (s.report g.vif info).beginEnd sig

/-- The slot being performed raises an END fault. -/
def State.slotEnd (s : State) (code aux addr : Nat) : State :=
  s.takeSpineFault s.focus.sig code 3 0 (slotCode (s.here.phase != .slotA)) aux addr .ended

/-- The slot being performed raises a STOP fault. -/
def State.slotStop (s : State) (code acts aux addr : Nat) : State :=
  let b := s.here.phase != .slotA
  s.takeSpineFault s.focus.sig code 2 acts (slotCode b) aux addr (.faulted b)

/-- illegal-operand (R344): opcode in AUX bits 7:0, slot in bit 8. -/
def State.illegalOperand (s : State) (opcode : Nat) : State :=
  s.slotEnd 0x06 (opcode + (if s.here.phase = .slotA then 0 else 256)) 0

/-- The answers that a STOP of a failed request check accepts: key faults ABORT and RESUME, the others ABORT and RETRY (R344, R368). -/
def stopActs (code : Nat) : Nat := if code = 0x0A then 3 else 5

/-- A block read or a spine access fails a check of R364. -/
def State.slotCheckFault (s : State) (f : CheckFault) (addr : Word) : State := s.slotStop f.code (stopActs f.code) f.aux addr.toNat

/-! ### Faults of requests (R354, R365) -/

/-- The signature and context a request belongs to. -/
def ReqSource.owner : ReqSource → Nat × Nat
  | .spine sig => (sig, 0)
  | .readAhead sig => (sig, 0)
  | .stream sig ctx _ => (sig, ctx)
  | .index sig ctx _ => (sig, ctx)

/-- The unanswered HOLD record that a fault of the same context, code and 64 KiB unit joins. (log 43, DEDUCED) -/
def State.openHold (s : State) (vif sig ctx code : Nat) (addr : Word) : Option Nat :=
  ((s.iface vif).records.find? fun r =>
    r.disp == 1 && !r.answered && r.sig == sig && r.ctx == ctx && (r.bytes.extractLsb' 64 8).toNat == code
      && (r.bytes.extractLsb' (256 + 16) 48) == addr.extractLsb' 16 48).map (·.seq)

/-- Taking a HOLD fault: it joins an open record or has one written; its number, or nothing when the fault counts as answered with
ABORT because no record was written (R347). A key-domain record, class 6 and a destroyed world key accept only ABORT. -/
def State.takeHold (s : State) (vif sig ctx code aux : Nat) (addr : Word) (gen time : Nat) : State × Option Nat :=
  match s.openHold vif sig ctx code addr with
  | some k => (s.joinFault vif k, some k)
  | none =>
    let acts := if code = 0x0C ∨ code = 0x0A ∨ (code = 0x18 ∧ aux = 6) then 1 else 5
    s.recordFault vif
      { code, disp := 1, acts, unit := if sig = 0 then 4 else 2, slot := 3, sig, offset := if sig = 0 then 0 else (s.ctx sig ctx).code.toNat
        place := none, time, addr := addr.toNat, aux, more := 0, handle := if sig = 0 then 0 else ctx % 16, ctxGen := gen, ctx
        request := 0, seen := none }

/-- A REPORT of a port for a stream context and cause, with T as given: the first writes a record, the others join it (R371, R376). -/
def State.portReport (s : State) (sig key code why aux addr time : Nat) : State :=
  let g := s.sig sig
  let c := s.ctx sig key
  let cause := code + why * 256
  match c.reports.find? (·.1 = cause) with
  | some (_, k) => s.joinFault g.vif k
  | none =>
    let info : FaultInfo :=
      { code, disp := 0, acts := 0, unit := 2, slot := 3, sig, offset := c.code.toNat, place := none, time, addr, aux, more := 0
        handle := key % 16, ctxGen := c.gen.toNat, ctx := key, request := 0, seen := none }
    match s.recordFault g.vif info with
    | (s, some k) => s.setCtx sig key { s.ctx sig key with reports := (s.ctx sig key).reports ++ [(cause, k)] }
    | (s, none) => s.setCtx sig key { s.ctx sig key with reports := (s.ctx sig key).reports ++ [(cause, 0)] }

end Sys2Proof.Machine
end

