-- ==== Sys2Proof/Machine/Stops.lean ====
section
/-!
DEFINITION. Freeze waves (R41, R48), debug stops and watchpoints (R320 to R322).
-/

namespace Sys2Proof.Machine

/-- Signatures that stand on folios. -/
def State.placedSigs (s : State) : List Nat := (s.sigs.filter fun p => p.2.status != .saved).map (·.1)

/-- The number of a wave's cause in a trace record (R316); a causal delay emits none. -/
def WaveCause.code : WaveCause → Nat
  | .preempt => 1 | .move => 2 | .debug => 3 | .service => 5 | .causal => 0

/-- The wall cycle in which a wave requested now takes effect: 12 cycles on, and at once on a signature already frozen under R24 (R41). -/
def State.waveFrom (s : State) (g : Sig) : Nat := if g.held then s.cycle else s.cycle + 12

/-- A freeze wave is requested; a pre-emption or a move asked for in a debug stop waits for RESUME (R395). -/
def State.requestWave (s : State) (sig : Nat) (cause : WaveCause) : State :=
  let g := s.sig sig
  let parked := s.debugger.stopped && (cause == .preempt || cause == .move)
  s.setSig sig { g with waves := g.waves ++ [{ cause, from_ := s.waveFrom g, inForce := false, parked }] }

/-- The waves that waited for RESUME are requested (R395). -/
def State.unparkWaves (s : State) (sig : Nat) : State :=
  let g := s.sig sig
  s.setSig sig { g with waves := g.waves.map fun w => if w.parked then { w with parked := false, from_ := s.waveFrom g } else w }

/-- A wave of a cause is lifted: a trace record carries the cycles frozen. -/
def State.liftWave (s : State) (sig : Nat) (cause : WaveCause) : State :=
  let g := s.sig sig
  let gone := g.waves.filter fun w => w.cause = cause
  let s := s.setSig sig { g with waves := g.waves.filter fun w => w.cause ≠ cause }
  match gone.find? (·.inForce) with
  | some w => if cause = .causal then s else s.traceSig sig 0x0004 1 (cause.code + (s.cycle - w.from_) * 16)
  | none => s

/-- Whether a STOP record of a signature still awaits its answer; one given in a debug stop counts only after RESUME (R352, R395). -/
def State.stopOpen (s : State) (sig : Nat) : Bool :=
  let v := (s.sig sig).vif
  (s.iface v).records.any fun r =>
    r.disp == 2 && r.sig == sig && !r.lapsed && (!r.answered || s.debugger.answers.any fun x => x.1 == v && x.2.1 == r.seq)

/-! ### Debug stops (R322) -/

/-- ARM of an interface (R320). -/
def Iface.armed (f : Iface) : Bool := f.dbg.getLsbD 1

/-- A debug stop: one at a time, freeze waves on every placed signature, and a 0x0030 record at the die 4 buffer. (log 60, DEDUCED) -/
def State.debugStop (s : State) (vif cause code : Nat) : State :=
  if s.debugger.stopped then s
  else
    let s := { s with debugger := { s.debugger with stopped := true, cause, code, vif, since := s.clock.oscillator } }
    let s := s.placedSigs.foldl (fun s n => s.requestWave n .debug) s
    s.traceDie 4 vif 0 [] 0x0030 3 (code % 2 ^ 16 + cause % 4 * 2 ^ 16)

/-- A stop taken at a word of a signature: its spine emits no further word before RESUME. -/
def State.debugStopAt (s : State) (sig vif cause code : Nat) : State :=
  if s.debugger.stopped then s
  else
    let s := s.debugStop vif cause code
    s.setSpineOf sig { s.spineOf sig with breakpoint := true }

/-- The watchpoint that an access of a kind hits: 0 read, 1 write, 2 atomic (R321). -/
def Iface.watched (f : Iface) (va kind : Nat) : Option Nat :=
  (List.range 4).find? fun i =>
    let lo := f.watch.get 0 (2 * i)
    lo.getLsbD kind && (lo.extractLsb' 6 50).toNat * 64 ≤ va && va < (f.watch.get 0 (2 * i + 1)).toNat

/-- A request of a signature is checked against the watchpoints; it is performed all the same, and a hit during a stop is ignored. -/
def State.watch (s : State) (vif sig va kind : Nat) : State :=
  let f := s.iface vif
  let d := s.debugger
  if !f.armed || d.stopped || d.hits.any (fun h => h.2.2.1 == sig) then s
  else
    match f.watched va kind with
    | none => s
    | some i => { s with debugger := { d with hits := d.hits ++ [(vif, i, sig, 0)] } }

/-- A DMA copy's request stops the device at once. (log 60, DEDUCED) -/
def State.watchDma (s : State) (vif va kind : Nat) : State :=
  let f := s.iface vif
  if !f.armed then s
  else
    match f.watched va kind with
    | none => s
    | some i => s.debugStop vif 3 i

/-- A boundary at which a signature with a hit takes the stop (R322): of the hits made before the stop, the first one is reported (R324), and
none of them stops the device again. Without ARM the signature's hit stops nothing. -/
def State.takeHit (s : State) (sig : Nat) : State :=
  let d := s.debugger
  if d.hits.any fun h => h.2.2.1 == sig then
    if (s.iface (s.sig sig).vif).armed then
      match d.hits.find? fun h => (s.iface h.1).armed with
      | some (vif, i, _, _) => { s with debugger := { d with hits := [] } }.debugStopAt sig vif 2 i
      | none => s
    else { s with debugger := { d with hits := d.hits.filter fun h => h.2.2.1 != sig } }
  else s

/-- A further word of a signature with a hit: the stop comes after 2¹⁶. -/
def State.countHit (s : State) (sig : Nat) : State :=
  let d := s.debugger
  let hits := d.hits.map fun (v, i, g, n) => (v, i, g, if g = sig then n + 1 else n)
  let s : State := { s with debugger := { d with hits } }
  if hits.any fun (_, _, g, n) => g = sig && 2 ^ 16 ≤ n then s.takeHit sig else s

end Sys2Proof.Machine
end

