-- ==== Sys2Proof/Machine/JournalRecords.lean ====
section
/-!
DEFINITION. The journal's transactions: objects (R192, R273), records and their copies (R271, R272, R292), state changes and what follows
from them (R274, R282, R284 to R286, R291, R297).
-/

namespace Sys2Proof.Machine

/-! ### Objects (R192, R273) -/

def objKind (o : Word) : Nat := (o.extractLsb' 60 4).toNat
def objIdx (o : Word) : Nat := (o.extractLsb' 0 16).toNat
def objSig (o : Word) : Nat := (o.extractLsb' 32 16).toNat
def objVif (o : Word) : Nat := (o.extractLsb' 54 6).toNat

def objectWord (kind vif sig idx : Nat) : Word :=
  BitVec.ofNat 64 (kind % 16 * 2 ^ 60 + vif % 64 * 2 ^ 54 + sig % 2 ^ 16 * 2 ^ 32 + idx % 2 ^ 16)

/-- Whether a word is an object identifier of R192. -/
def objectLegal (o : Word) : Bool :=
  (o.extractLsb' 16 44).toNat == 0 &&
    (match objKind o with | 0 => objIdx o == 0 | 1 => objIdx o < 16 | 2 => true | 3 => objIdx o == 0 | _ => false)

/-- The record form of an identifier that a signature uses (R273). -/
def completeObject (vif sig : Nat) (o : Word) : Word := objectWord (objKind o) vif (if objKind o < 2 then sig else 0) (objIdx o)

/-- Whether a word is an object of an interface in record form. -/
def recordObjectLegal (vif : Nat) (o : Word) : Bool :=
  o == completeObject vif (objSig o) o && (match objKind o with | 0 => objIdx o == 0 | 1 => objIdx o < 16 | 2 => true | 3 => objIdx o == 0 | _ => false)

/-! ### Records (R271, R272) -/

def TxState.code : TxState → Nat
  | .proposed => 0 | .applied => 1 | .trial => 2 | .settled => 3 | .reverted => 4 | .aborted => 5 | .withdrawn => 6

/-- Whether a transaction has not reached a final state. -/
def TxState.open_ : TxState → Bool
  | .proposed => true | .applied => true | .trial => true | _ => false

/-- Whether a transaction stands applied and unsettled. -/
def TxState.standing : TxState → Bool
  | .applied => true | .trial => true | _ => false

def Tx.ctl (t : Tx) : Nat :=
  t.cls % 4 + t.state.code * 2 ^ 2 + t.src % 4 * 2 ^ 5 + (if t.rv then 2 ^ 7 else 0) + (if t.deferred then 2 ^ 8 else 0)
    + t.cause % 32 * 2 ^ 9 + t.vif % 64 * 2 ^ 14 + t.proposer % 2 ^ 16 * 2 ^ 20 + t.deps.length % 4 * 2 ^ 36 + t.wlog % 64 * 2 ^ 38
    + t.thresh % 2 ^ 16 * 2 ^ 44

/-- The dependencies as deltas. -/
def Tx.depsWord (t : Tx) : Nat :=
  ((List.range 3).map fun i => match t.deps[i]? with | some d => (t.num - d) % 2 ^ 21 * 2 ^ (21 * i) | none => 0).foldl (· + ·) 0

/-- The 64-byte record as it stands; BEFORE is 0 until the transaction applies. -/
def Tx.record (t : Tx) : Vec :=
  BitVec.ofNat 512 (t.num % 2 ^ 64 + t.object.toNat * 2 ^ 64 + t.ctl * 2 ^ 128 + t.depsWord * 2 ^ 192
    + ((if t.state = .proposed then 0 else t.before % 2 ^ 32) + t.after % 2 ^ 32 * 2 ^ 32) * 2 ^ 256 + t.link % 2 ^ 64 * 2 ^ 320
    + (t.brate % 2 ^ 32 + t.trate % 2 ^ 32 * 2 ^ 32) * 2 ^ 384 + t.stamp % 2 ^ 64 * 2 ^ 448)

/-! ### The list of transactions -/

def State.tx (s : State) (n : Nat) : Option Tx := s.journal.txs.find? (·.num = n)

def State.setTx (s : State) (t : Tx) : State :=
  { s with journal := { s.journal with txs := s.journal.txs.map fun x => if x.num = t.num then t else x } }

def State.updateTx (s : State) (n : Nat) (f : Tx → Tx) : State :=
  { s with journal := { s.journal with txs := s.journal.txs.map fun x => if x.num = n then f x else x } }

def State.addTx (s : State) (t : Tx) : State := { s with journal := { s.journal with txs := s.journal.txs ++ [t] } }

/-- The spare range entry of an FMT (R288). -/
def Tx.spare (t : Tx) : Nat := (((blockWord t.afterBytes 2)).extractLsb' 0 16).toNat

/-- Objects a transaction touches that a pin can name (R269). -/
def Tx.touches (t : Tx) (o : Word) : Bool := o == t.object || (t.cls == 2 && o == objectWord 2 t.vif 0 t.spare)

/-- Whether an unsettled PART holds a folio that it targets or has vacated (R282), or a RESERVE or a queued replay does (R277, R295). A move vacates
its folios as its signature is saved. -/
def State.journalHolds (s : State) (folio : Nat) : Bool :=
  s.journal.txs.any fun t =>
    t.cls == 0 && !t.rv && t.state.open_ && (t.target.contains folio || t.vacated.contains folio)

/-- Whether a range is closed by an FMT (R289): a STRM that names it waits. -/
def State.rangeClosed (s : State) (vif ridx : Nat) : Bool :=
  s.journal.txs.any fun t => t.cls == 2 && !t.rv && t.stage == 1 && t.vif == vif && (objIdx t.object == ridx || t.spare == ridx)

/-- The addressing format of a range (R288). -/
def State.addressing (s : State) (vif ridx : Nat) : BitVec 8 :=
  match s.journal.addressing.find? fun (v, r, _) => v == vif && r == ridx with
  | some (_, _, f) => f
  | none => (Range.ofVec (s.rangeVec vif ridx)).sfmt

/-! ### Copies (R292) -/

/-- Whether a copy passes the filter of a subscription of a signature. -/
def Subscription.passes (u : Subscription) (sig cls : Nat) (object : Word) (report : Bool) : Bool :=
  u.filter.getLsbD cls && (report || !u.filter.getLsbD 4 || (objKind object < 2 && objSig object == sig))

/-- Write a copy to one subscription; the first write that faults ends it (R390). -/
def State.writeCopy (s : State) (sig : Nat) (u : Subscription) (bytes : Vec) : State :=
  let g := s.sig sig
  let size := 2 ^ (u.area.extractLsb' 0 6).toNat
  let slot := (u.area &&& ~~~0x3F) + BitVec.ofNat 64 (64 * (u.count.toNat % size))
  match s.writeVirtual g.vif slot 64 bytes.toNat with
  | .ok s =>
    s.setSig sig { s.sig sig with subs := (s.sig sig).subs.map fun x => if x.number = u.number then { x with count := x.count + 1 } else x }
  | .error _ =>
    (s.setSig sig { g with subs := g.subs.filter (·.number ≠ u.number) }).report g.vif
      { FaultInfo.report 0x1B 5 u.number slot.toNat with sig, time := g.time }

/-- The subscriptions of an interface that a copy goes to: those whose filter it passes. -/
def State.copyTargets (s : State) (vif cls : Nat) (object : Word) (report : Bool) : List (Nat × Nat) :=
  (s.sigs.filter fun p => p.2.vif == vif).flatMap fun (n, g) =>
    (g.subs.filter fun u => u.passes n cls object report).map fun u => (n, u.number)

/-- A copy of a record is to be written; its NUM is the record's first word. -/
def State.journalCopy (s : State) (vif cls : Nat) (object : Word) (bytes : Vec) (report : Bool) : State :=
  let copy := ((bytes.extractLsb' 0 64).toNat, s.copyTargets vif cls object report, bytes)
  { s with journal := { s.journal with outbox := s.journal.outbox ++ [copy] } }

/-- Insert a copy after those of no greater number. -/
def sortCopy (c : Nat × List (Nat × Nat) × Vec) : List (Nat × List (Nat × Nat) × Vec) → List (Nat × List (Nat × Nat) × Vec)
  | [] => [c]
  | d :: rest => if c.1 < d.1 then c :: d :: rest else d :: sortCopy c rest

/-- One copy is written to each subscription it goes to, if that is still there. -/
def State.deliverCopy (s : State) (c : Nat × List (Nat × Nat) × Vec) : State :=
  c.2.1.foldl (fun s x =>
    match (s.sig x.1).subs.find? fun u => u.number = x.2 with
    | some u => s.writeCopy x.1 u c.2.2
    | none => s) s

/-- The copies of a cycle's changes are written in ascending number, those of one transaction in the order of its changes (R299). -/
def State.writeCopies (s : State) : State :=
  let copies := s.journal.outbox.foldl (fun l c => sortCopy c l) []
  copies.foldl State.deliverCopy { s with journal := { s.journal with outbox := [] } }

/-- The mark of a transaction whose object was a signature that has ended: it is final, and nothing is left to undo (R391). -/
def orphanStage : Nat := 4

/-- A transaction enters a state, and its copy is to be written (R271, R316). -/
def State.enter (s : State) (n : Nat) (f : Tx → Tx) : State :=
  match s.tx n with
  | none => s
  | some t =>
    let t := { f t with stamp := s.ns, stage := if t.stage = orphanStage then orphanStage else 0, broken := false }
    let t := if t.state = .settled then { t with marks := [] } else t
    let s := (s.setTx t).traceDie 4 t.vif 0 [] 0x0020 3 t.num
    s.journalCopy t.vif t.cls t.object t.record false

/-! ### What a change brings with it -/

/-- A withdrawal; the LINK of its copy names the compound revert that caused it, or is 0, and its BEFORE is 0, since it was never applied (R271). -/
def State.withdraw (s : State) (n cause link : Nat) : State :=
  s.enter n fun t => { t with state := .withdrawn, cause, link, before := 0, beforeBytes := 0, vacated := [] }

/-- Whether every dependency of a transaction has settled. -/
def State.depsSettled (s : State) (t : Tx) : Bool :=
  t.deps.all fun d => match s.tx d with | some a => !a.state.standing | none => true

/-- CAUSE 8 when the baseline is shorter than 4,096 measured cycles (R275, R283). -/
def Tx.settleCause (t : Tx) : Nat := if t.noTrial then 0 else if t.baseline.2.2 < 4096 then 8 else 0

/-- Whether a transaction is a member of a compound revert in progress. -/
def State.reverting (s : State) (n : Nat) : Bool := s.journal.reverts.any fun r => r.members.contains n

/-- The CAUSE with which a transaction settles as soon as its dependencies have, if nothing else keeps it: its window is complete, or what ended
it has been noted. -/
def Tx.ripe (t : Tx) : Option Nat :=
  match t.state with
  | .trial => if t.closing.isSome then t.closing else if t.windowDone then some t.settleCause else none
  | .applied => t.closing
  | _ => none

/-- Transactions that are ripe settle as soon as their last dependency has, in number order (R285). -/
def State.settleReady (s : State) : State :=
  (s.journal.txs.map (·.num)).foldl (fun s n =>
    match s.tx n with
    | some t =>
      match t.ripe with
      | some cause => if s.depsSettled t && !s.reverting n then s.enter n fun t => { t with state := .settled, cause } else s
      | none => s
    | none => s) s

/-- A transaction settles with a CAUSE, at once or when its dependencies have settled (R274, R285). -/
def State.settle (s : State) (n cause : Nat) : State := (s.updateTx n fun t => { t with closing := some cause }).settleReady

/-- Whether a PROPOSED move is being applied: the seam has been reached or the freeze asked for, and it completes (R297). -/
def Tx.moving (t : Tx) : Bool := t.state == .proposed && t.cls == 0 && (t.stage == 1 || t.stage == 2)

def State.moving (s : State) (n : Nat) : Bool := match s.tx n with | some t => t.moving | none => false

/-- PROPOSED transactions that would follow on an object are withdrawn when what they would follow is aborted or reverted. -/
def State.withdrawFollowers (s : State) (n : Nat) (object : Word) (link : Nat) : State :=
  (s.journal.txs.filter fun t => t.state == .proposed && t.object == object && n < t.num && !s.moving t.num).foldl
    (fun s t => s.withdraw t.num 3 link) s

/-! ### Dependencies (R284) -/

/-- The replayed transaction before another of its replay on the same object (R295). -/
def State.replayPredecessor (s : State) (t : Tx) : List Nat :=
  ((s.journal.txs.filter fun a => t.replay != 0 && a.replay == t.replay && a.object == t.object && a.num < t.num && !a.rv).map (·.num)).reverse.take 1

/-- Earlier transactions whose after-state a transaction would build on. -/
def State.dependencies (s : State) (t : Tx) : List Nat :=
  let earlier := s.replayPredecessor t
  earlier ++ (s.journal.txs.filter fun a => !earlier.contains a.num &&
      a.num < t.num && a.state.standing && !a.rv &&
      (a.object == t.object || (t.cls == 0 && a.cls == 0 && t.target.any a.vacated.contains)
        || (t.cls == 2 && a.cls == 2 && a.vif == t.vif && a.spare == t.spare))).map (·.num)

/-- Whether at most three dependencies, none too far back, stand against a transaction. -/
def depsRecordable (n : Nat) (ds : List Nat) : Bool := ds.length ≤ 3 && ds.all fun d => n - d < 2 ^ 21

/-- Whether a PROPOSED transaction may apply as soon as its object's seam is reached (R274, R286, R295); one that would depend on a transaction
being reverted, or on a move that is being made, waits until that is done. -/
def State.mayApply (s : State) (t : Tx) : Bool :=
  t.state == .proposed && !t.deferred && s.cycle < t.validUntil
    && !(s.journal.txs.any fun a => a.object == t.object && a.state.standing && !a.rv)
    && !(s.journal.reverts.any fun r => r.objects.contains t.object)
    && depsRecordable t.num (s.dependencies t) && !(s.dependencies t).any s.reverting
    && !(s.journal.txs.any fun a => a.num != t.num && a.moving && t.target.any a.vacated.contains)
    && (t.replay == 0 || !s.journal.txs.any fun a => a.replay == t.replay && a.num < t.num && a.state == .proposed)

/-! ### Compound reverts (R286, R295) -/

/-- Some transactions and everything unsettled that depends on them, directly or through others, in rising order. A PROPOSED one counts when it
would follow a member; a move that is being applied, also when it follows one on its object. -/
def State.dependents (s : State) (roots : List Nat) : List Nat :=
  s.journal.txs.foldl (fun (ms : List Nat) t =>
    let ds := if t.state = .proposed then s.dependencies t else t.deps
    let follows := t.moving && ms.any fun m => (s.tx m).map (·.object) == some t.object
    if roots.contains t.num || (t.state.open_ && !t.rv && (ds.any ms.contains || follows)) then ms ++ [t.num] else ms) []

/-- The state of a transaction, if it exists. -/
def State.txState (s : State) (n : Nat) : Option TxState := (s.tx n).map (·.state)

/-- Whether a transaction's object was a signature that has ended. -/
def State.orphan (s : State) (n : Nat) : Bool := match s.tx n with | some t => t.stage == orphanStage | none => true

/-- Begin a compound revert of members: the PROPOSED ones are withdrawn, save a move that is being applied, and the others wait to be undone, the
latest first; what an earlier compound revert undoes is left to it. (log 37, DEDUCED) -/
def State.beginRevert (s : State) (target : Nat) (ms : List Nat) (cause : Nat) (ofReplay : Bool) : State :=
  let n := s.journal.next
  let s := { s with journal := { s.journal with next := n + 1 } }
  let ms := ms.filter fun m => !s.orphan m && !s.reverting m
  let objects := ms.filterMap fun m => (s.tx m).map (·.object)
  let undo := (ms.filter fun m => s.txState m ≠ some .proposed || s.moving m).reverse
  let s := (ms.filter fun m => s.txState m = some .proposed && !s.moving m).foldl (fun s m => s.withdraw m 3 n) s
  let s := objects.foldl (fun s o => s.withdrawFollowers target o n) s
  let s := (undo.filter fun m => !s.moving m).foldl (fun s m => s.updateTx m fun t => { t with stage := 0, broken := false, failures := 0 }) s
  { s with journal := { s.journal with reverts := s.journal.reverts ++ [{ num := n, target, members := undo, objects, cause, ofReplay }] } }

/-- Revert a transaction: cause 1 by its rate, 2 by force (R283, R287). -/
def State.revert (s : State) (n cause : Nat) : State :=
  if s.reverting n then s else s.beginRevert n (s.dependents [n]) cause false

/-- A compound revert writes its first copy, in state APPLIED, at its first undo (R286); the spec gives its THRESH and WLOG no value. -/
def State.firstCopy (s : State) (r : CompoundRevert) : State :=
  if (s.tx r.num).isSome then s
  else
    match s.tx r.target with
    | none => s
    | some t =>
      let near := r.num - t.num < 2 ^ 21 && !r.ofReplay
      let n : Tx := { t with
        num := r.num, state := .applied, src := if r.ofReplay then 3 else 0, cause := 0, deferred := false, rv := true, proposer := 0
        thresh := Config.choice s.free % 65536, wlog := 12 + Config.choice (s.free + 1) % 21, deps := if near then [t.num] else []
        before := 0, after := 0, link := 0, brate := 0, trate := 0, measuredSig := none, closing := none, marks := [], target := [], vacated := []
        failures := 0, replay := 0 }
      let s := { s with
        free := s.free + 2
        journal := { s.journal with lastApplied := (t.object, r.num) :: s.journal.lastApplied.filter (·.1 ≠ t.object) } }
      (s.addTx n).enter r.num fun t => t

/-- Compound reverts whose members are all final settle (R286, R388). -/
def State.closeReverts (s : State) : State :=
  let done := s.journal.reverts.filter fun (r : CompoundRevert) => r.members.isEmpty
  let s := { s with journal := { s.journal with reverts := s.journal.reverts.filter fun (r : CompoundRevert) => !r.members.isEmpty } }
  done.foldl (fun s r => s.enter r.num fun t => { t with state := .settled, cause := 0 }) s

/-- A member of a compound revert is final: REVERTED once it is undone, or SETTLED after its third failure. -/
def State.memberFinal (s : State) (r : CompoundRevert) (m : Nat) (undone : Bool) : State :=
  let s := s.firstCopy r
  let cause := if !undone then 9 else if r.ofReplay then 15 else if m = r.target then r.cause else 3
  let s := s.enter m fun t => { t with state := if undone then .reverted else .settled, cause, link := r.num }
  let s := { s with journal := { s.journal with reverts := s.journal.reverts.map fun (x : CompoundRevert) =>
    if x.num = r.num then { x with members := x.members.filter (· ≠ m) } else x } }
  s.closeReverts.settleReady

/-- An undo has failed: it is tried again at the object's next seam, and given up after the third failure (R388). -/
def State.undoFailed (s : State) (r : CompoundRevert) (m : Nat) : State :=
  match s.tx m with
  | none => s
  | some t =>
    if t.failures = 2 then s.memberFinal r m false
    else s.updateTx m fun t => { t with failures := t.failures + 1, stage := if t.cls < 2 then 3 else 0, broken := false }

/-- The compound revert that undoes a transaction now. -/
def State.revertOf (s : State) (m : Nat) : Option CompoundRevert := s.journal.reverts.find? fun r => r.members.head? = some m

/-- A replay fails: its members not yet applied are withdrawn; the applied ones, a move that is being applied, and what depends on them are reverted
as one (R286, R295, R297, R391). -/
def State.failReplay (s : State) (id cause : Nat) : State :=
  let mine := s.journal.txs.filter fun t => t.replay == id && !t.rv
  let s := (mine.filter fun t => t.state == .proposed && !t.moving).foldl (fun s t => s.withdraw t.num cause 0) s
  let applied := (s.journal.txs.filter fun t => t.replay == id && !t.rv && (t.state == .settled || t.state.standing || t.moving)).map (·.num)
  let s := { s with journal := { s.journal with replays := s.journal.replays.filter (·.id ≠ id) } }
  match applied with
  | [] => s
  | first :: _ => s.beginRevert first (s.dependents applied) 15 true

/-- A transaction is aborted, and everything is as before it (R387); a replay that it belongs to fails (R295). -/
def State.abort (s : State) (n cause : Nat) : State :=
  match s.tx n with
  | none => s
  | some t =>
    let s := (s.enter n fun t => { t with state := .aborted, cause, before := 0 }).withdrawFollowers n t.object 0
    let s : State := { s with journal := { s.journal with reverts := s.journal.reverts.map fun (x : CompoundRevert) =>
      { x with members := x.members.filter (· ≠ n) } } }
    let s := s.closeReverts
    if t.replay = 0 then s else s.failReplay t.replay 15

/-- Replays none of whose transactions is PROPOSED any more are complete (R294, R295). -/
def State.closeReplays (s : State) : State :=
  let running (r : Replay) : Bool := s.journal.txs.any fun t => t.replay == r.id && t.state == .proposed
  { s with journal := { s.journal with replays := s.journal.replays.filter running } }

/-! ### Pins (R291) -/

/-- Whether some pin defers a transaction. -/
def State.pinned (s : State) (t : Tx) : Bool :=
  s.sigs.any fun (_, g) => g.pins.any fun p => t.touches p.object && p.version.toNat < t.num

/-- DEF of a PROPOSED transaction that is not being applied follows the pins: one that becomes deferred writes a copy, with the TSTAMP that it has (log 99, DESIGN
CHOICE), and one whose last pin goes after its validity has expired is withdrawn. -/
def State.repinOne (s : State) (n : Nat) : State :=
  match s.tx n with
  | none => s
  | some t =>
    let d := s.pinned t
    if t.state ≠ .proposed ∨ t.moving ∨ d = t.deferred then s
    else if d then
      let t := { t with deferred := true, stage := 0 }
      (s.setTx t).journalCopy t.vif t.cls t.object t.record false
    else if s.cycle < t.validUntil then s.setTx { t with deferred := false }
    else
      let s := s.withdraw n 4 0
      if t.replay = 0 then s else s.failReplay t.replay 15

/-- DEF follows the pins, in number order. -/
def State.repin (s : State) : State := (s.journal.txs.map (·.num)).foldl State.repinOne s

/-! ### The end of a signature (R274, R291, R297, R391) -/

/-- What a transaction whose object or measured signature has ended becomes. -/
def State.endTransaction (s : State) (sig n : Nat) : State :=
  match s.tx n with
  | none => s
  | some t =>
    let mine := objKind t.object < 2 && objSig t.object == sig
    if t.rv then s
    else
      match t.state with
      | .proposed =>
        if mine then s.withdraw n 7 0
        else if t.measuredSig = some sig || (t.src == 1 && t.proposer == sig) then s.updateTx n fun t => { t with ended := true }
        else s
      | .applied => if mine || t.measuredSig = some sig then s.settle n 7 else s
      | .trial => if mine || t.measuredSig = some sig then s.settle n 7 else s
      | _ => s

/-- Whether an object in record form is a signature or one of its handles. -/
def objectOf (sig : Nat) (o : Word) : Bool := objKind o < 2 && objSig o == sig

/-- The objects of a signature that has ended are no more: their transactions are not undone (R391), and none counts as the last applied
to an object of a later signature of that number. (log 37, DEDUCED) -/
def State.orphanObjects (s : State) (sig : Nat) : State :=
  let gone (m : Nat) : Bool := match s.tx m with | some t => objectOf sig t.object | none => true
  let txs := s.journal.txs.map fun t => if objectOf sig t.object && !t.rv then { t with stage := orphanStage } else t
  let reverts := s.journal.reverts.map fun (r : CompoundRevert) => { r with members := r.members.filter fun m => !gone m }
  let lastApplied := s.journal.lastApplied.filter fun p => !objectOf sig p.1
  State.closeReverts { s with journal := { s.journal with txs, reverts, lastApplied } }

/-- Pins, subscriptions and transactions of a signature end with it; a replay it issued fails. -/
def State.endJournal (s : State) (sig : Nat) : State :=
  let s := s.setSig sig { s.sig sig with pins := [], subs := [] }
  let s : State := (s.journal.txs.map (·.num)).foldl (fun s n => s.endTransaction sig n) s
  let j := s.journal
  let routes := j.routes.filter fun r => r.1 != sig
  let lastStrm := j.lastStrm.filter fun r => r.2.2 != sig
  let causal := j.causal.filter fun r => r.sig != sig
  let s : State := { s with journal := { j with routes, lastStrm, causal } }
  let s := (s.journal.replays.filter (·.sig = sig)).foldl (fun s r => s.failReplay r.id 7) (s.orphanObjects sig)
  s.closeReverts.closeReplays.settleReady.repin

end Sys2Proof.Machine
end

