-- ==== Sys2Proof/Machine/BinderyOps.lean ====
section
/-!
DEFINITION. The bindery's operations: launch records and queues (R28 to R35), first fit (R34, R43), configuration planes (R45), placement
(R36), and pre-emption (R34, R343).
-/

namespace Sys2Proof.Machine

/-! ### Launch records (R29, R30) -/

def recordCtl (r : Vec) : Word := recordWord r 6
def recordHt (r : Vec) : Nat := ((recordCtl r).extractLsb' 0 4).toNat
def recordWd (r : Vec) : Nat := ((recordCtl r).extractLsb' 4 5).toNat
def recordPri (r : Vec) : Nat := ((recordCtl r).extractLsb' 16 3).toNat
def recordGang (r : Vec) : Nat := ((recordCtl r).extractLsb' 32 16).toNat
def recordGcnt (r : Vec) : Nat := ((recordCtl r).extractLsb' 48 8).toNat

/-- The registered image that an address names. -/
def Iface.image (f : Iface) (code : Word) : Option Image := f.images.find? fun i => i.registered && i.code == code

/-- Height, width and number of configurations of an image (R147, R308). -/
def Image.shape_ (i : Image) : Nat × Nat × Nat :=
  ((i.shape.extractLsb' 0 4).toNat, (i.shape.extractLsb' 8 5).toNat, (i.shape.extractLsb' 16 8).toNat)

/-- An interface's partition: device row, column, height and width (R279). -/
def Policy.partition (p : Policy) : Nat × Nat × Nat × Nat :=
  ((p.partn.extractLsb' 0 4).toNat, (p.partn.extractLsb' 8 5).toNat, (p.partn.extractLsb' 16 4).toNat, (p.partn.extractLsb' 24 5).toNat)

/-- Why a record is refused on arrival (R31, R344), by AUX: the first of the conditions in R31's order. -/
def State.recordRefused (s : State) (vif : Nat) (r : Vec) : Option Nat :=
  let f := s.iface vif
  let ctl := recordCtl r
  let ht := recordHt r
  let wd := recordWd r
  let (_, _, pht, pwd) := f.policy.partition
  let shapeBad := ht = 0 || 12 < ht || wd = 0 || 24 < wd ||
    (match f.image (recordWord r 0) with | some i => i.shape_.1 != ht || i.shape_.2.1 != wd | none => false)
  let gang := recordGang r
  let gcnt := recordGcnt r
  let gangBad := if gang = 0 then gcnt != 0 else gcnt < 2
  let reserved := (ctl.extractLsb' 56 8).toNat != 0 || (ctl.extractLsb' 22 10).toNat != 0 || (ctl.extractLsb' 9 7).toNat != 0
    || ((recordWord r 7).extractLsb' 32 32).toNat != 0 || (recordWord r 2).toNat % 8 != 0 || (recordWord r 3).toNat % 8 != 0
  ([(1, shapeBad), (2, pht < ht || pwd < wd), (3, (f.image (recordWord r 0)).isNone), (4, gangBad), (5, reserved),
    (6, 256 ≤ f.queue.length)].find? (·.2)).map (·.1)

/-- A launch-refused record (R31, R344). -/
def State.launchRefused (s : State) (vif aux : Nat) : State := s.report vif (FaultInfo.report 0x20 3 aux 0)

/-- The members of a gang in an interface's queue. -/
def Iface.gangMembers (f : Iface) (tag : Nat) : List Queued := f.queue.filter fun q => recordGang q.record == tag && q.saved.isNone

/-- Queued records of one tag fall into gangs of GCNT members each, in the order of arrival (R35): the gang that a record belongs to, and the
one that is forming. `fuel` bounds the records looked at. -/
def gangWith (q : Queued) : Nat → List Queued → List Queued
  | 0, _ => []
  | _, [] => []
  | fuel + 1, m :: ms =>
    let k := recordGcnt m.record
    if ((m :: ms).take k).contains q then (m :: ms).take k else gangWith q fuel ((m :: ms).drop k)

def gangForming : Nat → List Queued → List Queued
  | 0, _ => []
  | _, [] => []
  | fuel + 1, m :: ms =>
    let k := recordGcnt m.record
    if (m :: ms).length ≤ k then m :: ms else gangForming fuel ((m :: ms).drop k)

/-- A gang whose members disagree on GCNT, or whose area exceeds the partition: every member is refused (R35). -/
def State.checkGang (s : State) (vif tag : Nat) : State :=
  let f := s.iface vif
  let ms := gangForming f.queue.length (f.gangMembers tag)
  let (_, _, pht, pwd) := f.policy.partition
  let area := ms.foldl (fun n q => n + recordHt q.record * recordWd q.record) 0
  let disagree := match ms with | [] => false | q :: rest => rest.any fun m => recordGcnt m.record != recordGcnt q.record
  if tag != 0 && (disagree || decide (pht * pwd < area)) then
    let s := s.setIface vif { f with queue := f.queue.filter fun q => !ms.contains q }
    ms.foldl (fun s _ => s.launchRefused vif 4) s
  else s

/-- A record arrives in an interface's queue, or is refused (R31). -/
def State.enqueue (s : State) (vif : Nat) (r : Vec) : State :=
  match s.recordRefused vif r with
  | some aux => s.launchRefused vif aux
  | none =>
    let f := s.iface vif
    let q : Queued := { record := r, prio := recordPri r, blocking := false, arrived := s.cycle, first := s.cycle, waitedBefore := 0
                        candidateSince := none, ready := recordWord r 3 = 0, saved := none }
    (s.setIface vif { f with queue := f.queue ++ [q] }).checkGang vif (recordGang r)

/-! ### Readiness and candidates (R32, R33, R382) -/

/-- Wall cycles a record has spent in its queue. -/
def Queued.waited (q : Queued) (cycle : Nat) : Nat := q.waitedBefore + (cycle - q.arrived)

/-- Read the CWAIT of every record of an interface (R32): a read that fails removes its record as refused. -/
def State.pollCwait (s : State) (vif : Nat) : State :=
  let f := s.iface vif
  let outcome (q : Queued) : Option Queued :=
    let a := recordWord q.record 3
    if a = 0 ∨ q.saved.isSome then some { q with ready := true }
    else
      match s.readVirtual vif a 8 with
      | .error _ => none
      | .ok x => some { q with ready := (recordWord q.record 4).toNat ≤ x }
  let kept := f.queue.filterMap outcome
  let s := s.setIface vif { f with queue := kept }
  (List.range (f.queue.length - kept.length)).foldl (fun s _ => s.launchRefused vif 7) s

/-- A saved image with a STOP in force is not ready until every record of the stop has been answered (R382). -/
def State.savedReady (s : State) (q : Queued) : Bool :=
  match q.saved with
  | none => true
  | some n =>
    let g := s.sig n
    g.status == .saved && !g.byFault && !s.stopOpen n

/-- The gang that a signature was placed with. -/
def State.sameGang (s : State) (a b : Nat) : Bool := (s.sig a).gang == (s.sig b).gang

/-- The records a record is placed with: itself, or its gang (R35); saved images are placed again with the gang they were placed with. -/
def State.groupOf (s : State) (vif : Nat) (q : Queued) : List Queued :=
  let tag := recordGang q.record
  let f := s.iface vif
  if tag = 0 then [q]
  else
    match q.saved with
    | none => gangWith q f.queue.length (f.gangMembers tag)
    | some n => f.queue.filter fun m => match m.saved with | some k => s.sameGang k n | none => false

/-- The members of a signature's gang that are left, itself among them. -/
def State.gangOf (s : State) (sig : Nat) : List Nat :=
  if (s.sig sig).gang = 0 then [sig] else (s.sigs.map (·.1)).filter fun n => s.sameGang n sig

/-- Whether a pre-empted member of a signature's gang has not yet been saved. -/
def State.gangLeaving (s : State) (sig : Nat) : Bool :=
  (s.gangOf sig).any fun n => (s.sig n).status != .saved && (s.sig n).waves.any (·.cause = .preempt)

/-- Whether a record can be chosen: it and its whole gang are queued and ready. -/
def State.choosable (s : State) (vif : Nat) (q : Queued) : Bool :=
  let ms := s.groupOf vif q
  ms.all (fun m => m.ready && s.savedReady m)
    && (recordGang q.record = 0 || (match q.saved with | some n => !s.gangLeaving n | none => decide (recordGcnt q.record ≤ ms.length)))

/-- Effective priority of a record's group: that of its highest member. -/
def State.groupPrio (s : State) (vif : Nat) (q : Queued) : Nat := (s.groupOf vif q).foldl (fun n m => Nat.max n m.prio) 0

/-- The candidate of an interface: the choosable record of highest effective priority, the earliest in the queue among those. -/
def State.candidate (s : State) (vif : Nat) : Option Queued :=
  (s.iface vif).queue.foldl (fun (best : Option Queued) q =>
    if !s.choosable vif q then best
    else
      match best with
      | none => some q
      | some b => if s.groupPrio vif b < s.groupPrio vif q then some q else best) none

/-- Keep, in a queue, since when its candidate has been one (R34): a record that is the candidate no more blocks no more. (log 81, DESIGN CHOICE) -/
def State.markCandidate (s : State) (v : Nat) : State :=
  let c := s.candidate v
  let f := s.iface v
  let mark (q : Queued) : Queued :=
    if some q = c then { q with candidateSince := some (q.candidateSince.getD s.cycle) }
    else { q with candidateSince := none, blocking := false }
  s.setIface v { f with queue := f.queue.map mark }

/-- The same in every queue. -/
def State.markCandidates (s : State) : State := (s.ifaces.map (·.1)).foldl State.markCandidate s

/-! ### First fit (R34, R43) -/

/-- Whether die boundaries fall after the same folio rows and columns at two corners (R43). -/
def sameShape (ht wd r1 c1 r2 c2 : Nat) : Bool :=
  (List.range ht).all (fun i => i + 1 == ht || ((r1 + i + 1) % 4 == 0) == ((r2 + i + 1) % 4 == 0)) &&
    (List.range wd).all (fun j => j + 1 == wd || ((c1 + j + 1) % 8 == 0) == ((c2 + j + 1) % 8 == 0))

/-- The folios of a rectangle. -/
def rectangle (row col ht wd : Nat) : List (Nat × Nat) :=
  (List.range ht).flatMap fun i => (List.range wd).map fun j => (row + i, col + j)

/-- Whether a folio is free for a placement: idle and held for nothing. -/
def State.freeFolio (s : State) (rc : Nat × Nat) : Bool :=
  (s.folio rc.1 rc.2).placed == 0 && !s.journalHolds (rc.1 * 24 + rc.2)

/-- Whether a rectangle lies in an interface's partition, clipped to die 0 in state 2 (R334). -/
def State.inPartition (s : State) (vif row col ht wd : Nat) : Bool :=
  let (pr, pc, ph, pw) := (s.iface vif).policy.partition
  let (mh, mw) := if s.platform.service = 2 then (4, 8) else (12, 24)
  pr ≤ row && row + ht ≤ min (pr + ph) mh && pc ≤ col && col + wd ≤ min (pc + pw) mw

/-- The first corner, in device folio order, where a shape fits; a saved image needs a corner of the same shape. -/
def State.firstFit (s : State) (vif ht wd : Nat) (like : Option (Nat × Nat)) : Option (Nat × Nat) :=
  ((List.range 288).map fun k => (k / 24, k % 24)).find? fun (r, c) =>
    s.inPartition vif r c ht wd && (rectangle r c ht wd).all s.freeFolio &&
      (match like with | none => true | some (r0, c0) => sameShape ht wd r0 c0 r c)

/-! ### Planes (R45) -/

def Folio.plane (f : Folio) (k : Nat) : Plane := f.planes.get Plane.invalid k
def Folio.setPlane (f : Folio) (k : Nat) (p : Plane) : Folio := { f with planes := f.planes.set Plane.invalid k p }

/-- The plane a load takes: the lowest INVALID one, else the READY one of another world activated longest ago, else the world's own. Of planes
with equal last activation the lowest is taken, and a load leaves the last activation of the physical plane. (log 81, DESIGN CHOICE) -/
def Folio.choosePlane (f : Folio) (vif : Nat) : Option Nat :=
  let oldest (test : Plane → Bool) : Option Nat :=
    ([0, 1, 2, 3].filter fun k => (f.plane k).state == .ready && test (f.plane k)).foldl (fun (b : Option Nat) k =>
      match b with
      | none => some k
      | some j => if (f.plane k).activated < (f.plane j).activated then some k else b) none
  match [0, 1, 2, 3].find? fun k => (f.plane k).state == .invalid with
  | some k => some k
  | none =>
    match oldest fun p => p.owner != some vif with
    | some k => some k
    | none => oldest fun p => p.owner == some vif

/-- In an idle folio the ACTIVE plane first becomes READY. -/
def Folio.idlePlanes (f : Folio) : Folio :=
  { f with planes := f.planes.map fun (k, p) => (k, if p.state = .active then { p with state := .ready } else p) }

/-- Begin to load a configuration record into a plane; nothing when the choice must wait. -/
def Folio.beginLoad (f : Folio) (vif : Nat) (image : Word) (cfg : Nat) (source : Word) : Option Folio :=
  (f.choosePlane vif).map fun k =>
    f.setPlane k { state := .loading, owner := some vif, image, cfg, source, roles := 0, activated := (f.plane k).activated,
                    loaded := 1 + f.planes.foldl (fun n x => max n x.2.loaded) 0 }

/-- The address of a folio's record of a configuration (R147). -/
def Image.recordAt (i : Image) (cfg place : Nat) : Word :=
  let (ht, wd, _) := i.shape_
  i.cfg + BitVec.ofNat 64 (64 * (ht * wd * cfg + place))

/-- The image a placed signature runs, registered or not. -/
def State.imageOf (s : State) (sig : Nat) : Option Image := (s.iface (s.sig sig).vif).images.find? (·.code = (s.sig sig).code)

/-- The folio at a place of a signature. -/
def Sig.place (g : Sig) (p : Nat) : Nat × Nat := (g.row0 + p / g.wd, g.col0 + p % g.wd)

/-- Begin to load a configuration into the folio at a place of a signature; a gated folio is ungated first (R339). -/
def State.loadAnew (s : State) (sig cfg place : Nat) : State :=
  let g := s.sig sig
  let (row, col) := g.place place
  match s.imageOf sig with
  | none => s
  | some i =>
    if (s.folio row col).gated then s
    else
    match (s.folio row col).beginLoad g.vif g.code cfg (i.recordAt cfg place) with
    | some f => s.setFolio row col f
    | none => s

/-- Whether one of its world's planes at a place of a signature holds a configuration READY or loads it. -/
def State.loadBegun (s : State) (sig cfg place : Nat) : Bool :=
  let g := s.sig sig
  (s.folio (g.place place).1 (g.place place).2).planes.any fun (_, p) =>
    p.owner == some g.vif && p.image == g.code && p.cfg == cfg && (p.state == .ready || p.state == .loading)

/-- The same unless one of its world's planes holds it READY or loads it (R187). -/
def State.loadFolio (s : State) (sig cfg place : Nat) : State := if s.loadBegun sig cfg place then s else s.loadAnew sig cfg place

/-- The saved folio at a place of an image. -/
def Sig.savedFolio (g : Sig) (p : Nat) : SavedFolio := g.image.get { elements := [], cfg := 0, roles := 0, ready := [], begun := [] } p

/-- The configurations that a restored image lists as READY begin to load (R42); one that finds no plane is tried again (R45). -/
def State.pumpListed (s : State) (sig : Nat) : State :=
  let g := s.sig sig
  (List.range (g.ht * g.wd)).foldl (fun s p =>
    let f := (s.sig sig).savedFolio p
    let s := (f.ready.filter fun c => !f.begun.contains c).foldl (fun s c => s.loadFolio sig c p) s
    let g := s.sig sig
    let f := g.savedFolio p
    let begun := f.ready.filter fun c => f.begun.contains c || s.loadBegun sig c p
    if begun = f.begun then s else s.setSig sig { g with image := g.image.put p { f with begun } }) s

/-! ### Placement (R17, R36) -/

/-- A signature number that no placed or saved signature has, the next one from the last given on; 0 is none's (R17; log 94, DESIGN CHOICE). -/
def State.freshSig (s : State) : Nat :=
  ((List.range 65535).map fun k => (s.nextSig - 1 + k) % 65535 + 1).find? (fun n => !s.sigs.any (·.1 = n)) |>.getD s.nextSig

/-- A folio is taken for a signature: gated ones begin to ungate (R339), and its ACTIVE plane becomes READY. -/
def State.takeFolio (s : State) (sig : Nat) (rc : Nat × Nat) : State :=
  let f := (s.folio rc.1 rc.2).idlePlanes
  s.setFolio rc.1 rc.2 { f with placed := sig + 1, idleFor := 0
                                ungated := if f.gated then some (f.ungated.getD (s.cycle + 16384)) else none }

/-- Whether a placement at these folios advances the generation (R36): FRESH, or a folio that last ran another world. -/
def State.mustAdvance (s : State) (vif : Nat) (fresh : Bool) (fs : List (Nat × Nat)) : Bool :=
  fresh || fs.any fun rc => match (s.folio rc.1 rc.2).lastWorld with | none => false | some w => w != vif

/-- Place a record at a corner: its folios are taken, and configuration 0 begins to load into a plane of each (R36). -/
def State.placeAt (s : State) (vif : Nat) (q : Queued) (gang : Nat) (corner : Nat × Nat) : State :=
  let n := s.freshSig
  let ht := recordHt q.record
  let wd := recordWd q.record
  let fs := rectangle corner.1 corner.2 ht wd
  let g : Sig := { Sig.unused with
    vif, row0 := corner.1, col0 := corner.2, ht, wd, record := q.record, prio := q.prio, order := s.nextOrder
    waited := q.waited s.cycle, arrived := q.first
    status := .starting
    gang := if recordGang q.record = 0 then 0 else gang
    advance := s.mustAdvance vif ((recordCtl q.record).getLsbD 19) fs }
  let s := { s with nextSig := n % 65535 + 1, nextOrder := s.nextOrder + 1 }
  let s := (fs.foldl (fun s rc => s.takeFolio n rc) s).setSig n g
  (List.range (ht * wd)).foldl (fun s p => s.loadAnew n 0 p) s

/-- A saved signature is placed again at a corner of the same shape: its configurations begin to load (R42, R66); at the target of a move the
planes it ran with are loaded already (R281). -/
def State.restoreAt (s : State) (n : Nat) (moved : Bool) (corner : Nat × Nat) (prio waited : Nat) : State :=
  let g := s.sig n
  let fs := rectangle corner.1 corner.2 g.ht g.wd
  let s := fs.foldl (fun s rc => s.takeFolio n rc) s
  let image := g.image.map fun x => (x.1, { x.2 with begun := [] })
  let s := s.setSig n { g with row0 := corner.1, col0 := corner.2, prio, waited, order := s.nextOrder, status := .starting, advance := true, image }
  let s := { s with nextOrder := s.nextOrder + 1 }
  ((List.range (g.ht * g.wd)).foldl (fun s p =>
    let cfg := (g.savedFolio p).cfg
    if moved then s.loadFolio n cfg p else s.loadAnew n cfg p) s).pumpListed n

/-! ### Pre-emption (R34, R41, R343) -/

/-- Bytes the largest image of a shape can have (R343). -/
def imageRoom (ht wd : Nat) : Nat := ht * wd * 25 * 2 ^ 20

/-- Bytes of the image store. -/
def State.storeSize (s : State) : Nat :=
  let w := if s.platform.service = 2 then s.platform.ecarve else s.platform.carve
  (w.extractLsb' 56 8).toNat * 2 ^ 30 - 0x20010000

/-- The placed members of a signature's gang, itself among them. -/
def State.placedGang (s : State) (sig : Nat) : List Nat :=
  if (s.sig sig).gang = 0 then [sig] else s.placedSigs.filter fun n => s.sameGang n sig

/-- Pre-empt a signature with its gang, if the image store has room for their images; a move's freeze wave becomes the pre-emption's
(R197). -/
def State.preempt (s : State) (sig : Nat) : State :=
  let ms := s.placedGang sig
  let need (m : Nat) : Nat := if (s.sig m).reservedStore = 0 then imageRoom (s.sig m).ht (s.sig m).wd else 0
  let room := ms.foldl (fun n m => n + need m) 0
  if s.storeSize < s.platform.store + room then s
  else
    let s := { s with platform := { s.platform with store := s.platform.store + room } }
    ms.foldl (fun s m =>
      let g := s.sig m
      if g.waves.any (·.cause = .preempt) then s
      else
        let s := s.setSig m { g with reservedStore := g.reservedStore + need m }
        if g.waves.any (·.cause = .move) then
          s.setSig m { s.sig m with waves := g.waves.map fun w => if w.cause = .move then { w with cause := .preempt } else w }
        else s.requestWave m .preempt) s

end Sys2Proof.Machine
end

