-- ==== Sys2Proof/Machine/SpineControl.lean ====
section
/-!
DEFINITION. Spine control transfer, loops, END and WAITV (R159 to R166), the fabric mode, the broadcast scalar and seams (R61, R185, R186,
R188), observation (R189 to R191), TRAP and the control registers (R195, R196).
-/

namespace Sys2Proof.Machine

/-! ### Control transfer (R159 to R161) -/

/-- The target of a branch word (R132). -/
def branchTarget (pc : Word) (disp : BitVec 35) : Word := (pc &&& ~~~0x3F) + disp.signExtend 64 * 64

/-- The slot transfers control, at the cost of 2 further idle slots. -/
def State.branchTo (s : State) (target : Word) : State := (s.transfer target 2).slotDone

/-- BR (R159). -/
def execBr (f : SB) (s : State) : Host.Outcome State Fault Refusal := .next (s.branchTo (branchTarget s.here.pc f.disp))

/-- BRC (R159). -/
def execBrc (f : SB) (s : State) : Host.Outcome State Fault Refusal :=
  if branchCondition f.cond (s.readG f.ga) (s.readG f.gb) then .next (s.branchTo (branchTarget s.here.pc f.disp)) else .next s.slotDone

/-- CALL (R159): the offset of the following word is pushed, unless the stack holds 16. -/
def execCall (f : SB) (s : State) : Host.Outcome State Fault Refusal :=
  let p := s.here
  if 16 ≤ p.ret.length then .next (s.slotEnd 0x04 16 0)
  else
    let after := p.pc + 16 - (s.sig s.focus.sig).code
    .next ((s.setHere { p with ret := after :: p.ret }).branchTo (branchTarget p.pc f.disp))

/-- RET (R160). -/
def execRet (_f : SG) (s : State) : Host.Outcome State Fault Refusal :=
  let p := s.here
  match p.ret with
  | [] => .next (s.slotEnd 0x04 0 0)
  | o :: rest => .next ((s.setHere { p with ret := rest }).branchTo ((s.sig s.focus.sig).code + o))

/-- BRI (R161). -/
def execBri (f : SG) (s : State) : Host.Outcome State Fault Refusal :=
  let x := s.readG f.ga
  if x.toNat % 64 ≠ 0 then .next (s.slotEnd 0x03 x.toNat 0) else .next (s.branchTo ((s.sig s.focus.sig).code + x))

/-! ### Loops (R162 to R164) -/

/-- The active level, other than one given, that ends at an address. -/
def Spine.levelAt (p : Spine) (a : Word) (except_ : Option Nat) : Option Nat :=
  (List.range 4).find? fun l => p.lact.getLsbD l && some l != except_ && p.lend.get 0 l == a

/-- Level l becomes active or inactive. -/
def Spine.setActive (p : Spine) (l : Nat) (on : Bool) : Spine :=
  { p with lact := BitVec.ofNat 4 ((List.range 4).foldl (fun acc i => acc + (if (if i = l then on else p.lact.getLsbD i) then 2 ^ i else 0)) 0) }

/-- LOOP (R162). -/
def execLoop (f : SO) (s : State) : Host.Outcome State Fault Refusal :=
  let p := s.here
  let l := f.lvl.toNat
  let count := if f.cg = 0 then f.cimm.toNat else (s.readG f.cg).toNat
  let last := p.pc + BitVec.ofNat 64 (16 * f.last.toNat)
  if 0xFFFFFFFF < count ∨ (p.levelAt last (some l)).isSome then .next (s.illegalOperand 0x05)
  else if count = 0 then .next (s.branchTo (last + 16))
  else
    let p := { p with lstart := p.lstart.set 0 l (p.pc + 16), lend := p.lend.set 0 l last, lc := p.lc.set 0 l (BitVec.ofNat 32 count) }
    .next (s.setHere (p.setActive l true)).slotDone

/-- LOOPX (R164). -/
def execLoopx (f : SO) (s : State) : Host.Outcome State Fault Refusal :=
  let p := s.here
  let l := f.lvl.toNat
  if p.lact.getLsbD l then
    .next ((s.setHere ({ p with lc := p.lc.set 0 l 0 }.setActive l false)).branchTo (p.lend.get 0 l + 16))
  else .next s.slotDone

/-! ### END and WAITV (R165, R166) -/

/-- END (R37, R165): its word is the last one, and the drain begins; a pending PLSW or GENADV is discarded (R188). -/
def execEndLaunch (_f : SG) (s : State) : Host.Outcome State Fault Refusal :=
  let n := s.focus.sig
  let s := s.setHere { s.here with phase := .leave, waiting := false, answer := none, seamRequest := none }
  let s := s.setSig n { s.sig n with status := .draining, ending := true }
  .next (s.takeHit n)

/-- Whether the result of the last VOTE is in vt (R22). -/
def State.voteDelivered (s : State) (sig : Nat) : Bool :=
  match (s.spineOf sig).lastVote with
  | none => true
  | some n => n + 2 * (s.sig sig).span + 32 ≤ (s.sig sig).time

/-- WAITV (R166): a VOTE issued later does not prolong the wait, since no word is issued while the spine waits. -/
def execWaitv (f : SG) (s : State) : Host.Outcome State Fault Refusal :=
  if s.voteDelivered s.focus.sig then spineResult s f.gd s.here.vt else .next s.slotWait

/-! ### Fabric mode, broadcast scalar, seams (R61, R185, R186, R188) -/

/-- FBC (R185). -/
def execFbc (f : SG) (s : State) : Host.Outcome State Fault Refusal :=
  .next (s.setHere { s.here with latch := some (s.readG f.ga) }).slotDone

/-- A write of the fabric mode register, or illegal-operand for a DRM of 5 to 7. -/
def State.writeMode (s : State) (x : Word) (opcode : Nat) : State :=
  let m := x.extractLsb' 0 8
  if 5 ≤ (m.extractLsb' 4 3).toNat then s.illegalOperand opcode else (s.setHere { s.here with mode := m }).slotDone

/-- SETM (R186): the immediate, or a register when ga is not g0. -/
def execSetm (f : SI) (s : State) : Host.Outcome State Fault Refusal :=
  .next (s.writeMode (if f.ga = 0 then f.imm.setWidth 64 else s.readG f.ga) 0x5B)

/-- GENADV (R61, R195): an advance at the next seam; it replaces a pending PLSW (R188). -/
def execGenadv (_f : SG) (s : State) : Host.Outcome State Fault Refusal :=
  .next (s.setHere { s.here with seamRequest := some .genadv }).slotDone

/-- A folio's plane that holds a configuration of the launch's image for its world, in one of some states: the ACTIVE one, or the one loaded
last. -/
def Folio.planeWith (f : Folio) (vif : Nat) (image : Word) (cfg : Nat) (states : List PlaneState) : Option (Nat × Plane) :=
  let ps := f.planes.filter fun (_, p) => p.owner == some vif && p.image == image && p.cfg == cfg && states.contains p.state
  match ps.find? fun x => x.2.state == .active with
  | some x => some x
  | none =>
    ps.foldl (fun (b : Option (Nat × Plane)) x =>
      match b with
      | none => some x
      | some y => if y.2.loaded < x.2.loaded then some x else b) none

/-- PLSW (R188): it waits while a load of cfg is in progress; cfg must be READY or ACTIVE in every folio. -/
def execPlsw (f : SG) (s : State) : Host.Outcome State Fault Refusal :=
  let g := s.sig s.focus.sig
  let cfg := (f.sub.extractLsb' 0 16).toNat
  let has (states : List PlaneState) (rc : Nat × Nat) : Bool := ((s.folio rc.1 rc.2).planeWith g.vif g.code cfg states).isSome
  let loading := g.ctxs.any fun (_, c) => c.kind = .cfgld ∧ c.unit = cfg
  if loading || g.folios.any (has [.loading]) then .next s.slotWait
  else if g.folios.all (has [.ready, .active]) then
    .next (s.setHere { s.here with seamRequest := some (.plsw (f.sub.extractLsb' 0 16)) }).slotDone
  else .next (s.illegalOperand 0x5D)

/-! ### Observation (R189 to R191) -/

/-- ENTER (R189). -/
def execEnter (f : SI) (s : State) : Host.Outcome State Fault Refusal :=
  let p := s.here
  if 8 ≤ p.region.length then .next (s.slotEnd 0x05 8 0)
  else .next ((s.setHere { p with region := f.imm.extractLsb' 0 16 :: p.region }).slotDone.takeHit s.focus.sig)

/-- LEAVE (R189). -/
def execLeave (_f : SG) (s : State) : Host.Outcome State Fault Refusal :=
  let p := s.here
  match p.region with
  | [] => .next (s.slotEnd 0x05 0 0)
  | _ :: rest => .next ((s.setHere { p with region := rest }).slotDone.takeHit s.focus.sig)

/-- TRACE (R190): the record is staged at the lead folio under the class the word names. -/
def execTrace (f : SG) (s : State) : Host.Outcome State Fault Refusal :=
  .next (s.traceSig s.focus.sig (f.sub.extractLsb' 0 16).toNat (f.sub.extractLsb' 16 2).toNat (s.readG f.ga).toNat).slotDone

/-- PROG (R189). In slot B after a PROG in slot A it adds to the value that one left. (log 83, DESIGN CHOICE) -/
def execProg (f : SI) (s : State) : Host.Outcome State Fault Refusal :=
  let x := s.readG f.ga + f.imm.setWidth 64
  .next (s.setHere ({ s.here with progCnt := s.here.progCnt + x }.capture_ 9 x.toNat)).slotDone

/-- RDCYC (R189). -/
def execRdcyc (f : SG) (s : State) : Host.Outcome State Fault Refusal :=
  spineResult s f.gd (BitVec.ofNat 64 (if f.sub.getLsbD 0 then (s.sig s.focus.sig).time else s.cycle))

/-- RDTIME (R189): two destinations in one cycle. (log 28, DEDUCED) -/
def execRdtime (f : SG) (s : State) : Host.Outcome State Fault Refusal :=
  spineResult (s.writeG f.gd (BitVec.ofNat 64 s.ns)) f.gb (BitVec.ofNat 64 s.nsFraction)

/-- BKPT (R189, R322): the debug stop is taken after this word, when debug is armed; of two in one word the first gives the code (log 83, DESIGN
CHOICE). -/
def execBkpt (f : SI) (s : State) : Host.Outcome State Fault Refusal :=
  .next (s.setHere { s.here with bkpt := some (s.here.bkpt.getD (f.imm.extractLsb' 0 16).toNat) }).slotDone

/-- idx of CNTR. -/
def captureIndex (f : SG) : Nat := (f.sub.extractLsb' 3 3).toNat

/-- CNTR_CFG (R191). -/
def execCntrCfg (f : SG) (s : State) : Host.Outcome State Fault Refusal :=
  let c := s.here.capture
  let event := ((s.readG f.ga).extractLsb' 0 8).toNat
  if c.on ∨ 10 ≤ event then .next (s.illegalOperand 0x66)
  else .next (s.setHere { s.here with capture := { c with events := c.events.set 0 (captureIndex f) event } }).slotDone

/-- CNTR_START (R191). -/
def execCntrStart (_f : SG) (s : State) : Host.Outcome State Fault Refusal :=
  let c := s.here.capture
  if c.on then .next (s.illegalOperand 0x66)
  else
    let capture : Capture :=
      { c with on := true, counters := [], intr := 0, tstart := BitVec.ofNat 64 s.ns
               sstart := BitVec.ofNat 64 (s.sig s.focus.sig).time, result := [] }
    .next (s.setHere { s.here with capture }).slotDone

/-- CNTR_READ (R191): in slot B the counter as slot A left it. (log 83, DESIGN CHOICE) -/
def execCntrRead (f : SG) (s : State) : Host.Outcome State Fault Refusal :=
  spineResult s f.gd (s.here.capture.counters.get 0 (captureIndex f))

/-! ### System instructions (R195, R196) -/

/-- TRAP (R195): user-trap, with the payload as ADDR (R344, R348). -/
def execTrap (f : SI) (s : State) : Host.Outcome State Fault Refusal :=
  .next (s.slotStop 0x0F 3 (f.imm.extractLsb' 0 16).toNat (s.readG f.ga).toNat)

/-- A control register as the word's sources give it (R128, R196). (log 28, DEDUCED) -/
def State.controlRegister (s : State) (n : Nat) : Word :=
  let sig := s.focus.sig
  let g := s.sig sig
  let p := s.here
  let b := p.before
  match n with
  | 0 => BitVec.ofNat 64 sig
  | 1 => BitVec.ofNat 64 (g.ht + g.wd * 16)
  | 2 => BitVec.ofNat 64 g.vif
  | 3 => b.gen.setWidth 64
  | 4 => if g.gmode then 1 else 0
  | 5 => g.code
  | 0x10 => b.mode.setWidth 64
  | 0x20 => b.progCnt
  | 0x30 => b.barPh
  | 0x40 => BitVec.ofNat 64 b.cycle
  | 0x41 => BitVec.ofNat 64 b.time
  | 0x50 => (p.lc.get 0 0).setWidth 64
  | 0x51 => (p.lc.get 0 1).setWidth 64
  | 0x52 => (p.lc.get 0 2).setWidth 64
  | 0x53 => (p.lc.get 0 3).setWidth 64
  | 0x58 => p.lact.setWidth 64
  | 0x60 => BitVec.ofNat 64 p.ret.length
  | 0x61 => BitVec.ofNat 64 b.region.length
  | 0x62 => BitVec.ofNat 64 ((b.region.getD 0 0).toNat + (b.region.getD 1 0).toNat * 2 ^ 16 + (b.region.getD 2 0).toNat * 2 ^ 32)
  | 0x70 => if b.capOn then 1 else 0
  | 0x71 => b.capIntr
  | _ => b.vt

/-- CSRR (R195). -/
def execCsrr (f : SI) (s : State) : Host.Outcome State Fault Refusal :=
  spineResult s f.gd (s.controlRegister (f.imm.extractLsb' 0 12).toNat)

/-- CSRW (R195): fab.MODE as by SETM, or bar.PH. -/
def execCsrw (f : SI) (s : State) : Host.Outcome State Fault Refusal :=
  let x := s.readG f.ga
  if (f.imm.extractLsb' 0 12).toNat = 0x10 then .next (s.writeMode x 0x82)
  else .next (s.setHere { s.here with barPh := x }).slotDone

end Sys2Proof.Machine
end

