-- ==== Sys2Proof/Machine/JournalOps.lean ====
section
/-!
DEFINITION. The journal engine at work: descriptors (R276 to R279, R288), acceptance (R280), application and undoing (R281, R286 to R290,
R387, R388), and judging (R283).
-/

namespace Sys2Proof.Machine

/-! ### After-descriptors (R277 to R279, R288) -/

/-- Operation of a PART: 0 MOVE, 1 COMPACT, 2 RESERVE. -/
def partOp (v : Vec) : Nat := (blockWord v 0).toNat
/-- CORNER of a PART in partition coordinates, and SHAPE. -/
def partCorner (v : Vec) : Nat × Nat := (((blockWord v 2).extractLsb' 0 4).toNat, ((blockWord v 2).extractLsb' 8 5).toNat)
def partShape (v : Vec) : Nat × Nat := (((blockWord v 3).extractLsb' 0 4).toNat, ((blockWord v 3).extractLsb' 8 5).toNat)

/-- A word that packs a small and a second number, as CORNER and SHAPE do. -/
def pairWord (a b : Nat) : Nat := a % 16 + b % 32 * 2 ^ 8

/-- A block of eight words. -/
def blockOfWords (ws : List Nat) : Vec :=
  BitVec.ofNat 512 (((List.range 8).map fun i => ws.getD i 0 % 2 ^ 64 * 2 ^ (64 * i)).foldl (· + ·) 0)

/-- The device corner of a PART. -/
def State.partDevice (s : State) (vif : Nat) (v : Vec) : Nat × Nat :=
  let (pr, pc, _, _) := (s.iface vif).policy.partition
  (pr + (partCorner v).1, pc + (partCorner v).2)

def folioNumbers (fs : List (Nat × Nat)) : List Nat := fs.map fun rc => rc.1 * 24 + rc.2

/-- The folios a PART targets. -/
def State.partTarget (s : State) (vif : Nat) (v : Vec) : List Nat :=
  let (r, c) := s.partDevice vif v
  folioNumbers (rectangle r c (partShape v).1 (partShape v).2)

/-- Reserved bits of words 0 to 3 beyond their fields, and the words after them. -/
def descriptorClean (v : Vec) (widths : List Word) : Bool :=
  (List.range 8).all fun k => (blockWord v k &&& ~~~(widths.getD k 0)) == 0

/-- The checks of a PART that can be made at once (R277, R281). -/
def State.partValid (s : State) (vif : Nat) (object : Word) (v : Vec) : Bool :=
  let (cr, cc) := partCorner v
  let (ht, wd) := partShape v
  let (pr, pc, ph, pw) := (s.iface vif).policy.partition
  let inside := 1 ≤ ht && 1 ≤ wd && cr + ht ≤ ph && cc + wd ≤ pw && pr + cr + ht ≤ 12 && pc + cc + wd ≤ 24
  let n := (blockWord v 1).toNat
  descriptorClean v [3, 0xFFFF, 0x1F0F, 0x1F0F] && inside &&
    (if partOp v = 2 then
      objKind object == 3 && n == 0 &&
        (s.partTarget vif v).all (fun k => (s.folio (k / 24) (k % 24)).placed == 0 && !s.journalHolds k)
    else
      let g := s.sig n
      partOp v < 2 && objKind object == 0 && n == objSig object && ht == g.ht && wd == g.wd
        && sameShape ht wd g.row0 g.col0 (pr + cr) (pc + cc))

/-- The checks of a ROUTE (R278). -/
def State.routeValid (s : State) (object : Word) (v : Vec) : Bool :=
  let g := s.sig (objSig object)
  let port := blockWord v 1
  let eth := (blockWord v 3).toNat
  descriptorClean v [0xF, 0x1FF, 3, 0xF] && (blockWord v 0).toNat == objIdx object && (port.extractLsb' 0 4).toNat < g.ht
    && (port.extractLsb' 4 5).toNat < g.wd && (eth < 8 || eth == 15)

/-- Whether a storage format is plain with elements of 8, 16 or 32 bits (R288). -/
def plainFormat (f : BitVec 8) : Bool := (f.extractLsb' 4 4).toNat == 0 && 8 ≤ laneWidth (elementSfmt f)

/-- The checks of an FMT of a range with an addressing format (R288). -/
def State.fmtValidFor (s : State) (vif : Nat) (addr : BitVec 8) (object : Word) (v : Vec) : Bool :=
  let ridx := objIdx object
  let spare := (blockWord v 2).toNat
  let old := Range.ofVec (s.rangeVec vif ridx)
  let new := Range.ofVec (s.rangeVec vif spare)
  let nf : BitVec 8 := (blockWord v 1).extractLsb' 0 8
  let need := ((old.vlim.toNat - old.vbase.toNat) * laneWidth (elementSfmt nf) / laneWidth (elementSfmt addr) + 0xFFFF) / 0x10000 * 0x10000
  let (slot, gen, kw) := keyFields (blockWord v 3)
  descriptorClean v [0xFFFF, 0xFF, 0xFFFF, 0x1FFFFFFFF0000] && (blockWord v 0).toNat == ridx && spare != ridx && plainFormat nf
    && plainFormat addr && !old.bad && !new.bad && need ≤ new.vlim.toNat - new.vbase.toNat && new.attr.getLsbD 0 && new.attr.getLsbD 1
    && s.keyValid vif slot gen kw

/-- The checks of an FMT (R288). -/
def State.fmtValid (s : State) (vif : Nat) (object : Word) (v : Vec) : Bool := s.fmtValidFor vif (s.addressing vif (objIdx object)) object v

/-- Fields of a POL: bits, lowest and highest value, in the order of MASK (R279, R338). -/
def polFields : List (Word × Nat × Nat) :=
  [(0xFF, 1, 255), (0x1FFFF, 1, 65536), (0x1FFF, 0, 0x1FFF), (3, 0, 3), (0xFFFFFFFF, 0, 0xFFFFFFFF), (0x1F0F1F0F, 0, 0x1F0F1F0F)]

/-- MASK of a POL, and whether it sets a privileged field. -/
def polMask (v : Vec) : Nat := (blockWord v 0).toNat
def polPrivileged (v : Vec) : Bool := (blockWord v 0).getLsbD 0 || (blockWord v 0).getLsbD 2 || (blockWord v 0).getLsbD 5

/-- The checks of a POL (R279, R338); a program sets no privileged field. -/
def polValid (v : Vec) (program : Bool) : Bool :=
  let set (i : Nat) : Bool := (blockWord v 0).getLsbD i
  let cap := (blockWord v 3).toNat
  let p := blockWord v 6
  let row := (p.extractLsb' 0 4).toNat
  let col := (p.extractLsb' 8 5).toNat
  let ht := (p.extractLsb' 16 4).toNat
  let wd := (p.extractLsb' 24 5).toNat
  descriptorClean v (0x3F :: polFields.map (·.1)) && !(program && polPrivileged v)
    && (List.range 6).all (fun i =>
      let x := (blockWord v (i + 1)).toNat
      let (_, lo, hi) := polFields.getD i (0, 0, 0)
      !set i || (lo ≤ x && x ≤ hi))
    && (!set 2 || cap == 0 || 50 ≤ cap)
    && (!set 5 || (1 ≤ ht && 1 ≤ wd && row + ht ≤ 12 && col + wd ≤ 24))

/-! ### Acceptance (R276, R280) -/

/-- The next descriptor number of an interface is taken and its entry written under the world key; nothing when an unsettled transaction
still holds the entry, or the write fails. -/
def State.writeDescriptor (s : State) (vif : Nat) (bytes : Vec) : Option (State × Nat) :=
  let f := s.iface vif
  let d := f.descriptors
  let heldBy (n : Nat) : Bool := n != 0 && n % 65536 == d % 65536
  if s.journal.txs.any fun t => t.vif == vif && t.state.open_ && (heldBy t.before || heldBy t.after) then none
  else
    match s.writeVirtual vif ((f.darea &&& ~~~0x3FFFFF) + BitVec.ofNat 64 (64 * (d % 65536))) 64 bytes.toNat with
    | .error _ => none
    | .ok s => some (s.setIface vif { s.iface vif with descriptors := if d = 0xFFFFFFFF then 1 else d + 1 }, d)

/-- The placed signature of an interface with the most BUSY cycles. (log 36, DEDUCED) -/
def State.busiest (s : State) (vif : Nat) : Option Nat :=
  (s.sigs.filter fun p => p.2.vif == vif && p.2.status != .saved).foldl (fun (b : Option Nat) (n, g) =>
    match b with
    | none => some n
    | some m => if (s.sig m).time < g.time then some n else b) none

/-- A proposal's fields: class, object, address of the after-descriptor, VALID, THRESH, TRIAL; nothing when it breaks R193 or R280. -/
def proposalFields (v : Vec) : Option (Nat × Word × Word × Nat × Nat × Nat) :=
  let trial := (blockWord v 5).toNat
  let thresh := (blockWord v 4).toNat
  if 3 < (blockWord v 0).toNat || 0xFFFF < thresh || !(trial == 0 || (12 ≤ trial && trial ≤ 32)) || blockWord v 6 != 0 || blockWord v 7 != 0 then
    none
  else
    some ((blockWord v 0).toNat, blockWord v 1, blockWord v 2, (blockWord v 3).toNat, thresh, trial)

/-- Whether the object of a class exists and belongs to the proposer (R269, R280). -/
def State.objectExists (s : State) (vif src sig cls : Nat) (object : Word) (after : Vec) : Bool :=
  let n := objSig object
  let owned := s.sigs.any (fun p => p.1 == n) && (s.sig n).vif == vif && (src != 1 || n == sig)
  recordObjectLegal vif object &&
    (match cls, objKind object with
     | 0, 0 => owned
     | 0, 3 => partOp after == 2
     | 1, 1 => owned
     | 2, 2 => let r := Range.ofVec (s.rangeVec vif (objIdx object)); !(r.vbase == 0 && r.vlim == 0)
     | 3, 3 => true
     | _, _ => false)

/-- A descriptor against its class. -/
def State.descriptorValid (s : State) (vif src cls : Nat) (object : Word) (after : Vec) : Bool :=
  match cls with
  | 0 => s.partValid vif object after
  | 1 => s.routeValid object after
  | 2 => s.fmtValid vif object after
  | _ => polValid after (src == 1)

/-- The measured signature as far as acceptance fixes it (R279, R283); a RESERVE has none (R277). -/
def State.measured (s : State) (vif src sig cls : Nat) (object : Word) : Option Nat :=
  if objKind object < 2 then some (objSig object)
  else if cls = 0 then none
  else if src = 1 then some sig
  else if cls = 3 && src = 0 then s.busiest vif
  else none

/-- A new transaction, PROPOSED. -/
def State.newTx (s : State) (vif src sig cls : Nat) (object : Word) (after : Vec) (valid thresh trial : Nat) : Tx :=
  let part := cls = 0
  { num := s.journal.next, vif, cls, object, state := .proposed, src, cause := 0, deferred := false, rv := false, proposer := sig
    thresh := if thresh = 0 then 1311 else thresh, wlog := if trial = 0 then 20 else trial, deps := [], before := 0, after := 0
    afterBytes := after, beforeBytes := 0, link := 0, brate := 0, trate := 0
    validUntil := s.cycle + (if valid = 0 then 2 ^ 30 else valid), measuredSig := s.measured vif src sig cls object
    baseline := (0, 0, 0), trialStart := (0, 0, 0, 0), trialCycle := 0, windowDone := false
    noTrial := src = 3 || (cls = 3 && (src = 2 || polPrivileged after)) || (part && partOp after = 2), closing := none, marks := []
    target := if part then s.partTarget vif after else [], vacated := [], stage := 0, broken := false, failures := 0, replay := 0, ended := false
    stamp := 0 }

/-- A transaction gets its number and its descriptor, and its first copy is written, with DEF as the pins have it (R291, R299). -/
def State.accept (s : State) (t : Tx) : Option (State × Nat) :=
  match s.writeDescriptor t.vif t.afterBytes with
  | none => none
  | some (s, d) =>
    let s := { s with journal := { s.journal with next := t.num + 1 } }
    some ((s.addTx { t with after := d, deferred := s.pinned t }).enter t.num fun t => t, t.num)

/-- A proposal is accepted and numbered, or refused (R280). The engine and privileged software may have 16 PROPOSED on each interface (log 91, DESIGN
CHOICE). -/
def State.propose (s : State) (vif src sig cls : Nat) (object : Word) (after : Vec) (valid thresh trial : Nat) : Option (State × Nat) :=
  let mine := s.journal.txs.filter fun t => t.state == .proposed && t.src == src && t.proposer == sig && (if src = 1 then !t.ended else t.vif == vif)
  if (s.platform.service = 2 && cls != 3) || 16 ≤ mine.length || !s.objectExists vif src sig cls object after
      || !s.descriptorValid vif src cls object after then none
  else s.accept (s.newTx vif src sig cls object after valid thresh trial)

/-- A proposal block and its after-descriptor are read and proposed (R193, R304); `complete` turns its object into record form. -/
def State.proposeAt (s : State) (vif src sig : Nat) (addr : Word) (complete : Word → Word) : Option (State × Nat) :=
  match s.readBytes vif 3 addr 64 with
  | .error _ => none
  | .ok bytes =>
    match proposalFields (BitVec.ofNat 512 (natOf bytes)) with
    | none => none
    | some (cls, object, at_, valid, thresh, trial) =>
      match s.readBytes vif 3 at_ 64 with
      | .error _ => none
      | .ok after => s.propose vif src sig cls (complete object) (BitVec.ofNat 512 (natOf after)) valid thresh trial

/-! ### Measures (R283) -/

/-- What prog.CNT, fabric words and measured cycles rose by. -/
def risen (a b : Nat × Nat × Nat) : Nat × Nat × Nat := ((b.1 + 2 ^ 64 - a.1) % 2 ^ 64, b.2.1 - a.2.1, b.2.2 - a.2.2)

/-- The spine of a signature: in its folio, or in its image. -/
def State.spineAnywhere (s : State) (sig : Nat) : Spine :=
  let g := s.sig sig
  if g.status == .running || g.status == .draining then s.spineOf sig else g.savedSpine

/-- A signature's PROG sum, fabric words and measured cycles now. -/
def State.meterNow (s : State) (sig : Nat) : Nat × Nat × Nat :=
  let g := s.sig sig
  ((s.spineAnywhere sig).progCnt.toNat, g.issued, g.measured)

/-- The meters of a signature at the end of its last unfrozen cycle before this one, and at the ends of the unfrozen cycles before that, the
latest first (R283). -/
def State.meters (s : State) (sig : Nat) : List (Nat × Nat × Nat) :=
  let history := (s.sig sig).history
  if s.clocked.any fun x => x.sig == sig && x.moves then history else s.meterNow sig :: history

/-- What the meters rose by in the baseline window of 2^wlog unfrozen cycles, or of as many as there were since placement. -/
def State.baselineOf (s : State) (sig wlog : Nat) : Nat × Nat × Nat :=
  let m := s.meters sig
  risen (m.getD (2 ^ wlog) (0, 0, 0)) (m.getD 0 (0, 0, 0))

/-- A rate, by PROG amounts or by fabric words. -/
def rateOf (byProg : Bool) (d : Nat × Nat × Nat) : Nat := min 0xFFFFFFFF ((if byProg then d.1 else d.2.1) * 2 ^ 16 / d.2.2)

/-- Whether a transaction is judged by PROG amounts. -/
def Tx.byProg (t : Tx) : Bool := t.baseline.1 != 0

/-! ### Application (R281) -/

/-- The transaction stands applied: its dependencies and before-descriptor are recorded, and its baseline is taken. -/
def State.applied (s : State) (n : Nat) (deps : List Nat) (before : Nat) (beforeBytes : Vec) (vacated : List Nat) : State :=
  match s.tx n with
  | none => s
  | some t =>
    let last := (s.journal.lastStrm.find? fun r => r.1 == t.vif && r.2.1 == objIdx t.object).map (·.2.2)
    let measuredSig := if t.cls = 2 && t.measuredSig.isNone then last else t.measuredSig
    let noTrial := t.noTrial || measuredSig.isNone
    let ended := match measuredSig with | some m => t.ended || !(s.sigs.any fun p => p.1 == m) | none => false
    let baseline := if noTrial || ended then (0, 0, 0) else s.baselineOf (measuredSig.getD 0) t.wlog
    let brate := if noTrial then 0 else if baseline.2.2 = 0 then (Config.emptyRate n).toNat else rateOf (baseline.1 != 0) baseline
    let s := { s with journal := { s.journal with lastApplied := (t.object, n) :: s.journal.lastApplied.filter (·.1 ≠ t.object) } }
    let s := s.enter n fun t =>
      { t with state := .applied, cause := 0, deps, before, beforeBytes, vacated, measuredSig, noTrial, baseline, brate }
    let s := s.closeReplays
    let op := partOp t.afterBytes
    if t.cls = 0 && op = 2 then s
    else if noTrial then s.settle n 0
    else if ended then s.settle n 7
    else s

/-- A POL's fields take their new values (R279). -/
def Policy.withPol (p : Policy) (v : Vec) : Policy :=
  let pick (i : Nat) (old : Nat) : Nat := if (blockWord v 0).getLsbD i then (blockWord v (i + 1)).toNat else old
  { weight := pick 0 p.weight, cshare := pick 1 p.cshare, pcap := pick 2 p.pcap, tcls := pick 3 p.tcls, hbud := pick 4 p.hbud
    partn := if (blockWord v 0).getLsbD 5 then blockWord v 6 else p.partn }

/-- The binding of a handle (R278): a ROUTE descriptor; without one, the port of folio (0,0) and the engine's choice. -/
def State.route (s : State) (sig h : Nat) : Vec :=
  match s.journal.routes.find? fun r => r.1 == sig && r.2.1 == h with
  | some (_, _, v) => v
  | none => blockOfWords [h, 0, 0, 15]

def State.setRoute (s : State) (sig h : Nat) (v : Vec) : State :=
  { s with journal := { s.journal with routes := (sig, h, v) :: s.journal.routes.filter fun r => !(r.1 == sig && r.2.1 == h) } }

/-- The place of the folio whose port runs operations on a handle. -/
def routePlace (wd : Nat) (v : Vec) : Nat := ((blockWord v 1).extractLsb' 0 4).toNat * wd + ((blockWord v 1).extractLsb' 4 5).toNat

/-- The before-descriptor: what the object is now (R276). That of a RESERVE, and word 3 of that of an FMT, follow the after-descriptor.
(log 100, DESIGN CHOICE) -/
def State.beforeOf (s : State) (t : Tx) : Vec :=
  let a := t.afterBytes
  match t.cls with
  | 0 =>
    let g := s.sig (objSig t.object)
    let (pr, pc, _, _) := (s.iface t.vif).policy.partition
    if partOp a = 2 then blockOfWords [2, 0, (blockWord a 2).toNat, (blockWord a 3).toNat]
    else blockOfWords [partOp a, objSig t.object, pairWord (g.row0 - pr) (g.col0 - pc), pairWord g.ht g.wd]
  | 1 => s.route (objSig t.object) (objIdx t.object)
  | 2 =>
    let r := Range.ofVec (s.rangeVec t.vif (objIdx t.object))
    blockOfWords [objIdx t.object, r.sfmt.toNat, t.spare, (blockWord a 3).toNat]
  | _ =>
    let p := (s.iface t.vif).policy
    blockOfWords [polMask a, p.weight, p.cshare, p.pcap, p.tcls, p.hbud, p.partn.toNat]

/-- Whether the folios of a PART are there for it: in the partition, unless it is undone; idle, or its own signature's; and held for no other, save
that an earlier PART that it will depend on may hold what it vacated. Of PARTs that target one folio the earliest holds it until a later one
stands there. One whose signature has ended holds nothing against an undo that it waits for. (R281, R282, R284; log 35, DEDUCED) -/
def State.targetFree (s : State) (t : Tx) (sig : Nat) (folios : List Nat) : Bool :=
  folios.all fun k =>
    let p := (s.folio (k / 24) (k % 24)).placed
    (p == 0 || p == sig + 1) && (t.state != .proposed || s.inPartition t.vif (k / 24) (k % 24) 1 1) &&
      !(s.journal.txs.any fun a => a.num != t.num && a.cls == 0 && !a.rv && a.state.open_ && (t.state == .proposed || a.stage != orphanStage) &&
        ((a.target.contains k && (partOp a.afterBytes == 2 || a.num < t.num || a.state.standing))
          || (a.replay != 0 && a.replay != t.replay && a.target.contains k)
          || (t.num < a.num && a.state.standing && a.vacated.contains k && p != sig + 1)))

/-! ### Moving a signature (R281, R282, R386) -/

/-- The configuration that a signature's folio at a place runs. -/
def State.activeCfg (s : State) (sig place : Nat) : Nat :=
  let g := s.sig sig
  match (s.folio (g.row0 + place / g.wd) (g.col0 + place % g.wd)).active with
  | some (_, p) => p.cfg
  | none => 0

/-- The planes a move needs begin to load at its target; gated folios are ungated first (R339). -/
def State.prepareMove (s : State) (sig : Nat) (corner : Nat × Nat) : State :=
  let g := s.sig sig
  (List.range (g.ht * g.wd)).foldl (fun s p =>
    let (row, col) := (corner.1 + p / g.wd, corner.2 + p % g.wd)
    let cfg := s.activeCfg sig p
    let f := s.folio row col
    let f := if f.placed = 0 then f.idlePlanes else f
    let f := if f.gated && f.ungated.isNone then { f with ungated := some (s.cycle + 16384) } else f
    if f.gated || (f.planeWith g.vif g.code cfg [.ready, .loading, .active]).isSome then s.setFolio row col f
    else
      match s.imageOf sig with
      | none => s.setFolio row col f
      | some i => s.setFolio row col ((f.beginLoad g.vif g.code cfg (i.recordAt cfg p)).getD f)) s

/-- Whether every plane of a move is loaded and every target folio runs. -/
def State.movePrepared (s : State) (sig : Nat) (corner : Nat × Nat) : Bool :=
  let g := s.sig sig
  (List.range (g.ht * g.wd)).all fun p =>
    let f := s.folio (corner.1 + p / g.wd) (corner.2 + p % g.wd)
    !f.gated && (f.planeWith g.vif g.code (s.activeCfg sig p) [.ready, .active]).isSome

/-- A target corner from folio numbers. -/
def cornerOf (folios : List Nat) : Nat × Nat := ((folios.getD 0 0) / 24, (folios.getD 0 0) % 24)

/-- How a step of a move ends. -/
inductive MoveStep where
  | going (s : State)
  /-- it failed, with this CAUSE -/
  | failed (cause : Nat)

/-- One step of a move at the seam: check and prepare, wait for the planes, then ask for the freeze wave. -/
def State.moveStep (s : State) (t : Tx) (folios : List Nat) : MoveStep :=
  let sig := objSig t.object
  let corner := cornerOf folios
  if t.broken then .failed 9
  else if t.stage = 0 then
    if !s.targetFree t sig folios then .failed 10
    else .going ((s.prepareMove sig corner).updateTx t.num fun t => { t with stage := 1 })
  else if t.stage = 1 then
    if !s.targetFree t sig folios then .failed 10
    else if !s.movePrepared sig corner then .going (s.prepareMove sig corner)
    else
      let room := imageRoom (s.sig sig).ht (s.sig sig).wd
      if s.storeSize < s.platform.store + room then .failed 10
      else
        let s := { s with platform := { s.platform with store := s.platform.store + room } }
        let s := s.requestWave sig .move
        let s := s.setSig sig { s.sig sig with reservedStore := (s.sig sig).reservedStore + room }
        .going (s.updateTx t.num fun t => { t with stage := 2 })
  else .going s

/-- Whether a spine stands before a seam word. -/
def State.atSeamWord (s : State) (sig : Nat) : Bool :=
  let p := s.spineOf sig
  p.phase == .fetch &&
  (match p.fetched.find? fun b => b.1 == p.pc.toNat / 64 with
   | some (_, v) =>
     (match decodeWord (v.extractLsb' (128 * (p.pc.toNat % 64 / 16)) 128) with
      | .word h _ _ => h.seam
      | _ => false)
   | none => false)

/-- Whether a plane that a PART, or the undo of one, loads at its target before it asks for its freeze wave is one of a folio, of a world, an image
and a configuration (R386). -/
def State.loadsPlane (s : State) (t : Tx) (folio : Nat) (p : Plane) : Bool :=
  let sig := objSig t.object
  let folios := if t.state = .proposed then t.target else t.vacated
  t.cls == 0 && !t.rv && objKind t.object == 0 && t.stage == 1 && p.owner == some t.vif && p.image == (s.sig sig).code &&
    (match folios.idxOf? folio with | some k => p.cfg == s.activeCfg sig k | none => false)

/-- The move a saved signature is to make as it is placed again: the transaction, its target, and whether it is an undo. -/
def State.pendingMove (s : State) (sig : Nat) : Option (Tx × List Nat × Bool) :=
  match s.journal.txs.find? fun t => t.cls == 0 && !t.rv && objKind t.object == 0 && objSig t.object == sig && (t.stage == 1 || t.stage == 2) with
  | none => none
  | some t => if t.state = .proposed then some (t, t.target, false) else some (t, t.vacated, true)

/-! ### FMT (R288 to R290) -/

/-- n bits of a copy from a bit offset, opened under a key; a unit of the copy is named by VBASE and its offset (R289). -/
def State.copyBits (s : State) (k : Material) (vbase pbase : Word) (bit n : Nat) : Nat :=
  let u0 := bit / 512
  let units := (bit + n + 511) / 512 - u0
  let x := (List.range units).foldl (fun acc i =>
    let u := u0 + i
    acc + (s.getUnit k (pbase.toNat + 64 * u) (vbase.toNat / 64 + u)).toNat * 2 ^ (512 * i)) 0
  x / 2 ^ (bit - 512 * u0) % 2 ^ n

/-- Whether a unit among those that hold some bits of a copy is poisoned. -/
def State.copyPoisoned (s : State) (pbase : Word) (bit n : Nat) : Bool :=
  (List.range ((bit + n + 511) / 512 - bit / 512)).any fun i => s.poisonedUnits.contains (pbase.toNat / 64 + bit / 512 + i)

/-- Unit u of the new copy: the elements it holds, converted from the old copy. -/
def State.convertUnit (s : State) (k : Material) (vbase oldP newP : Word) (fo fn : BitVec 4) (u : Nat) : State :=
  let wo := laneWidth fo
  let wn := laneWidth fn
  let per := 512 / wn
  let bits := s.copyBits k vbase oldP (u * per * wo) (per * wo)
  let v : Vec := lanesOf wn fun i => portConvert fo fn (bitsOf bits (i * wo) wo)
  s.putUnit k (newP.toNat + 64 * u) (vbase.toNat / 64 + u) v (-1)

/-- n units from unit u. -/
def State.convertUnits (s : State) (k : Material) (vbase oldP newP : Word) (fo fn : BitVec 4) (u : Nat) : Nat → State
  | 0 => s
  | n + 1 => State.convertUnits (s.convertUnit k vbase oldP newP fo fn u) k vbase oldP newP fo fn (u + 1) n

/-- Physical address of a range entry. -/
def State.rangeAddress (s : State) (vif i : Nat) : Nat := ((s.iface vif).rtab.extractLsb' 22 29).toNat * 2 ^ 22 + 64 * i

/-- A range entry takes a PBASE and an SFMT. -/
def State.rebase (s : State) (vif i : Nat) (pbase : Word) (sfmt : BitVec 8) : State :=
  let a := s.rangeAddress vif i
  let attr := (Range.ofVec (s.rangeVec vif i)).attr
  let attr := (attr &&& ~~~(0xFF0 : Word)) ||| (sfmt.setWidth 64 <<< 4)
  { s with memory := (s.memory.writeNat (a + 16) 8 pbase.toNat 0xFF).writeNat (a + 32) 8 attr.toNat 0xFF }

/-- Whether a stream, of a placed or saved signature, holds an entry of a range. -/
def State.rangeInUse (s : State) (vif ridx : Nat) : Bool :=
  s.sigs.any fun (_, g) => g.vif == vif && g.ctxs.any fun (_, c) => c.kind == .stream && (Block.ofVec c.block).ridx == ridx

/-- The key of an FMT, if it passes R93. -/
def State.fmtKey (s : State) (t : Tx) : Option Material :=
  let (slot, gen, kw) := keyFields (blockWord t.afterBytes 3)
  if s.keyValid t.vif slot gen kw then s.material t.vif (s.keyUse slot gen kw) else none

/-- Bytes of a range's copy in a format. -/
def copyBytes (r : Range) (addr fmt : BitVec 8) : Nat :=
  (r.vlim.toNat - r.vbase.toNat) * laneWidth (elementSfmt fmt) / laneWidth (elementSfmt addr)

/-- The FMT applies: every element is converted and the entries are swapped in one step; its CAUSE when it is aborted instead. -/
def State.applyFmt (s : State) (t : Tx) : Nat ⊕ State :=
  let r := objIdx t.object
  let old := Range.ofVec (s.rangeVec t.vif r)
  let new := Range.ofVec (s.rangeVec t.vif t.spare)
  let addr := s.addressing t.vif r
  let nf : BitVec 8 := (blockWord t.afterBytes 1).extractLsb' 0 8
  let bytes := copyBytes old addr nf
  match s.fmtKey t with
  | none => .inl 10
  | some k =>
    if s.copyPoisoned old.pbase 0 (8 * copyBytes old addr old.sfmt) then .inl 9
    else
      let s := s.convertUnits k old.vbase old.pbase new.pbase (elementSfmt old.sfmt) (elementSfmt nf) 0 ((bytes + 63) / 64)
      let s := (s.rebase t.vif r new.pbase nf).rebase t.vif t.spare old.pbase old.sfmt
      let known := s.journal.addressing.any fun (v, i, _) => v == t.vif && i == r
      .inr (if known then s else { s with journal := { s.journal with addressing := (t.vif, r, addr) :: s.journal.addressing } })

/-- One unit of the old copy is converted back; what cannot be read leaves it poisoned, and is reported (R388). -/
def State.convertBack (s : State) (vif : Nat) (k : Material) (r : Range) (oldP : Word) (fo fn : BitVec 4) (u : Nat) : State :=
  let per := 512 / laneWidth fo
  let bit := u * per * laneWidth fn
  if s.copyPoisoned r.pbase bit (per * laneWidth fn) then
    let s := { s with poisonedUnits := s.poisonedUnits ++ [oldP.toNat / 64 + u] }
    s.report vif (FaultInfo.report 0x18 5 3 (r.vbase.toNat + 64 * u))
  else s.convertUnit k r.vbase r.pbase oldP fn fo u

/-- The marked units of an FMT are converted back and the entries swapped back (R290). -/
def State.undoFmt (s : State) (t : Tx) : Option State :=
  let ridx := objIdx t.object
  let new := Range.ofVec (s.rangeVec t.vif ridx)
  let old := Range.ofVec (s.rangeVec t.vif t.spare)
  let addr := s.addressing t.vif ridx
  match s.fmtKey t with
  | none => none
  | some k =>
    let per := 1024 * laneWidth (elementSfmt old.sfmt) / laneWidth (elementSfmt addr)
    let units := t.marks.flatMap fun m => (List.range per).map fun i => m * per + i
    let s := units.foldl (fun s u => s.convertBack t.vif k new old.pbase (elementSfmt old.sfmt) (elementSfmt new.sfmt) u) s
    some ((s.rebase t.vif ridx old.pbase old.sfmt).rebase t.vif t.spare new.pbase new.sfmt)

/-- A stream of a range writes: each FMT of the range that stands unsettled marks the unit of 64 KiB (R290). -/
def State.markFmt (s : State) (vif ridx : Nat) (va : Word) : State :=
  let object := objectWord 2 vif 0 ridx
  let r := Range.ofVec (s.rangeVec vif ridx)
  let m := (va.toNat - r.vbase.toNat) / 65536
  { s with journal := { s.journal with txs := s.journal.txs.map fun t =>
      if t.cls == 2 && !t.rv && t.state.standing && t.object == object && !t.marks.contains m then { t with marks := t.marks ++ [m] } else t } }

/-! ### Seams (R281, R286) -/

/-- The PROPOSED transaction of a signature that applies next at its seam; a move that is being applied is one to its end (R41). -/
def State.seamTx (s : State) (sig : Nat) : Option Tx :=
  s.journal.txs.find? fun t => t.cls < 2 && objKind t.object < 2 && objSig t.object == sig && (s.mayApply t || t.moving)

/-- The PART move of a signature that awaits its seam. -/
def State.awaitingMove (s : State) (sig : Nat) : Option Tx :=
  s.journal.txs.find? fun t => t.cls == 0 && objKind t.object == 0 && objSig t.object == sig && (s.mayApply t || t.moving)

/-- The member that a compound revert undoes next. -/
def CompoundRevert.next (r : CompoundRevert) : Option Nat := r.members.head?

/-- Whether the before-descriptor of a transaction can be read. -/
def State.beforeReadable (s : State) (t : Tx) : Bool :=
  match s.readUnit t.vif (((s.iface t.vif).darea &&& ~~~0x3FFFFF) + BitVec.ofNat 64 (64 * (t.before % 65536))) with
  | .ok _ => true
  | .error _ => false

/-- The member of a compound revert to be undone at a signature's seam. -/
def State.seamUndo (s : State) (sig : Nat) : Option Tx :=
  (s.journal.reverts.filterMap fun r => r.next.bind s.tx).find? fun t =>
    t.cls < 2 && objKind t.object < 2 && objSig t.object == sig && t.stage != 3 && t.state != .proposed

/-- The undo of a move that a signature's next seam would make. -/
def State.undoDue (s : State) (sig : Nat) : Option Tx := (s.seamUndo sig).filter fun t => t.cls == 0 && t.stage == 0

/-- A move, or the undo of one whose before-descriptor can be read, that a pre-emption's freeze wave serves too: it is made as the image is placed
again (R197, R297). -/
def State.joinWave (s : State) (sig : Nat) (move : Option Tx) : State :=
  let joined := match s.undoDue sig with | some t => (some t).filter s.beforeReadable | none => move.filter (·.cls == 0)
  match joined with
  | some t => s.updateTx t.num fun t => { t with stage := 2 }
  | none => s

/-- Whether the journal holds a signature's seam word back. -/
def State.seamHeld (s : State) (sig : Nat) : Bool := (s.seamTx sig).isSome || (s.seamUndo sig).isSome

/-- A seam word is emitted: a failed undo may be tried again at the next seam (R388). -/
def State.seamPassed (s : State) (sig : Nat) : State :=
  let mine (t : Tx) : Bool := t.stage == 3 && objKind t.object < 2 && objSig t.object == sig
  { s with journal := { s.journal with txs := s.journal.txs.map fun t => if mine t then { t with stage := 0 } else t } }

/-! ### Transactions that apply -/

/-- A transaction whose change is made is APPLIED; `before` is the before-descriptor as written. -/
def State.finish (s : State) (t : Tx) (before : Nat) (beforeBytes : Vec) (vacated : List Nat) : State :=
  s.applied t.num (s.dependencies t) before beforeBytes vacated

/-- Write the before-descriptor and make a change that cannot fail; without its descriptor the transaction is aborted (R387). -/
def State.applySimply (s : State) (t : Tx) (change : State → State) : State :=
  let bytes := s.beforeOf t
  match s.writeDescriptor t.vif bytes with
  | none => s.abort t.num 10
  | some (s, d) => (change s).finish t d bytes []

/-- Whether an Ethernet port that a descriptor names is up, or it names none (R387). -/
def State.ethReachable (s : State) (v : Vec) : Bool :=
  let e := (blockWord v 3).toNat
  e == 15 || s.platform.ethUp.getLsbD e

/-- Whether a ROUTE's port names a folio of the signature. -/
def State.routeInside (s : State) (sig : Nat) (v : Vec) : Bool :=
  let g := s.sig sig
  ((blockWord v 1).extractLsb' 0 4).toNat < g.ht && ((blockWord v 1).extractLsb' 4 5).toNat < g.wd

/-- A ROUTE at the seam of its handle's signature. -/
def State.applyRoute (s : State) (t : Tx) : State :=
  let sig := objSig t.object
  if !s.ethReachable t.afterBytes || !s.routeInside sig t.afterBytes then s.abort t.num 10
  else s.applySimply t fun s => s.setRoute sig (objIdx t.object) t.afterBytes

/-- ROUTEs that wait for the seam at which a move has just been applied apply there too, in number order (R281, R299). -/
def State.applySeamRoutes (s : State) (sig : Nat) : State :=
  (s.journal.txs.map (·.num)).foldl (fun s n =>
    match s.seamTx sig with
    | some t => if t.num = n ∧ t.cls = 1 then s.applyRoute t else s
    | none => s) s

/-- A moved image stands at its new place: the transaction is applied, or its undo is done. -/
def State.moved (s : State) (n : Nat) (undo : Bool) : State :=
  if undo then
    match s.revertOf n with
    | some r => s.memberFinal r n true
    | none => s
  else
    match s.tx n with
    | some t => (s.finish t t.before t.beforeBytes t.vacated).applySeamRoutes (objSig t.object)
    | none => s

/-! ### Rewritten range entries (R288) -/

/-- Privileged software writes bytes of physical memory: an addressing format is kept until its range entry is rewritten. -/
def State.rewriteRanges (s : State) (addr size : Nat) : State :=
  let kept (x : Nat × Nat × BitVec 8) : Bool :=
    let a := s.rangeAddress x.1 x.2.1
    addr + size ≤ a || a + 64 ≤ addr
  { s with journal := { s.journal with addressing := s.journal.addressing.filter kept } }

end Sys2Proof.Machine
end

