-- ==== Sys2Proof/Machine/FillOps.lean ====
section
/-!
DEFINITION. Stream data at the ports: the pieces of a run under an FMT (R78, R81, R289), granules and their places (R82), fills of buffers
(R60, R63, R64, R371, R375), and buffers that a retired key voids (R60, R376).
-/

namespace Sys2Proof.Machine

/-! ### A stream's addresses (R81, R289) -/

/-- The captured range. -/
def Ctx.rangeEntry (c : Ctx) : Range := Range.ofVec c.range

/-- Byte offset in the copy of a byte offset in the addressing format, and back. -/
def Ctx.toCopy (c : Ctx) (n : Nat) : Nat :=
  if c.addressing = c.rangeEntry.sfmt then n else n * storageWidth c.rangeEntry.sfmt / storageWidth c.addressing
def Ctx.fromCopy (c : Ctx) (n : Nat) : Nat :=
  if c.addressing = c.rangeEntry.sfmt then n else n * storageWidth c.addressing / storageWidth c.rangeEntry.sfmt

/-- Where a run begins in the copy, as an address of R289. -/
def Ctx.copyStart (c : Ctx) (a : Word) : Word :=
  if c.addressing = c.rangeEntry.sfmt then a else c.rangeEntry.vbase + BitVec.ofNat 64 (c.toCopy (a - c.rangeEntry.vbase).toNat)

/-- The pieces of an atomic-scatter run: one for each lane of the atomic width that holds bytes of the run (R97). -/
def lanePieces (a : Word) (bytes lane : Nat) : List Piece :=
  (List.range ((bytes + lane - 1) / lane)).map fun i => ⟨a + BitVec.ofNat 64 (lane * i), lane * i, lane, false⟩

/-- The address of run k, once its index is known. -/
def Ctx.runStart (c : Ctx) (k : Nat) : Word :=
  let b := Block.ofVec c.block
  b.base + b.offset k (c.index.get 0 k)

/-- The pieces of run k. -/
def Ctx.piecesOf (c : Ctx) (k : Nat) : List Piece :=
  let b := Block.ofVec c.block
  let r := c.rangeEntry
  let a := c.copyStart (c.runStart k)
  if b.mode = 4 then lanePieces a (b.runBytes r.sfmt) (if b.wide then 8 else 4) else b.pieces r a

/-- The address a program knows a piece by. -/
def Ctx.programVa (c : Ctx) (k : Nat) (p : Piece) : Word :=
  if p.scale || c.addressing = c.rangeEntry.sfmt then p.va else c.runStart k + BitVec.ofNat 64 (c.fromCopy p.off)

/-- The tag of a piece of a run. -/
def pieceTag (run i : Nat) : Nat := run * 2 ^ 32 + i

/-! ### Places (R77, R82) -/

/-- Places of a stream's window, with 256 added for the granules of scales that MX storage delivers to BUF + 1. -/
def Ctx.lanes (c : Ctx) : List Nat :=
  let b := Block.ofVec c.block
  List.range b.places ++ (if mxSfmt c.rangeEntry.sfmt then (List.range b.places).map (· + 256) else [])

/-- Granules of a run that a kind of place shares. -/
def Ctx.perRun (c : Ctx) (lane : Nat) : Nat :=
  let b := Block.ofVec c.block
  if 256 ≤ lane then b.scaleGranules c.rangeEntry.sfmt else b.granules

/-- Granules of a place in the whole stream. -/
def Ctx.laneTotal (c : Ctx) (lane : Nat) : Nat :=
  let b := Block.ofVec c.block
  dealt (b.runs * c.perRun lane) b.places (lane % 256)

/-- Run, and granule within it, of granule j of a place: granules of scales are dealt over the window by their own count. (log 82, DESIGN
CHOICE) -/
def Ctx.granuleAt (c : Ctx) (lane j : Nat) : Nat × Nat :=
  let q := j * (Block.ofVec c.block).places + lane % 256
  (q / c.perRun lane, q % c.perRun lane)

/-- Buffer, format and scaled bit of a place (R77). -/
def Ctx.target (c : Ctx) (lane : Nat) : Nat × BitVec 4 × Bool :=
  let b := Block.ofVec c.block
  if 256 ≤ lane then (b.buf + 1, 0xD, true) else (b.buf, b.rfmt, b.rs || mxSfmt c.rangeEntry.sfmt)

/-- Signature coordinates of a place's element. -/
def Ctx.elementAt (c : Ctx) (wd key lane : Nat) : Nat × Nat :=
  let (i, j) := (Block.ofVec c.block).placeAt (lane % 256)
  (16 * (key / 16 / wd) + i, 16 * (key / 16 % wd) + j)

/-- The pieces, with their numbers in the run, that granule g of a run's data or scales takes bytes from. -/
def Ctx.covering (c : Ctx) (lane run g : Nat) : List (Nat × Piece) :=
  let b := Block.ofVec c.block
  let (o, n) := if 256 ≤ lane then (64 * g, 64) else b.granuleBytes c.rangeEntry.sfmt g
  let ps := c.piecesOf run
  ((List.range ps.length).zip ps).filter fun x => x.2.scale == decide (256 ≤ lane) && decide (x.2.off < o + n) && decide (o < x.2.off + x.2.len)

/-- Granule g of a run from the units delivered (R77, R82). -/
def Ctx.granule (c : Ctx) (lane run g : Nat) : Vec :=
  let bytes := (c.covering lane run g).foldl (fun acc x =>
    let u := c.units.get 0 (pieceTag run x.1)
    acc + u.toNat / 2 ^ (8 * (x.2.va.toNat % 64)) % 2 ^ (8 * x.2.len) * 2 ^ (8 * x.2.off)) 0
  if 256 ≤ lane then BitVec.ofNat 512 (bytes / 2 ^ (512 * g)) else (Block.ofVec c.block).granuleOf c.rangeEntry.sfmt bytes g

/-! ### Fills (R60, R63, R371) -/

/-- The mask of the half of a granule. -/
def halfMask (upper : Bool) : Vec := BitVec.ofNat 512 ((2 ^ 256 - 1) * (if upper then 2 ^ 256 else 1))

/-- Write half of a granule of the scratchpad under a generation; `whole` says that the other half of the fill has landed too, which clears a
poison mark (R369). -/
def Element.fillGranule (e : Element) (gen : Gen) (g : Nat) (data : Vec) (upper whole : Bool) : Element :=
  let r := (e.pad.get (Tagged.zero 512) g).write gen data (halfMask upper)
  let r := if whole then { r with poison := false } else r
  { e with pad := e.pad.set (Tagged.zero 512) g r }

/-- What becomes of a half that arrives. -/
inductive Landing where
  | lands (e : Element)
  | waits
  /-- discarded: 1 undeclared or beyond CNT, 2 stale -/
  | discarded (why : Nat)

/-- A half of granule j of a stream meets its buffer (R60, R64, R371); `whole` says that with it both halves of the granule have landed, and
so the granule counts (R57). -/
def Element.meetHalf (e : Element) (gen : Gen) (buf owner : Nat) (fmt : BitVec 4) (scaled : Bool) (j : Nat) (upper whole : Bool)
    (data : Vec) : Landing :=
  let r := e.b.get (Tagged.zero 64) buf
  let d := BufferDesc.ofWord r.data
  if r.gen ≠ gen then .discarded 2
  else if d.cnt = 0 ∨ d.cnt ≤ j then .discarded 1
  else if d.st = 0 || (d.st = 1 && e.owner.get 0 buf = owner) then
    let d := if d.st = 0 then { d with st := 1, fmt, scaled } else d
    let fcnt := if whole then d.fcnt + 1 else d.fcnt
    let full := whole && fcnt = d.cnt
    let e := e.fillGranule gen (d.base + j) data upper whole
    let e := (e.updateBuffer gen buf { d with fcnt, st := if full then 2 else 1 }).count 6 1
    .lands { e with owner := e.owner.set 0 buf (if full then 0 else owner), landed := e.landed ++ [(d.base + j, upper)] }
  else .waits

/-! ### Voided buffers (R60, R371, R376) -/

/-- A key-retired discard meets its buffer: the element after it, or nothing when it must wait; `landed` tells the granules of the stream that
have landed, which a FILLING buffer keeps. A buffer that the stream has voided already stays as it is, as in R399's example, where two requests of
one stream are refused and the stream completes. (log 50, DEDUCED) -/
def Element.voidBuffer (e : Element) (gen : Gen) (buf owner : Nat) (fmt : BitVec 4) (scaled : Bool) (landed : Nat → Bool) :
    Option Element :=
  let r := e.b.get (Tagged.zero 64) buf
  let d := BufferDesc.ofWord r.data
  let mine := e.owner.get 0 buf == owner
  if r.gen ≠ gen ∨ d.cnt = 0 then some e
  else if d.st = 2 && d.void && mine then some e
  else if d.st = 0 || (d.st = 1 && mine) then
    let e := (List.range d.cnt).foldl (fun e g =>
      if d.st = 1 && landed g then e
      else { e with pad := e.pad.set (Tagged.zero 512) (d.base + g) ((e.pad.get (Tagged.zero 512) (d.base + g)).write gen 0 (-1)) }) e
    let d := if d.st = 0 then { d with fmt, scaled } else d
    let e := e.updateBuffer gen buf { d with st := 2, void := true }
    some { e with owner := e.owner.set 0 buf owner }
  else none

/-- Whether both halves of granule j of a place have landed in its buffer as it stands. -/
def Ctx.hasLanded (c : Ctx) (lane j : Nat) : Bool := decide (2 * j + 2 ≤ c.landed.get 0 lane) && !c.dropped.contains (lane, j)

/-- Granules of a place that are no longer in its buffer: as a buffer is voided, those that landed in it, in whole or in part. -/
def Ctx.forget (c : Ctx) (lane : Nat) : Ctx :=
  { c with dropped := (c.dropped ++ (List.range ((c.landed.get 0 lane + 1) / 2)).map fun j => (lane, j)).eraseDups }

/-- Void the buffer of a place of a context; a stream of an older generation voids none (R375). -/
def State.voidPlace (s : State) (sig key lane : Nat) : Option State :=
  let g := s.sig sig
  let c := s.ctx sig key
  let (r, cc) := c.elementAt g.wd key lane
  let gen := (s.folioOf sig r cc).gen
  let (buf, fmt, scaled) := c.target lane
  if c.gen ≠ s.genOf sig then some s
  else
    ((s.elementOf sig r cc).voidBuffer gen buf (key + 1) fmt scaled (c.hasLanded lane)).map fun e =>
      (s.setElementOf sig r cc e).setCtx sig key (c.forget lane)

/-- Void it now, or let the discard wait at the port. -/
def State.voidOrWait (s : State) (sig key lane : Nat) : State :=
  match s.voidPlace sig key lane with
  | some s => s
  | none =>
    let c := s.ctx sig key
    if c.voids.contains lane then s else s.setCtx sig key { c with voids := c.voids ++ [lane] }

/-- The places whose granules take bytes from a piece. -/
def Ctx.placesOf (c : Ctx) (run i : Nat) : List Nat :=
  let b := Block.ofVec c.block
  let kinds := if mxSfmt c.rangeEntry.sfmt then [0, 256] else [0]
  kinds.flatMap fun kind =>
    (((List.range (c.perRun kind)).filter fun g => (c.covering kind run g).any fun x => x.1 == i).map
      fun g => kind + (run * c.perRun kind + g) % b.places).dedup

/-- A fill request of a stream has been retired: its piece is lost, and the buffers it would have filled are voided. -/
def State.losePiece (s : State) (sig key tag : Nat) : State :=
  let c := s.ctx sig key
  let s := s.setCtx sig key { c with lost := c.lost ++ [tag] }
  (c.placesOf (tag / 2 ^ 32) (tag % 2 ^ 32)).foldl (fun s lane => s.voidOrWait sig key lane) s

/-! ### Landing (R82, R83, R87) -/

/-- Whether a place's next half can be considered: its granule's pieces are there or lost. -/
def Ctx.nextReady (c : Ctx) (lane : Nat) : Bool :=
  let h := c.landed.get 0 lane
  if 2 * c.laneTotal lane ≤ h || c.voids.contains lane then false
  else
    let (run, g) := c.granuleAt lane (h / 2)
    let b := Block.ofVec c.block
    (!b.indexed || (Tab.look c.index run).isSome) &&
      (c.covering lane run g).all fun x => (Tab.look c.units (pieceTag run x.1)).isSome || c.lost.contains (pieceTag run x.1)

/-- Whether the next granule of a place has lost a piece. -/
def Ctx.nextLost (c : Ctx) (lane : Nat) : Bool :=
  let (run, g) := c.granuleAt lane (c.landed.get 0 lane / 2)
  (c.covering lane run g).any fun x => c.lost.contains (pieceTag run x.1)

/-- Units whose every granule has landed leave the read-ahead (R85). -/
def Ctx.dropUsed (c : Ctx) (lane run g : Nat) : Ctx :=
  let b := Block.ofVec c.block
  let kind := lane / 256 * 256
  let used (i : Nat) : Bool :=
    (List.range (c.perRun kind)).all fun k =>
      !((c.covering kind run k).any fun x => x.1 == i) ||
        let q := run * c.perRun kind + k
        2 * (q / b.places) + 2 ≤ c.landed.get 0 (kind + q % b.places)
  (c.covering lane run g).foldl (fun c x => if used x.1 then { c with units := Tab.erase (pieceTag run x.1) c.units } else c) c

/-- The granule that the next half of a place is of does not land whole. -/
def Ctx.dropGranule (c : Ctx) (lane : Nat) : Ctx :=
  let j := c.landed.get 0 lane / 2
  if c.dropped.contains (lane, j) then c else { c with dropped := c.dropped ++ [(lane, j)] }

/-- The next half of a place has landed or is discarded. -/
def Ctx.halfDone (c : Ctx) (lane n : Nat) : Ctx :=
  let h := c.landed.get 0 lane
  let (run, g) := c.granuleAt lane (h / 2)
  let c := { c with landed := c.landed.set 0 lane (h + n) }
  if (h + n) % 2 = 0 then { c.dropUsed lane run g with stale := c.stale.filter (· ≠ lane) } else c

/-- A half that the port discards counts as landed; the first of its cause writes a record (R371). The first half of a granule that meets a stale
descriptor takes the second half with it (R64). -/
def State.discardHalf (s : State) (sig key lane why : Nat) : State :=
  let c := s.ctx sig key
  let j := c.landed.get 0 lane / 2
  let c := if why = 2 then { c with stale := c.stale ++ [lane] } else c
  (s.setCtx sig key ((c.dropGranule lane).halfDone lane 1)).portReport sig key 0x19 why (c.target lane).1 j (s.sig sig).time

/-- What the fill bus of a context's folio carries in this cycle (R87): fill halves in all, egress halves in all, and halves of both in one row. -/
def State.busHalves (s : State) (sig key row : Nat) : Nat × Nat × Nat :=
  let g := s.sig sig
  let r0 := 16 * (key / 16 / g.wd)
  let c0 := 16 * (key / 16 % g.wd)
  (List.range 256).foldl (fun (acc : Nat × Nat × Nat) k =>
    let r := r0 + k / 16
    let e := s.elementOf sig r (c0 + k % 16)
    let n := e.landed.length
    let m := min 1 e.bus
    (acc.1 + n, acc.2.1 + m, if r = row then acc.2.2 + n + m else acc.2.2)) (0, 0, 0)

/-- The next half of a place lands, or meets its other fates; nothing when it waits. -/
def State.landHalf (s : State) (sig key lane : Nat) : Option State :=
  let g := s.sig sig
  let c := s.ctx sig key
  let h := c.landed.get 0 lane
  let (run, k) := c.granuleAt lane (h / 2)
  let (row, col) := c.elementAt g.wd key lane
  let gen := (s.folioOf sig row col).gen
  let (buf, fmt, scaled) := c.target lane
  let upper := h % 2 == 1
  let whole := upper && !c.dropped.contains (lane, h / 2)
  let (fills, _, inRow) := s.busHalves sig key row
  if c.nextLost lane then some (s.setCtx sig key ((c.dropGranule lane).halfDone lane 2))
  else if c.gen ≠ s.genOf sig || (upper && c.stale.contains lane) then some (s.discardHalf sig key lane 2)
  else
    match (s.elementOf sig row col).meetHalf gen buf (key + 1) fmt scaled (h / 2) upper whole (c.granule lane run k) with
    | .waits => none
    | .discarded why => some (s.discardHalf sig key lane why)
    | .lands e =>
      if 4 ≤ fills ∨ 1 ≤ inRow then none
      else some ((((s.setElementOf sig row col e).setCtx sig key (c.halfDone lane 1)).count sig 6 32).spend g.vif fun a => { a with fill := a.fill + 32 })

end Sys2Proof.Machine
end

