-- ==== Sys2Proof/Machine/Requests.lean ====
section
/-!
DEFINITION. Memory requests of the ports (R73, R78, R83, R86, R89, R90, R93, R95): their issue and checks, their application at the home,
their replies, and what a failed one leaves (R364 to R366, R376).
-/

namespace Sys2Proof.Machine

/-! ### The list of requests -/

def State.request (s : State) (id : Nat) : Option Request := s.requests.find? (·.id = id)

def State.updateRequest (s : State) (r : Request) : State :=
  { s with requests := s.requests.map fun x => if x.id = r.id then r else x }

def State.dropRequest (s : State) (id : Nat) : State := { s with requests := s.requests.filter (·.id ≠ id) }

/-- The context a request belongs to (R83): a spine context or a stream context. -/
def ReqSource.context : ReqSource → Nat × Nat × Nat
  | .spine sig => (0, sig, 0)
  | .readAhead sig => (0, sig, 0)
  | .stream sig ctx _ => (1, sig, ctx)
  | .index sig ctx _ => (1, sig, ctx)

/-- Whether a request is outstanding: it has neither completed nor faulted (R41, R383). -/
def Request.outstanding (r : Request) : Bool := match r.stage with | .faulted .. => false | _ => true

/-- Requests of a port's 17 contexts that are outstanding, and whether the lead port has no room for another (R7, R78). -/
def State.portLoad (s : State) (sig place : Nat) : Nat :=
  (s.requests.filter fun r => r.outstanding && r.source.owner.1 == sig && r.source.owner.2 / 16 == place).length

def State.portFull (s : State) (sig : Nat) : Bool := decide (256 ≤ s.portLoad sig 0)

/-- Whether the port at a place of a signature has a free request slot. -/
def State.portRoom (s : State) (sig place : Nat) : Bool := decide (s.portLoad sig place < 256)

/-- Whether the ports of a signature issue requests: it is placed, no freeze wave is in force (R41), and it does not end by fault (R355). -/
def State.portsIssue (s : State) (sig : Nat) : Bool :=
  let g := s.sig sig
  (g.status == .running || g.status == .draining) && !g.cutOff && !g.waves.any fun w => w.inForce && w.cause != .causal

/-- A request whose fault is resolved waits for its port to issue it again (R354, R383): it is numbered with no record. -/
def Request.resolved (r : Request) : Request :=
  match r.stage with
  | .faulted code aux _ => { r with stage := .faulted code aux 0 }
  | _ => { r with stage := .faulted 0 0 0 }

def Request.isResolved (r : Request) : Bool := match r.stage with | .faulted _ _ 0 => true | _ => false

/-- Whether a stream context has requests to issue again. -/
def State.reissues (s : State) (sig ctx : Nat) : Bool := s.requests.any fun r => r.isResolved && r.source.context == (1, sig, ctx)

/-- A store or atomic whose effect is still to come. -/
def Request.unapplied (r : Request) : Bool :=
  (match r.op with | .read => false | _ => true) && (match r.stage with | .reply => false | _ => true)

/-- Whether a request's home lies on another die than its port, so that it leaves through a boundary switch. -/
def Request.remote (r : Request) : Bool :=
  match homeOf r.pa with
  | some h => h.die != r.die
  | none => false

/-- Whether a request holds another one back. From one die to one remote home, requests go in the order in which they entered the first boundary
switch (R257). Before that, an earlier request of the same context goes first, if both go to one home or the earlier one's home is not known
yet (R83, R90). (log 31, DEDUCED) -/
def Request.blocks (a b : Request) : Bool :=
  if (a.entered != 0 || b.entered != 0) && a.die == b.die && homeOf a.pa == homeOf b.pa then
    a.entered != 0 && a.stage == .travel && (b.entered == 0 || a.entered < b.entered)
  else
    a.id < b.id && a.source.context == b.source.context &&
      (match a.stage with
       | .translate => true
       | .key => homeOf a.pa == homeOf b.pa
       | .travel => homeOf a.pa == homeOf b.pa
       | _ => false)

/-- Stores of a spine that are not performed yet (R257). -/
def State.spineStores (s : State) (sig : Nat) : List Request :=
  s.requests.filter fun r => r.source == .spine sig && r.unapplied

/-- Stores that a fork or a wide release of a spine comes after: its own, and those of its die that have passed the first boundary switch on their
route, since it may have acquired them at a scope within the die (R254, R255, R257). -/
def State.earlierStores (s : State) (sig : Nat) : List Request :=
  let g := s.sig sig
  s.requests.filter fun r =>
    r.unapplied && (r.source == .spine sig || (r.stage == .travel && r.entered != 0 && r.die == dieOf g.row0 g.col0))

/-- Whether stores that come before a fork are still to be performed: they come before everything of the operation (R254). -/
def State.forkOpen (s : State) (sig fork : Nat) : Bool := (s.earlierStores sig).any fun r => r.id < fork

/-- Whether a release at a scope reaches beyond the issuing die: dv, sy, and sg of a signature that spans dies (R257). -/
def State.wideRelease (s : State) (sig scope : Nat) : Bool :=
  let g := s.sig sig
  scope = 4 || scope = 5 || (scope = 2 && g.boundaries (16 * g.ht - 1) (16 * g.wd - 1) != 0)

/-- Whether a release of a spine at a scope is complete (R257, R258). A wide one waits until every earlier store is applied at its home, those it has
acquired among them, and for the stream stores of its port; a narrow one until each is applied on the issuing die, or has entered the first boundary switch on its route. (log
34, DEDUCED) -/
def State.released (s : State) (sig scope : Nat) : Bool :=
  if s.wideRelease sig scope then
    (s.earlierStores sig).isEmpty && !s.requests.any fun r =>
      match r.source with
      | .stream n ctx _ => n = sig && ctx / 16 = 0 && r.unapplied
      | _ => false
  else (s.spineStores sig).all fun r => r.remote && r.entered != 0

/-! ### Key caches (R90) -/

/-- The key cache a request uses: its port's by folio, or its home's for partial writes and atomics. -/
def Request.cacheUnit (r : Request) (port : Nat) : Nat :=
  match r.op with
  | .read => port
  | .sealed _ => port
  | _ => match homeOf r.pa with | some (.stack n) => 288 + n | _ => 300

/-- Whether a request must wait for an unwrap. -/
def State.keyMiss (s : State) (r : Request) (port : Nat) : Bool :=
  match r.key with
  | .slot n gen epoch => !s.keyCache.any fun e => e.unit = r.cacheUnit port && e.slot = n && e.gen = gen && e.epoch = epoch
  | _ => false

/-- An entry is cached; with 64 in the cache, one that is not architected gives way. -/
def State.cacheKey (s : State) (unit slot gen : Nat) (epoch : Bool) : State :=
  let mine := s.keyCache.filter (·.unit = unit)
  let others := s.keyCache.filter (·.unit ≠ unit)
  let kept := if mine.length < 64 then mine else mine.eraseIdx (Config.choice s.free % 64)
  { s with keyCache := others ++ kept ++ [⟨unit, slot, gen, epoch⟩], free := s.free + 1 }

/-! ### Faults of requests -/

/-- The port a request leaves from, as a folio number. -/
def State.portOf (s : State) (src : ReqSource) : Nat :=
  let (sig, ctx) := src.owner
  let (row, col) := (s.sig sig).ctxFolio ctx
  row * 24 + col

/-- Faults that a request of the spine context meets while the spine waits for it become its answer. -/
def State.answerSpine (s : State) (sig : Nat) (a : Answer) : State :=
  s.setSpineOf sig { s.spineOf sig with answer := some a }

/-- A request fails a check: its spine hears of it, its context holds, or a prefetch is dropped (R364 to R366). A spine store that its
home refuses has no waiting slot: its STOP stands at the spine until it is answered. -/
def State.failRequest (s : State) (r : Request) (f : CheckFault) (addr : Word) : State :=
  match r.source with
  | .readAhead _ => s.dropRequest r.id
  | .spine sig =>
    match r.op with
    | .read => (s.dropRequest r.id).answerSpine sig (.fault f.code (BitVec.ofNat 64 f.aux) addr)
    | .atomic .. => (s.dropRequest r.id).answerSpine sig (.fault f.code (BitVec.ofNat 64 f.aux) addr)
    | .arrive _ => (s.dropRequest r.id).answerSpine sig (.fault f.code (BitVec.ofNat 64 f.aux) addr)
    | _ =>
      let info : FaultInfo :=
        { code := f.code, disp := 2, acts := stopActs f.code, unit := 0, slot := 3, sig, offset := r.code.toNat, place := none
          time := r.time, addr := addr.toNat, aux := f.aux, more := 0, handle := 0, ctxGen := 0, ctx := 0, request := r.id, seen := none }
      match s.recordFault (s.sig sig).vif info with
      | (s, none) => (s.dropRequest r.id).endByFault sig
      | (s, some k) => s.updateRequest { r with stage := .faulted f.code (BitVec.ofNat 64 f.aux) k }
  | src =>
    let (sig, key) := src.owner
    match s.takeHold r.vif sig key f.code f.aux addr (s.ctx sig key).gen.toNat r.time with
    | (s, some k) => s.updateRequest { r with stage := .faulted f.code (BitVec.ofNat 64 f.aux) k }
    | (s, none) => (s.dropRequest r.id).endByFault sig

/-- A request meets the end of its key slot (R95, R376): its data is lost and reported, with its unit's address and its issue time; a fill's granules will be discarded. A destroyed
world key is a key fault instead (R377). -/
def State.retireRequest (s : State) (r : Request) : State :=
  match r.key with
  | .slot .. =>
    let s := s.dropRequest r.id
    match r.source with
    | .stream sig key tag =>
      let s := s.portReport sig key 0x0E r.key.aux r.key.aux (r.va.toNat / 64 * 64) r.time
      (match r.op with | .read => s.losePiece sig key tag | _ => s)
    | src => s.portReport src.owner.1 src.owner.2 0x0E r.key.aux r.key.aux (r.va.toNat / 64 * 64) r.time
  | _ => s.failRequest r ⟨0x0A, r.key.aux⟩ r.va

/-! ### Issue (R83, R93, R364) -/

/-- A whole-unit write is sealed at its port when it is issued (R89). -/
def Request.sealAtPort (r : Request) (k : Material) : Request :=
  match r.op with
  | .write data mask => if mask = -1 then { r with op := .sealed (sealWith k (r.sealVa.toNat / 64) data) } else r
  | _ => r

/-- A translated request passes the key-domain check and goes on to an unwrap or to its home. -/
def State.sendOn (s : State) (r : Request) (pa : Nat) : State :=
  let r := { r with pa }
  match s.material r.vif r.key with
  | none => s.retireRequest r
  | some k =>
    if belowDomain k (r.sealVa.toNat / 64) then s.failRequest r ⟨0x0C, r.key.aux⟩ r.va
    else
      let r := r.sealAtPort k
      s.updateRequest { r with stage := if s.keyMiss r (s.portOf r.source) then .key else .travel }

/-- What an operation needs of a leaf. -/
def ReqOp.need : ReqOp → Need
  | .read => .rd
  | .atomic .. => .at
  | .arrive _ => .at
  | .add _ => .at
  | _ => .wr

/-- Kind of a watchpoint hit (R321). -/
def ReqOp.watchKind : ReqOp → Nat
  | .read => 0
  | .atomic .. => 2
  | .arrive _ => 2
  | .add _ => 2
  | _ => 1

/-- Translate a request through the page tables: the TLB serves a hit; a miss waits for a walker (R73). -/
def State.translateRequest (s : State) (r : Request) : State :=
  if (r.va.extractLsb' 56 8).toNat ≠ 0 then s.failRequest r ⟨0x08, 0xF⟩ r.va
  else
    match s.tlbHit r.die r.vif r.va.toNat with
    | none => s.updateRequest { r with stage := .translate }
    | some l =>
      match s.checkLeaf l r.va.toNat [r.op.need] with
      | .error f => s.failRequest r f r.va
      | .ok pa => s.sendOn r pa

/-- A request's checks are made from the first one on (R364, R365): it captures the epoch of its slot now (R93). -/
def State.startRequest (s : State) (r : Request) : State :=
  let r := { r with entered := 0, bad := false }
  let r := match r.key with | .slot n gen _ => { r with key := s.keyUse n gen false } | _ => r
  match r.source with
  | .stream sig key _ =>
    let c := s.ctx sig key
    let b := Block.ofVec c.block
    match c.rangeEntry.check r.va r.scale b.need with
    | .error f => s.failRequest r f r.va
    | .ok _ =>
      if b.indexed then s.translateRequest r
      else
        match s.checkPhysical (c.rangeEntry.linear r.sealVa) with
        | .error f => s.failRequest r f r.va
        | .ok pa => s.sendOn r pa
  | _ => s.translateRequest r

/-- A request whose fault is resolved is issued again from where its port stands now, once the port has room for it (R78, R354, R383). It
does not count as issued anew (log 97, DESIGN CHOICE). -/
def State.issueAgain (s : State) (r : Request) : State :=
  let (sig, ctx) := r.source.owner
  let (row, col) := (s.sig sig).ctxFolio ctx
  if s.portRoom sig (ctx / 16) then s.startRequest { r with die := dieOf row col } else s

/-- The requests of a signature that are to be issued again are, in their order, as far as their ports have room; after a restore from the first
unfrozen cycle on (R383). `frozen` says that no words move in this cycle. -/
def State.reissueResolved (s : State) (sig : Nat) (frozen : Bool) : State :=
  let g := s.sig sig
  if (if g.reissue then frozen else !s.portsIssue sig) then s
  else
    let s := if g.reissue then s.setSig sig { g with reissue := false } else s
    (s.requests.filter fun r => r.isResolved && r.source.owner.1 == sig).foldl State.issueAgain s

/-- A new request enters the list; it counts as issued by its port (R191). -/
def State.newRequest (s : State) (r : Request) : State × Request :=
  let r := { r with id := s.nextRequest }
  ({ s with requests := s.requests ++ [r], nextRequest := s.nextRequest + 1 }.count r.source.owner.1 5 1, r)

/-- A request of the spine context (R86): the world key and the page tables. -/
def State.spineRequest (s : State) (sig : Nat) (va : Word) (op : ReqOp) : Request :=
  let g := s.sig sig
  { id := 0, source := .spine sig, vif := g.vif, va, sealVa := va, scale := false, pa := 0, key := .world, op, stage := .translate
    data := 0, bad := false, die := dieOf g.row0 g.col0, entered := 0, code := BitVec.ofNat 32 (s.codeOffset sig), time := g.time }

/-- The spine issues a read or an atomic and waits for its answer. -/
def State.issueSpine (s : State) (sig : Nat) (va : Word) (op : ReqOp) : State :=
  let s := s.watch (s.sig sig).vif sig va.toNat op.watchKind
  let (s, r) := s.newRequest (s.spineRequest sig va op)
  s.translateRequest r

/-- The spine issues a store, or an add that returns nothing: it does not wait for its home, so its checks are made as it is issued, by
a walk on a miss (log 12, DEDUCED). -/
def State.issueStore (s : State) (sig : Nat) (va : Word) (op : ReqOp) : Except CheckFault State :=
  let g := s.sig sig
  let die := dieOf g.row0 g.col0
  match s.translatePages (some die) g.vif va [op.need], s.worldMaterial g.vif with
  | .error f, _ => .error f
  | _, .error f => .error f
  | .ok pa, .ok k =>
    let s := s.watch g.vif sig va.toNat op.watchKind
    let s :=
      match s.tlbHit die g.vif va.toNat, s.walk g.vif va.toNat with
      | none, .ok l => s.fillTlb die g.vif va.toNat l
      | _, _ => s
    let (s, r) := s.newRequest ((s.spineRequest sig va op).sealAtPort k)
    .ok (s.updateRequest { r with pa, stage := .travel })

/-! ### Spine read-ahead (R86, R256) -/

/-- An acquire empties the read-ahead; prefetches on their way are dropped with it. -/
def State.emptyReadAhead (s : State) (sig : Nat) : State :=
  let s := s.setSpineOf sig { s.spineOf sig with readAhead := [] }
  { s with requests := s.requests.filter fun r => r.source != .readAhead sig }

/-- An atomic drops the entry of its unit, and a prefetch of it on its way. -/
def State.dropReadAhead (s : State) (sig unit : Nat) : State :=
  let p := s.spineOf sig
  let s := s.setSpineOf sig { p with readAhead := p.readAhead.filter (·.unit ≠ unit) }
  { s with requests := s.requests.filter fun r => !(r.source == .readAhead sig && r.va.toNat / 64 == unit) }

/-- A store updates the entry it covers; a prefetch of the unit on its way is dropped. -/
def State.storeReadAhead (s : State) (sig unit : Nat) (data mask : Vec) : State :=
  let p := s.spineOf sig
  let s := s.setSpineOf sig { p with
    readAhead := p.readAhead.map fun e => if e.unit = unit then { e with data := (e.data &&& ~~~mask) ||| (data &&& mask) } else e }
  { s with requests := s.requests.filter fun r => !(r.source == .readAhead sig && r.va.toNat / 64 == unit) }

/-- A fetched unit enters the read-ahead; at 256 units the entry with the oldest fetch gives way, and an entry that a later request filled
stays. -/
def Spine.addReadAhead (p : Spine) (e : ReadAhead) : Spine :=
  if p.readAhead.any fun x => x.unit = e.unit && e.id < x.id then p
  else
    let others := p.readAhead.filter (·.unit ≠ e.unit)
    let oldest := others.foldl (fun (m : Option ReadAhead) x =>
      match m with | none => some x | some y => if x.fetched < y.fetched then some x else some y) none
    let kept := if others.length < 256 then others else others.filter fun x => some x != oldest
    { p with readAhead := kept ++ [e] }

/-! ### At the home (R89, R97) -/

/-- The atomic at its home: the unit after it, and the old value. -/
def atomicUnit (u : Vec) (off aop : Nat) (wide : Bool) (x cmp : Word) : Vec × Word :=
  let w := if wide then 64 else 32
  let old := (u.toNat / 2 ^ (8 * off)) % 2 ^ w
  let new := atomicResult aop w old (x.toNat % 2 ^ w) (cmp.toNat % 2 ^ w)
  let mask : Vec := BitVec.ofNat 512 ((2 ^ w - 1) * 2 ^ (8 * off))
  ((u &&& ~~~mask) ||| (BitVec.ofNat 512 (new * 2 ^ (8 * off)) &&& mask), BitVec.ofNat 64 old)

/-- The arrival at a barrier object (R182). -/
def arriveWord (n : BitVec 32) (old : Word) : Word :=
  let arrived := old.extractLsb' 0 32
  let phase := old.extractLsb' 32 32
  if n.toNat ≤ arrived.toNat + 1 then (phase + 1) ++ (0 : BitVec 32) else phase ++ (arrived + 1)

/-- A request that its home accepts: its effect on memory is indivisible. -/
def State.applyRequest (s : State) (r : Request) : State :=
  let u := r.pa / 64
  let unitVa := r.sealVa.toNat / 64
  let poisoned := s.poisonedUnits.contains u
  match r.op with
  | .read => s.updateRequest { r with data := s.memory.unit u, bad := poisoned, stage := .reply }
  | .sealed data =>
    { s.dropRequest r.id with memory := s.memory.setUnit u data, poisonedUnits := s.poisonedUnits.filter (· ≠ u) }
  | .write data mask =>
    match s.material r.vif r.key with
    | none => s.retireRequest r
    | some k => if poisoned then s.failRequest r ⟨0x18, 4⟩ r.va else (s.putUnit k r.pa unitVa data mask).dropRequest r.id
  | .atomic aop wide x cmp =>
    match s.material r.vif r.key with
    | none => s.retireRequest r
    | some k =>
      if poisoned then s.failRequest r ⟨0x18, 4⟩ r.va
      else
        let (v, old) := atomicUnit (s.getUnit k r.pa unitVa) (r.va.toNat % 64 / (if wide then 8 else 4) * (if wide then 8 else 4)) aop wide x cmp
        let s := s.putUnit k r.pa unitVa v (-1)
        match r.source with
        | .spine _ => s.updateRequest { r with data := old.setWidth 512, stage := .reply }
        | _ => s.dropRequest r.id
  | .add x =>
    match s.material r.vif r.key with
    | none => s.retireRequest r
    | some k =>
      if poisoned then s.failRequest r ⟨0x18, 4⟩ r.va
      else
        let (v, _) := atomicUnit (s.getUnit k r.pa unitVa) (r.va.toNat % 64) 0 true x 0
        (s.putUnit k r.pa unitVa v (-1)).dropRequest r.id
  | .arrive n =>
    match s.material r.vif r.key with
    | none => s.retireRequest r
    | some k =>
      if poisoned then s.failRequest r ⟨0x18, 4⟩ r.va
      else
        let off := r.va.toNat % 64
        let v := s.getUnit k r.pa unitVa
        let old : Word := v.extractLsb' (8 * off) 64
        let mask : Vec := BitVec.ofNat 512 ((2 ^ 64 - 1) * 2 ^ (8 * off))
        let new := (v &&& ~~~mask) ||| ((arriveWord n old).setWidth 512 <<< (8 * off))
        (s.putUnit k r.pa unitVa new (-1)).updateRequest { r with data := old.setWidth 512, stage := .reply }

/-- The class of an uncorrectable error in what a request reads: 5 for an index table, 3 for the rest (R368). -/
def ReqSource.readClass : ReqSource → Nat
  | .index .. => 5
  | _ => 3

/-- A read of the spine has been answered: what prefetches of its unit that were issued before it bring, or have brought, is read no more (R255,
R256). -/
def State.dropOlder (s : State) (sig unit id : Nat) : State :=
  let p := s.spineOf sig
  let s := s.setSpineOf sig { p with readAhead := p.readAhead.filter fun e => !(e.unit == unit && e.id < id) }
  { s with requests := s.requests.filter fun r => !(r.source == .readAhead sig && r.va.toNat / 64 == unit && r.id < id) }

/-- A reply arrives at its port and is opened there (R89); the end of its key slot comes before an uncorrectable error (R379). -/
def State.deliverReply (s : State) (r : Request) : State :=
  match r.op with
  | .read =>
    match s.material r.vif r.key with
    | none => s.retireRequest r
    | some k =>
      if r.bad then s.failRequest r ⟨0x18, r.source.readClass⟩ r.va
      else
      let data := openWith k (r.sealVa.toNat / 64) r.data
      let s := s.dropRequest r.id
      match r.source with
      | .spine sig => (s.dropOlder sig (r.va.toNat / 64) r.id).answerSpine sig (.data data s.cycle)
      | .readAhead sig =>
        let s := s.dropOlder sig (r.va.toNat / 64) r.id
        s.setSpineOf sig ((s.spineOf sig).addReadAhead ⟨r.va.toNat / 64, data, s.cycle, r.id⟩)
      | .stream sig key tag =>
        let c := s.ctx sig key
        s.setCtx sig key { c with units := c.units.put tag data }
      | .index sig key j =>
        let c := s.ctx sig key
        s.setCtx sig key { c with index := c.index.put j (data.toNat / 2 ^ (8 * (r.va.toNat % 64)) % 2 ^ 32) }
  | _ =>
    let s := s.dropRequest r.id
    match r.source with
    | .spine sig => s.answerSpine sig (.value (r.data.setWidth 64))
    | _ => s

end Sys2Proof.Machine
end

