-- ==== Sys2Proof/Machine/SpineMemory.lean ====
section
/-!
DEFINITION. Spine memory instructions (R171 to R174), completion objects and barriers (R180 to R183), pools and blocks (R141, R175), and
the write of a capture result (R191).
-/

namespace Sys2Proof.Machine

/-! ### Waiting for an answer (R158) -/

/-- Issue a request and wait for its answer; the request's number is kept as progress. -/
def State.ask (s : State) (va : Word) (op : ReqOp) : State :=
  let n := s.nextRequest
  let s := s.issueSpine s.focus.sig va op
  (s.setHere { s.here with progress := n }).slotWait

/-- An access that is not naturally aligned ends the launch (R359). -/
def State.misaligned (s : State) (va : Word) (size : Nat) : State := s.slotEnd 0x07 size va.toNat

/-- Bytes of a unit from an offset, extended to 64 bits. -/
def loadValue (u : Vec) (off size : Nat) (sx : Bool) : Word :=
  let x := u.toNat / 2 ^ (8 * off) % 2 ^ (8 * size)
  if sx then BitVec.ofInt 64 (sint x (8 * size)) else BitVec.ofNat 64 x

/-- Effective address of an S-M access (R171). -/
def State.memoryAddress (s : State) (f : SM) : Word := s.readG f.gb + f.off.signExtend 64

/-! ### LDG, STG, ATOM, FENCE (R171, R172, R174) -/

/-- The spine prefetches a unit (R86); a failed check drops it. (log 30, DEDUCED) -/
def State.prefetch (s : State) (sig : Nat) (va : Word) : State :=
  let s := s.watch (s.sig sig).vif sig va.toNat 0
  let (s, r) := s.newRequest { s.spineRequest sig va .read with source := .readAhead sig }
  s.translateRequest r

/-- LDG (R171): from the read-ahead when relaxed and there, otherwise at the home; a relaxed miss waits until its port has room for the unit and the
next one (R86). -/
def execLdg (f : SM) (s : State) : Host.Outcome State Fault Refusal :=
  let n := s.focus.sig
  let ea := s.memoryAddress f
  let size := 2 ^ f.sz.toNat
  let relaxed := f.ord = 0
  let result (u : Vec) (s : State) := spineResult s f.gv (loadValue u (ea.toNat % 64) size (f.sub.getLsbD 0))
  match s.here.answer with
  | some (.data u t) =>
    result u (if relaxed && s.cycle < t + 4096 then s.setHere (s.here.addReadAhead ⟨ea.toNat / 64, u, t, s.here.progress⟩) else s)
  | some (.fault code aux _) => .next (s.slotCheckFault ⟨code, aux.toNat⟩ ea)
  | _ =>
    if s.here.waiting && s.here.progress ≠ 0 then .next s.slotWait
    else if ea.toNat % size ≠ 0 then .next (s.misaligned ea size)
    else
      match s.here.readAhead.find? fun e => relaxed && e.unit = ea.toNat / 64 with
      | some e => result e.data s
      | none =>
        if s.portFull n || (relaxed && 255 ≤ s.portLoad n 0) then .next s.slotWait
        else if relaxed then
          let s := s.ask ea .read
          .next (s.prefetch n ((ea &&& ~~~0x3F) + 64))
        else .next ((s.emptyReadAhead n).ask ea .read)

/-- A store of the spine: it enters the read-ahead and writes through, once its port has room; a failed check stops the spine. -/
def State.storeSlot (s : State) (va : Word) (size : Nat) (x : Word) : State :=
  let n := s.focus.sig
  if s.portFull n then s.slotWait
  else
  let off := 8 * (va.toNat % 64)
  let mask : Vec := BitVec.ofNat 512 ((2 ^ (8 * size) - 1) * 2 ^ off)
  let data : Vec := BitVec.ofNat 512 (x.toNat % 2 ^ (8 * size) * 2 ^ off)
  match s.issueStore n va (.write data mask) with
  | .error e => s.slotCheckFault e va
  | .ok s => (s.storeReadAhead n (va.toNat / 64) data mask).slotDone

/-- STG (R171): a release first waits for the spine's earlier stores. -/
def execStg (f : SM) (s : State) : Host.Outcome State Fault Refusal :=
  let ea := s.memoryAddress f
  let size := 2 ^ f.sz.toNat
  if ea.toNat % size ≠ 0 then .next (s.misaligned ea size)
  else if f.ord ≠ 0 && !s.released s.focus.sig f.scope.toNat then .next s.slotWait
  else .next (s.storeSlot ea size (s.readG f.gv))

/-- ATOM (R172). -/
def execAtom (f : SM) (s : State) : Host.Outcome State Fault Refusal :=
  let n := s.focus.sig
  let ea := s.memoryAddress f
  let wide := f.sz = 3
  let size := if wide then 8 else 4
  match s.here.answer with
  | some (.value x) => spineResult s f.gv (if wide then x else (x.extractLsb' 0 32).setWidth 64)
  | some (.fault code aux _) => .next (s.slotCheckFault ⟨code, aux.toNat⟩ ea)
  | _ =>
    if s.here.waiting && s.here.progress ≠ 0 then .next s.slotWait
    else if ea.toNat % size ≠ 0 then .next (s.misaligned ea size)
    else if (f.ord = 2 ∨ f.ord = 3) && !s.released n f.scope.toNat then .next s.slotWait
    else if s.portFull n then .next s.slotWait
    else
      let s := if f.ord = 1 ∨ f.ord = 3 then s.emptyReadAhead n else s.dropReadAhead n (ea.toNat / 64)
      let aop := (f.sub.extractLsb' 2 4).toNat
      .next (s.ask ea (.atomic aop wide (s.readG f.gv) (s.here.source (f.gv.toNat + 1))))

/-- FENCE (R174). -/
def execFence (f : SM) (s : State) : Host.Outcome State Fault Refusal :=
  if f.ord ≠ 1 && !s.released s.focus.sig f.scope.toNat then .next s.slotWait
  else .next (if f.ord ≠ 2 then s.emptyReadAhead s.focus.sig else s).slotDone

/-! ### Pools (R139 to R142, R173) -/

/-- A block of code: fetched, still to come, or failing a check of the fetch path. -/
inductive CodeBlock where
  | here (data : Vec)
  | coming
  | failing (f : CheckFault)
  deriving DecidableEq, Repr

/-- The block of code at an address div 64. -/
def State.codeBlock (s : State) (sig block : Nat) : CodeBlock :=
  let g := s.sig sig
  match (s.spineOf sig).fetched.find? fun b => b.1 == block with
  | some (_, v) => .here v
  | none =>
    match s.translatePages (some (dieOf g.row0 g.col0)) g.vif (BitVec.ofNat 64 (64 * block)) [.x], s.worldMaterial g.vif with
    | .error e, _ => .failing e
    | _, .error e => .failing e
    | .ok pa, .ok _ => if s.poisonedUnits.contains (pa / 64) then .failing ⟨0x18, 3⟩ else .coming

/-- Whether a block is a pool block: its first word is the marker (R139). -/
def isPoolBlock (v : Vec) : Bool := v.extractLsb' 0 128 == SchedWord.marker

/-- What a pool read finds: its bytes, blocks still to come, a failing check at a block, or the pool-fetch fault. -/
inductive PoolRead where
  | bytes (x : Nat)
  | coming (block : Nat)
  | failing (f : CheckFault) (block : Nat)
  | poolFetch
  deriving DecidableEq, Repr

/-- n bytes of a pool's payload from pool address x: at the end of a block they go on at byte 16 of the next (R141). -/
def State.readPool (s : State) (sig : Nat) : Nat → Nat → Nat → PoolRead
  | 0, _, _ => .bytes 0
  | fuel + 1, x, n =>
    if n = 0 then .bytes 0
    else
      let block := x / 64
      let off := x % 64
      match s.codeBlock sig block with
      | .coming => .coming block
      | .failing e => .failing e block
      | .here v =>
        if !isPoolBlock v || off < 16 then .poolFetch
        else
          let k := min n (64 - off)
          let part := v.toNat / 2 ^ (8 * off) % 2 ^ (8 * k)
          match State.readPool s sig fuel (64 * (block + 1) + 16) (n - k) with
          | .bytes rest => .bytes (part + rest * 2 ^ (8 * k))
          | other => other

/-- A block of code is asked for, and the slot waits. -/
def State.waitForCode (s : State) (block : Nat) : State :=
  let p := s.here
  (s.setHere { p with wanted := if p.wanted.contains block then p.wanted else p.wanted ++ [block] }).slotWait

/-- LDLIT (R173). -/
def execLdlit (f : SM) (s : State) : Host.Outcome State Fault Refusal :=
  let x := (s.here.pc &&& ~~~0x3F) + f.off.signExtend 64 + s.readG f.gb
  let size := 2 ^ f.sz.toNat
  match s.readPool s.focus.sig 3 x.toNat size with
  | .bytes v => spineResult s f.gv (if f.sub.getLsbD 0 then BitVec.ofInt 64 (sint v (8 * size)) else BitVec.ofNat 64 v)
  | .coming b => .next (s.waitForCode b)
  | .failing e b => .next (s.slotCheckFault e (BitVec.ofNat 64 (64 * b)))
  | .poolFetch => .next (s.slotEnd 0x02 0 x.toNat)

/-! ### Blocks of the engine instructions (R175) -/

/-- Address of an S-E operand: G[gp] + sext(disp, 64). -/
def State.engineAddress (s : State) (f : SE) : Word := s.readG f.gp + f.disp.signExtend 64

/-- A block read: its 64 bytes, or the state of a slot that waits or has faulted. -/
def State.readBlock (s : State) (f : SE) : State ⊕ Vec :=
  if f.sub.getLsbD 0 then
    let x := (s.here.pc &&& ~~~0x3F) + f.disp.signExtend 64
    match s.readPool s.focus.sig 3 x.toNat 64 with
    | .bytes v => .inr (BitVec.ofNat 512 v)
    | .coming b => .inl (s.waitForCode b)
    | .failing e b => .inl (s.slotCheckFault e (BitVec.ofNat 64 (64 * b)))
    | .poolFetch => .inl (s.slotEnd 0x02 0 x.toNat)
  else
    let a := s.engineAddress f
    match s.here.answer with
    | some (.data v _) => .inr v
    | some (.fault code aux _) => .inl (s.slotCheckFault ⟨code, aux.toNat⟩ a)
    | _ =>
      if s.here.waiting && s.here.progress ≠ 0 then .inl s.slotWait
      else if a.toNat % 64 ≠ 0 then .inl (s.misaligned a 64)
      else if s.portFull s.focus.sig then .inl s.slotWait
      else .inl (s.ask a .read)

/-! ### Completion objects (R180, R181) -/

/-- Whether a read of the spine context is outstanding. -/
def State.reading (s : State) (sig : Nat) : Bool := s.requests.any fun r => r.source == .spine sig && r.op == .read

/-- A read of a polling wait, with acquire (R180): the first at once, another 256 unfrozen cycles after the one before at the latest, or, if that has
no answer by then, with its answer. The progress kept counts the cycles since the last read was issued. (log 26, DEDUCED) -/
def State.pollAgain (s : State) (ea : Word) : State :=
  let n := s.focus.sig
  let p := s.here
  if !(p.poll.isNone || (255 ≤ p.progress && !s.reading n)) then (s.setHere { p with progress := p.progress + 1 }).slotWait
  else if s.portFull n then s.slotWait
  else (((s.setHere { p with poll := some ea, progress := 1 }).emptyReadAhead n).issueSpine n ea .read).slotWait

/-- A polling wait on a 64-bit location (R180): the state once the test holds, or one that waits or has faulted. -/
def State.pollWait (s : State) (ea : Word) (test : Word → Bool) : State :=
  match s.here.answer with
  | some (.data u _) =>
    if test (loadValue u (ea.toNat % 64) 8 false) then (s.setHere { s.here with poll := none }).slotDone
    else (s.setHere { s.here with answer := none }).pollAgain ea
  | some (.fault code aux _) => (s.setHere { s.here with poll := none }).slotCheckFault ⟨code, aux.toNat⟩ ea
  | _ => s.pollAgain ea

/-- WAITC (R180). -/
def execWaitc (f : SE) (s : State) : Host.Outcome State Fault Refusal :=
  let ea := s.engineAddress f
  if ea.toNat % 8 ≠ 0 then .next (s.misaligned ea 8)
  else .next (s.pollWait ea fun x => (s.readG f.gc).toNat ≤ x.toNat)

/-- SIGNAL (R181): a release, and then a store or a far ADD. -/
def execSignal (f : SE) (s : State) : Host.Outcome State Fault Refusal :=
  let n := s.focus.sig
  let ea := s.engineAddress f
  if ea.toNat % 8 ≠ 0 then .next (s.misaligned ea 8)
  else if !s.released n f.scope.toNat then .next s.slotWait
  else if f.sub.getLsbD 1 then
    if s.portFull n then .next s.slotWait
    else
    match s.issueStore n ea (.add (s.readG f.gc)) with
    | .error e => .next (s.slotCheckFault e ea)
    | .ok s => .next (s.dropReadAhead n (ea.toNat / 64)).slotDone
  else .next (s.storeSlot ea 8 (s.readG f.gc))

/-! ### Barriers (R182, R183) -/

/-- The arrival: a release, then one far atomic; `after` continues once the old phase is in bar.PH. -/
def State.arrive (s : State) (f : SE) (opcode : Nat) (after : State → State) : State :=
  let n := s.focus.sig
  let ea := s.engineAddress f
  let count := (s.readG f.gc).extractLsb' 0 32
  match s.here.answer with
  | some (.value old) => after (s.setHere { s.here with barPh := (old.extractLsb' 32 32).setWidth 64, answer := none })
  | some (.fault code aux _) => s.slotCheckFault ⟨code, aux.toNat⟩ ea
  | _ =>
    if s.here.waiting && s.here.progress ≠ 0 then s.slotWait
    else if count = 0 then s.illegalOperand opcode
    else if ea.toNat % 8 ≠ 0 then s.misaligned ea 8
    else if !s.released n f.scope.toNat || s.portFull n then s.slotWait
    else (s.dropReadAhead n (ea.toNat / 64)).ask ea (.arrive count)

/-- Wait until the phase differs from a value of bar.PH. -/
def State.phaseWait (s : State) (ea phase : Word) : State :=
  s.pollWait ea fun x => (x.extractLsb' 32 32).setWidth 64 != phase

/-- ARRV (R182). -/
def execArrv (f : SE) (s : State) : Host.Outcome State Fault Refusal := .next (s.arrive f 0x57 State.slotDone)

/-- BWAIT (R182). It reads bar.PH as a source, from before slot A (R128; log 26, DEDUCED). -/
def execBwait (f : SE) (s : State) : Host.Outcome State Fault Refusal :=
  let ea := s.engineAddress f
  if ea.toNat % 8 ≠ 0 then .next (s.misaligned ea 8) else .next (s.phaseWait ea s.here.before.barPh)

/-- Whether every fabric word issued so far has executed at the south-east corner and no result is pending (R183). -/
def State.drained (s : State) (sig : Nat) : Bool :=
  let g := s.sig sig
  let executed := match (s.spineOf sig).lastFabric with
    | none => true
    | some n => n + g.delay (16 * g.ht - 1) (16 * g.wd - 1) < g.time
  executed && (s.busyPlaces sig).all fun (r, c) => (s.elementOf sig r c).pending.isEmpty && (s.elementOf sig r c).matrix.isEmpty

/-- BAR (R182, R183): the signature drain when it names no object, otherwise ARRV and then BWAIT, which reads at once. -/
def execBar (f : SE) (s : State) : Host.Outcome State Fault Refusal :=
  if f.scope = 2 ∧ f.gp = 0 ∧ f.gc = 0 ∧ f.disp = 0 then
    .next (if s.drained s.focus.sig then s.slotDone else s.slotWait)
  else if s.here.poll.isSome then .next (s.phaseWait (s.engineAddress f) s.here.barPh)
  else
    let ea := s.engineAddress f
    .next (s.arrive f 0x56 fun s => (s.setHere { s.here with poll := some ea, progress := 255 }).phaseWait ea s.here.barPh)

/-! ### The capture result (R191, R385) -/

/-- The 128 bytes of a capture that ends now, as two units. -/
def State.captureResult (s : State) : List Vec :=
  let c := s.here.capture
  let cn (i : Nat) : Nat := (c.counters.get 0 i).toNat * 2 ^ (64 * (6 + i))
  let x := c.tstart.toNat + s.ns * 2 ^ 64 + c.sstart.toNat * 2 ^ 128 + (s.sig s.focus.sig).time * 2 ^ 192 + c.intr.toNat * 2 ^ 256
    + (List.range 8).foldl (fun acc i => acc + cn i) 0
  [BitVec.ofNat 512 x, BitVec.ofNat 512 (x / 2 ^ 512)]

/-- CNTR_STOP (R191): the capture ends, its two units are stored once the port has room for both, and the slot waits until they are written. A
unit that fails a check leaves the one before it written, and a RETRY stores the same bytes again (R385). -/
def execCntrStop (f : SG) (s : State) : Host.Outcome State Fault Refusal :=
  let n := s.focus.sig
  let a := s.readG f.ga
  let c := s.here.capture
  if s.here.waiting && s.here.progress ≠ 0 then
    if (s.spineStores n).isEmpty then .next (s.setHere { s.here with capture := { s.here.capture with result := [] } }).slotDone
    else .next s.slotWait
  else if !c.on && c.result.isEmpty then .next (s.illegalOperand 0x66)
  else if a.toNat % 64 ≠ 0 then .next (s.misaligned a 64)
  else
    let result := if c.on then s.captureResult else c.result
    let s := s.setHere { s.here with capture := { c with on := false, result } }
    let store (s : State) (i : Nat) : State × Option (CheckFault × Word) :=
      let va := a + BitVec.ofNat 64 (64 * i)
      match s.issueStore n va (.write (result.getD i 0) (-1)) with
      | .error e => (s, some (e, va))
      | .ok s => (s.storeReadAhead n (va.toNat / 64) (result.getD i 0) (-1), none)
    if 255 ≤ s.portLoad n 0 then .next s.slotWait
    else
      match store s 0 with
      | (s, some (e, va)) => .next (s.slotCheckFault e va)
      | (s, none) =>
        match store s 1 with
        | (s, some (e, va)) => .next (s.slotCheckFault e va)
        | (s, none) => .next ((s.setHere { s.here with progress := 1 }).slotWait)

end Sys2Proof.Machine
end

