-- ==== Sys2Proof/Machine/FabricOps.lean ====
section
/-!
DEFINITION. The diagonal clock at work (R15, R18, R19, R24, R126 to R129, R138, R163): which signatures run in a wall cycle, what their
elements do with the words that reach them, and what the lead spine puts into a word slot.
-/

namespace Sys2Proof.Machine

/-! ### Who runs in this wall cycle -/

/-- The issue share of an interface, in units of 2⁻³²: 1/16 while thermal action 2 is in force (R338, R340). -/
def State.shareOf (s : State) (vif : Nat) : Nat := if s.platform.thermal.getLsbD 1 then 2 ^ 28 else (s.iface vif).share

/-- Whether an interface's signatures lose this cycle to a power cap (R15). -/
def State.cut (s : State) (vif : Nat) : Bool := (s.iface vif).credit + s.shareOf vif < 2 ^ 32

/-- Whether a signature's words move in this wall cycle: it is placed, not frozen, past any sweep, and not cut. -/
def State.runs (s : State) (sig : Nat) : Bool :=
  let g := s.sig sig
  (g.status == .running || g.status == .draining) && !g.frozen && g.sweep == 0 && !s.cut g.vif

/-- The word slot that element (r,c) meets at the signature's T. -/
def Sig.meets (g : Sig) (r c : Nat) : Option InFlight := g.flight.find? fun w => w.n + g.delay r c == g.time

/-- Whether a word is the idle word that carries no LE. -/
def SchedWord.blank (w : SchedWord) : Bool := w == SchedWord.idle 0

/-! ### A word in an element (R126, R127) -/

/-- The byte lanes the guard enables, from the predicate read. -/
def guardLanes (h : Header) (k : Word) : Word := if h.gs then ~~~k else k

/-- The word that reaches an element is over: its events are counted, after a CNT of its own (log 88, DESIGN CHOICE), its LE advances the ring, and its port values are gone
(R20, R54, R243). -/
def Element.leaveWord (e : Element) (n : Nat) (gen : Gen) (le : BitVec 3) : Element :=
  let e := e.flushTally
  let e := if le = 0 then e else e.advanceRing gen (le.toNat - 1)
  { e with ports := e.ports.filter fun a => n < a.word }

/-- What a slot's instruction adds to its interface's activity: multiply-accumulates by operand width, and bytes of the scratchpad (R338; log 8,
DESIGN CHOICE). -/
def slotActivity (i : Instr) (a : Activity) : Activity :=
  let macs (w n : Nat) : Activity := { a with macs := a.macs.set 0 w (a.macs.get 0 w + n) }
  let pad (n : Nat) : Activity := { a with pad := a.pad + n }
  match i with
  | .vmul f | .vmulh f | .vmad f | .fmul f | .ffma f => macs (laneWidth f.ty) (512 / laneWidth f.ty)
  | .vmuli f | .fmuli f => macs (laneWidth f.ty) (512 / laneWidth f.ty)
  | .mma f | .mmas f => macs (laneWidth f.fa) (4096 / laneWidth f.fa)
  | .ld _ | .ldx _ | .ldb _ | .st _ | .stx _ | .stb _ => pad 64
  | .lds _ | .sts _ | .satom _ => pad 4
  | _ => a

/-- The activity of a word that an element executes. -/
def wordActivity (w : SchedWord) (a : Activity) : Activity :=
  match decodeWord w with
  | .word _ x y => slotActivity y (slotActivity x a)
  | _ => a

/-- An element meets a word: the skipped one passes, the executed one has its guard read and its slots to come. -/
def State.meetWord (s : State) (sig r c : Nat) : State :=
  let g := s.sig sig
  if !s.runs sig then s
  else
    match g.meets r c with
    | none => s
    | some w =>
      let h := SchedWord.header w.word
      let e := s.elementOf sig r c
      let gen := (s.folioOf sig r c).gen
      if !h.role.getLsbD (s.roleOf sig r c).toNat then s.setElementOf sig r c ((e.count 2 1).leaveWord w.n gen h.le)
      else
        let focus : Focus :=
          { sig, row := r, col := c, n := w.n, word := w.word, mode := w.mode, bcast := w.bcast, offset := w.offset, spine := false
            slotB := false, lanes := 0, before := e, suppressed := false, vote := none }
        let s := { s with focus, agenda := ([.elemSlot false, .elemSlot true, .elemLeave] : List Task) ++ s.agenda }.spend g.vif (wordActivity w.word)
        let guard (env : ElemEnv) : EM Word := do
          EM.count 1 1
          readK env h.gk.toNat
        match guard s.env e with
        | .ok (k, e) => { s.setElementOf sig r c e with focus := { focus with lanes := guardLanes h k } }
        | .error f => s.elementFault f 0

/-- The slot of the word in focus is about to be performed. -/
def State.beginSlot (s : State) (slotB : Bool) : State := { s with focus := { s.focus with slotB } }

/-- What a slot of the word in focus holds. -/
def Focus.slot (f : Focus) (slotB : Bool) : SlotDecode :=
  decodeSlot (if slotB then .fabricB else .fabricA) (if slotB then SchedWord.slotB f.word else SchedWord.slotA f.word)

/-- A contribution to the reduction of a VOTE (R223). -/
def Vote.add (v : Vote) (k : Word) : Vote :=
  { v with takers := v.takers + 1, ones := v.ones + (if k = 0 then 0 else 1), orValue := v.orValue ||| k }

/-- The element in focus leaves its word. -/
def State.leaveElement (s : State) : State :=
  let f := s.focus
  let gen := (s.folioOf f.sig f.row f.col).gen
  let s := s.setElementOf f.sig f.row f.col ((s.elementOf f.sig f.row f.col).leaveWord f.n gen (SchedWord.header f.word).le)
  match f.vote with
  | none => s
  | some k =>
    let g := s.sig f.sig
    s.setSig f.sig { g with votes := g.votes.map fun v => if v.n = f.n then v.add k else v }

/-- The value a reduction gives (R223). -/
def Vote.value (v : Vote) : Word :=
  match v.mode with
  | 0 => if v.ones = 0 then 0 else 1
  | 1 => if v.ones = v.takers then 1 else 0
  | 2 => BitVec.ofNat 64 v.ones
  | _ => v.orValue

/-! ### Wait conditions (R23, R24, R26) -/

/-- The words of a signature that some element has checked and not yet executed, with that element; an element whose role skips a word takes part
like any other (R49). `now` counts the word executed at T as still to come, as in a frozen cycle. -/
def State.checkedWords (s : State) (sig : Nat) (now : Bool) : List (InFlight × Nat × Nat) :=
  let g := s.sig sig
  (g.flight.filter fun w => (SchedWord.header w.word).h).flatMap fun w =>
    (g.places.filter fun rc =>
      let at_ := w.n + g.delay rc.1 rc.2
      at_ ≤ g.time + 16 && (if now then g.time ≤ at_ else g.time < at_)).map fun rc => (w, rc.1, rc.2)

/-- Whether a word's wait condition is true in an element. -/
def State.waits (s : State) (sig : Nat) (w : InFlight) (r c : Nat) : Bool :=
  match decodeSlot .fabricB (SchedWord.slotB w.word) with
  | .instr i => waitCondition (s.folioOf sig r c).gen (s.elementOf sig r c) i
  | .illegal _ => false

/-! ### The lead spine (R18, R128, R129, R157, R163) -/

/-- A word slot enters the signature, with what the spine attaches to it (R121, R185). -/
def State.putSlot (s : State) (sig : Nat) (word : SchedWord) : State :=
  let g := s.sig sig
  let p := s.spineOf sig
  let slot : InFlight :=
    { n := g.time, word, mode := p.mode, bcast := p.latch.getD 0, offset := BitVec.ofNat 32 (s.codeOffset sig) }
  s.setSig sig { g with flight := g.flight ++ [slot] }

/-- An idle word slot. -/
def State.emitIdle (s : State) (sig : Nat) (le : BitVec 3) : State := (s.putSlot sig (SchedWord.idle le)).count sig 2 1

/-- The loop effects of the word at pc, and where issue continues (R163). -/
def Spine.nextPc (p : Spine) : Spine :=
  match p.levelAt p.pc none with
  | none => { p with pc := p.target.getD (p.pc + 16), target := none }
  | some l =>
    let left := p.lc.get 0 l - 1
    let p := { p with lc := p.lc.set 0 l left, target := none }
    if left = 0 then { p.setActive l false with pc := p.pc + 16 } else { p with pc := p.lstart.get 0 l }

/-- Whether a word breaks the loop rules of R163. -/
def Spine.loopBreach (p : Spine) (w : SchedWord) : Bool :=
  let h := SchedWord.header w
  let op := (slotOp (SchedWord.slotB w)).toNat
  match p.levelAt p.pc none with
  | some l => h.le.toNat != l + 1 || (h.spine && 1 ≤ op && op ≤ 9)
  | none => h.le != 0

/-- The debug stop of a BKPT in a word that has been left, when debug is armed (R322). -/
def State.breakAfter (s : State) (sig : Nat) (code : Option Nat) : State :=
  let v := (s.sig sig).vif
  match code with
  | some c => if (s.iface v).armed then s.debugStopAt sig v 1 c else s
  | none => s

/-- The word slot of a cycle in which the spine is at a spine word: idle; the last one carries the word's LE, and the word is left. -/
def State.spineOut (s : State) (sig : Nat) : State :=
  let p := s.spineOf sig
  match p.phase with
  | .leave =>
    if p.idles = 0 then
      let s := (s.emitIdle sig (SchedWord.header p.ir).le).count sig 3 1
      let p := (s.spineOf sig).nextPc
      (s.setSpineOf sig { p with phase := if (s.sig sig).ending then .ended else .fetch, waiting := false, bkpt := none }).breakAfter sig p.bkpt
    else (s.setSpineOf sig { p with idles := p.idles - 1 }).emitIdle sig 0
  | .ended => s
  | _ => s.emitIdle sig 0

/-- Whether a store of the spine stands faulted and unanswered; the spine waits for its answer. -/
def State.spineStopped (s : State) (sig : Nat) : Bool :=
  s.requests.any fun r => r.source == .spine sig && (match r.stage with | .faulted .. => true | _ => false)

/-- A matrix instruction of the unit that R23 spaces. -/
def spacedInstr : Instr → Bool
  | .mma _ => true
  | .mmas _ => true
  | .mdrn _ => true
  | .mdrq _ => true
  | _ => false

/-- The roles of a word. -/
def headerRoles (h : Header) : List Nat := (List.range 4).filter h.role.getLsbD

/-- Whether the spine spaces a word with H = 1: fewer than 4 slots separate it from the last matrix word that shares a role. -/
def State.spaced (s : State) (sig : Nat) (h : Header) (a : Instr) : Bool :=
  h.h && spacedInstr a && (headerRoles h).any fun ρ =>
    match Tab.look (s.spineOf sig).lastMatrix ρ with
    | some n => (s.sig sig).time < n + 4
    | none => false

/-- A fabric word is issued. -/
def State.emitFabric (s : State) (sig : Nat) (w : SchedWord) (h : Header) (a : Instr) : State :=
  let g := s.sig sig
  let n := g.time
  let s := (s.putSlot sig w).count sig 1 1
  let p := s.spineOf sig
  let lastMatrix := if spacedInstr a then (headerRoles h).foldl (fun t ρ => Tab.put t ρ n) p.lastMatrix else p.lastMatrix
  let voted : List Vote :=
    match a with
    | .vote f => [{ n, due := n + 2 * g.span + 32, mode := (f.sub.extractLsb' 0 2).toNat, takers := 0, ones := 0, orValue := 0 }]
    | _ => []
  let p := { p with latch := none, lastMatrix, lastFabric := some n, lastVote := if voted.isEmpty then p.lastVote else some n }
  let s := s.setSpineOf sig p.nextPc
  let g := s.sig sig
  (s.setSig sig { g with votes := g.votes ++ voted, issued := g.issued + 1 }).countHit sig

/-- A spine word begins: its sources are read, and its slots are performed in order. -/
def State.beginSpineWord (s : State) (sig : Nat) (w : SchedWord) : State :=
  let p := { s.spineOf sig with
    ir := w, before := s.sources sig, phase := .slotA, target := none, idles := 0, waiting := false, progress := 0, answer := none, bkpt := none }
  let s := (s.setSpineOf sig p).countHit sig
  { s with focus := { Focus.idle with sig, spine := true }, agenda := ([.spineSlot false, .spineSlot true, .spineLeave] : List Task) ++ s.agenda }

/-- The word at pc has been decoded for issue: it is issued, or held, or spaced, or faults (R23, R46, R138, R140, R163, R281). -/
def State.emitDecoded (s : State) (sig : Nat) (w : SchedWord) : State :=
  let g := s.sig sig
  let p := s.spineOf sig
  match decodeWord w with
  | .marker => s.takeSpineFault sig 0x02 3 0 0 0 p.pc.toNat .ended
  | .illegal item slot => s.takeSpineFault sig 0x01 3 0 slot item 0 .ended
  | .word h a _ =>
    if p.loopBreach w then s.takeSpineFault sig 0x01 3 0 0 14 0 .ended
    else if s.spaced sig h a then s.emitIdle sig 0
    else if h.seam && p.seamRequest.isSome then (s.setSpineOf sig { p with phase := .seam g.time 0 }).emitIdle sig 0
    else if h.seam && s.seamHeld sig then s.emitIdle sig 0
    else
      let s := if h.seam then s.seamPassed sig else s
      if h.spine then s.beginSpineWord sig w else s.emitFabric sig w h a

/-- Ask for a block of code. -/
def State.wantCode (s : State) (sig block : Nat) : State :=
  let p := s.spineOf sig
  if p.wanted.contains block then s else s.setSpineOf sig { p with wanted := p.wanted ++ [block] }

/-- The word slot of a cycle at whose start the spine is between words. -/
def State.emitNext (s : State) (sig : Nat) : State :=
  let p := s.spineOf sig
  if p.breakpoint || s.spineStopped sig || s.cycle < p.resumeAt then s.emitIdle sig 0
  else
    let block := p.pc.toNat / 64
    match s.codeBlock sig block with
    | .coming => (s.wantCode sig block).emitIdle sig 0
    | .failing e =>
      let s := s.takeSpineFault sig e.code 2 (stopActs e.code) 0 e.aux p.pc.toNat .fetchFault
      if (s.sig sig).byFault then s else s.emitIdle sig 0
    | .here v => s.emitDecoded sig (v.extractLsb' (128 * (p.pc.toNat % 64 / 16)) 128)

/-- The instruction whose slot the spine is performing. -/
def Spine.performing (p : Spine) : Option Instr :=
  match p.phase with
  | .slotA => match decodeSlot .spine (SchedWord.slotA p.ir) with | .instr i => some i | .illegal _ => none
  | .slotB => match decodeSlot .spine (SchedWord.slotB p.ir) with | .instr i => some i | .illegal _ => none
  | _ => none

/-- Instructions that are not saved in mid-course (R158). -/
def controllerInstr : Instr → Bool
  | .seqnew _ => true
  | .seqrot _ => true
  | .seqend _ => true
  | .jload _ => true
  | _ => false

/-- Whether a freeze waits: an advance is under way, or a controller owes the spine an answer (R68, R158, R374). -/
def State.advancing (s : State) (sig : Nat) : Bool :=
  match (s.spineOf sig).phase with
  | .seam .. => true
  | _ => false

def State.controllerOwes (s : State) (sig : Nat) : Bool :=
  (s.spineOf sig).waiting && (match (s.spineOf sig).performing with | some i => controllerInstr i | none => false)

/-- The scope of the release that an instruction waits for, if it makes one (R171, R172, R174, R181, R182). -/
def releaseScope : Instr → Option Nat
  | .stg f => if f.ord ≠ 0 then some f.scope.toNat else none
  | .atom f => if f.ord = 2 ∨ f.ord = 3 then some f.scope.toNat else none
  | .fence f => if f.ord ≠ 1 then some f.scope.toNat else none
  | .signal f => some f.scope.toNat
  | .arrv f => some f.scope.toNat
  | .bar f => some f.scope.toNat
  | _ => none

/-- Whether the spine waits for a release, which completes before its image is saved (R268). -/
def State.releaseOpen (s : State) (sig : Nat) : Bool :=
  let p := s.spineOf sig
  p.waiting && p.poll.isNone && !s.spineStopped sig &&
    (match p.performing.bind releaseScope with | some scope => !s.released sig scope | none => false)

/-! ### The seam drain (R46, R65, R374) -/

/-- Whether the drain before a seam word is done: the words before it have executed everywhere, tiles are read, and links are empty. -/
def State.seamDrained (s : State) (sig first : Nat) : Bool :=
  let g := s.sig sig
  first + g.lastDelay ≤ g.time && (s.busyPlaces sig).all fun rc =>
    let e := s.elementOf sig rc.1 rc.2
    e.matrix.isEmpty && e.delay.isEmpty

/-- Whether some folio of a signature wraps at its next advance. -/
def State.wraps (s : State) (sig : Nat) : Bool :=
  (s.sig sig).folios.any fun rc => (s.folio rc.1 rc.2).gen == 0xFFFF && !(s.folio rc.1 rc.2).swept

/-- The wrap sweep of an element (R65). -/
def Element.swept (e : Element) : Element := { e with v := [], a := [], s := [], k := [], b := [], owner := [], ring := [], pad := [] }

/-- The folios that wrap are swept: their elements hold nothing current, and generation 1 comes next. -/
def State.sweepFolios (s : State) (sig : Nat) : State :=
  let s := (s.busyPlaces sig).foldl (fun s rc =>
    if (s.folioOf sig rc.1 rc.2).gen = 0xFFFF then s.setElementOf sig rc.1 rc.2 (s.elementOf sig rc.1 rc.2).swept else s) s
  (s.sig sig).folios.foldl (fun s rc =>
    let f := s.folio rc.1 rc.2
    if f.gen = 0xFFFF then s.setFolio rc.1 rc.2 { f with swept := true } else s) s

/-- The generation after an advance; 0 is never current (R61). -/
def nextGen (g : Gen) : Gen := if g = 0xFFFF then 1 else g + 1

/-- Every element and spine of a signature advances its generation (R61). -/
def State.advanceGenerations (s : State) (sig : Nat) : State :=
  (s.sig sig).folios.foldl (fun s rc =>
    let f := s.folio rc.1 rc.2
    s.setFolio rc.1 rc.2 { f with gen := nextGen f.gen, swept := false }) s

/-- One cycle of a sweep at a seam, or its start; the sweep begins once every pending result has landed (R374). -/
def State.sweepSeam (s : State) (sig : Nat) : State :=
  let p := s.spineOf sig
  match p.phase with
  | .seam first 0 =>
    let landed := (s.busyPlaces sig).all fun rc => (s.elementOf sig rc.1 rc.2).pending.isEmpty
    if s.wraps sig && s.seamDrained sig first && landed then s.setSpineOf sig { p with phase := .seam first 1600 } else s
  | .seam first (k + 1) =>
    let s := s.setSpineOf sig { p with phase := .seam first k }
    if k = 0 then s.sweepFolios sig else s
  | _ => s

/-- A folio activates a plane; the one that was active becomes READY (R45). -/
def Folio.activate (f : Folio) (k cycle : Nat) : Folio :=
  let f := f.idlePlanes
  f.setPlane k { f.plane k with state := .active, activated := cycle }

end Sys2Proof.Machine
end

