-- ==== Sys2Proof/Machine/SpineJournal.lean ====
section
/-!
DEFINITION. The journal instructions (R192, R193) and the replay of an exported journal (R294, R295).
-/

namespace Sys2Proof.Machine

/-- A slot that waits for a controller's answer (R158): how often it still waits is open (log 1, DESIGN CHOICE). -/
def State.controllerAnswers (s : State) : Bool := decide (Config.controllerWait s.free ≤ s.here.progress)

/-- Wait for a controller once more. -/
def State.waitController (s : State) : State :=
  { s.slotWait.setHere { s.slotWait.here with progress := s.here.progress + 1 } with free := s.free + 1 }

/-- The controller has answered: the slot goes on with a value of the choice counter already used. -/
def State.taken (s : State) : State := { s with free := s.free + 1 }

/-- The signature whose spine performs the slot. -/
def State.me (s : State) : Sig := s.sig s.focus.sig

/-! ### Subscriptions and pins -/

/-- JSUB (R193): the lowest number that is free. (log 84, DESIGN CHOICE) -/
def execJsub (f : SG) (s : State) : Host.Outcome State Fault Refusal :=
  let a := s.readG f.ga
  let filter := s.readG f.gb
  let g := s.me
  if 20 < (a.extractLsb' 0 6).toNat ∨ (filter.extractLsb' 5 59).toNat ≠ 0 then .next (s.illegalOperand 0x70)
  else if !s.controllerAnswers then .next s.waitController
  else
    let number := ((List.range 15).map (· + 1)).find? fun n => !g.subs.any fun u => u.number == n
    match number with
    | none => spineResult s.taken f.gd 0
    | some n =>
      spineResult (s.taken.setSig s.focus.sig { g with subs := g.subs ++ [{ number := n, area := a, filter, count := 0 }] }) f.gd
        (BitVec.ofNat 64 n)

/-- JUNSUB (R193). -/
def execJunsub (f : SG) (s : State) : Host.Outcome State Fault Refusal :=
  let g := s.me
  if !s.controllerAnswers then .next s.waitController
  else .next (s.taken.setSig s.focus.sig { g with subs := g.subs.filter fun u => u.number ≠ (s.readG f.ga).toNat }).slotDone

/-- JPIN (R193, R291). -/
def execJpin (f : SG) (s : State) : Host.Outcome State Fault Refusal :=
  let g := s.me
  let o := s.readG f.gb
  let object := completeObject g.vif s.focus.sig o
  let others := g.pins.filter fun p => p.object ≠ object
  if !objectLegal o || 16 ≤ others.length then .next (s.illegalOperand 0x72)
  else if !s.controllerAnswers then .next s.waitController
  else .next (s.taken.setSig s.focus.sig { g with pins := others ++ [{ object, version := s.readG f.ga }] }).repin.slotDone

/-- JUNPIN (R193, R291). -/
def execJunpin (f : SG) (s : State) : Host.Outcome State Fault Refusal :=
  let g := s.me
  let o := s.readG f.gb
  if !objectLegal o then .next (s.illegalOperand 0x73)
  else if !s.controllerAnswers then .next s.waitController
  else
    let object := completeObject g.vif s.focus.sig o
    .next (s.taken.setSig s.focus.sig { g with pins := g.pins.filter fun p => p.object ≠ object }).repin.slotDone

/-! ### Proposals and queries -/

/-- JPROP (R193, R280): an object that is no identifier is an illegal operand, whatever else is wrong; anything else refuses the proposal.
(log 40, DEDUCED) -/
def execJprop (f : SG) (s : State) : Host.Outcome State Fault Refusal :=
  let g := s.me
  let a := s.readG f.ga
  if !s.controllerAnswers then .next s.waitController
  else
    match s.readBytes g.vif 3 a 64 with
    | .error _ => spineResult s.taken f.gd 0
    | .ok bytes =>
      if !objectLegal (blockWord (BitVec.ofNat 512 (natOf bytes)) 1) then .next (s.illegalOperand 0x74)
      else
        match s.taken.proposeAt g.vif 1 s.focus.sig a (completeObject g.vif s.focus.sig) with
        | none => spineResult s.taken f.gd 0
        | some (s, n) => spineResult s f.gd (BitVec.ofNat 64 n)

/-- JREAD (R193). -/
def execJread (f : SG) (s : State) : Host.Outcome State Fault Refusal :=
  let o := s.readG f.ga
  if f.ga = 0 then spineResult s f.gd (BitVec.ofNat 64 (s.journal.next - 1))
  else if !objectLegal o then .next (s.illegalOperand 0x76)
  else
    let object := completeObject s.me.vif s.focus.sig o
    spineResult s f.gd (BitVec.ofNat 64 (((s.journal.lastApplied.find? fun p => p.1 == object).map (·.2)).getD 0))

/-- JWAIT (R193). -/
def execJwait (f : SG) (s : State) : Host.Outcome State Fault Refusal :=
  match s.me.subs.find? fun u => u.number == (s.readG f.ga).toNat with
  | none => .next (s.illegalOperand 0x77)
  | some u => if (s.readG f.gb).toNat < u.count.toNat then spineResult s f.gd u.count else .next s.slotWait

/-! ### Replay (R293 to R295) -/

/-- A transaction of an exported journal, bound to this interface: class, object, after-descriptor, and the number, THRESH and WLOG of its
origin. -/
structure ReplayItem where
  cls : Nat
  object : Word
  after : Vec
  origin : Nat
  thresh : Nat
  wlog : Nat
  deriving DecidableEq, Repr

/-- Where a replay has moved its signatures so far, what it has vacated, the storage formats that it has given range entries, and the addressing
formats of the ranges it has re-encoded first. -/
structure ReplayMap where
  corners : List (Nat × Nat × Nat)
  vacated : List Nat
  formats : List (Nat × BitVec 8)
  addressing : List (Nat × BitVec 8)
  deriving DecidableEq, Repr

/-- The storage format of a range entry as the replay has left it, and the addressing format of its range (R288). -/
def State.replayFormat (s : State) (vif : Nat) (m : ReplayMap) (r : Nat) : BitVec 8 :=
  (Tab.look m.formats r).getD (Range.ofVec (s.rangeVec vif r)).sfmt

def State.replayAddressing (s : State) (vif : Nat) (m : ReplayMap) (r : Nat) : BitVec 8 :=
  match s.journal.addressing.find? fun (v, i, _) => v == vif && i == r with
  | some (_, _, f) => f
  | none => (Tab.look m.addressing r).getD (s.replayFormat vif m r)

/-- The map once an FMT has been played: its two entries have swapped copies (R289). -/
def State.replayFmt (s : State) (vif : Nat) (m : ReplayMap) (i : ReplayItem) : ReplayMap :=
  let r := objIdx i.object
  let spare := (blockWord i.after 2).toNat
  { m with
    formats := (r, (blockWord i.after 1).extractLsb' 0 8) :: (spare, s.replayFormat vif m r) :: m.formats
    addressing := m.addressing ++ [(r, s.replayAddressing vif m r)] }

/-- Bytes of a region, as a number. -/
def State.readNumber (s : State) (vif : Nat) (a : Word) (len : Nat) : Except CheckFault Nat :=
  match s.readBytes vif (len / 64 + 2) a len with
  | .error e => .error e
  | .ok bs => .ok (natOf bs)

/-- The signature that logical signature L is bound to: the lowest number with its digest and shape that is not bound yet. -/
def State.bindLogical (s : State) (vif : Nat) (bound : List Nat) (entry : Nat) : Option Nat :=
  let ht := entry / 2 ^ 16 % 16
  let wd := entry / 2 ^ 24 % 32
  let digest : BitVec 384 := BitVec.ofNat 384 (entry / 2 ^ 128)
  s.placedSigs.find? fun n =>
    let g := s.sig n
    g.vif == vif && g.ht == ht && g.wd == wd && !bound.contains n && (match s.imageOf n with | some i => i.digest == digest | none => false)

/-- Bind every logical signature, in rising order. -/
def State.bindAll (s : State) (vif : Nat) : List Nat → List Nat → Option (List Nat)
  | [], bound => some bound
  | e :: rest, bound =>
    match s.bindLogical vif bound e with
    | none => none
    | some n => State.bindAll s vif rest (bound ++ [n])

/-- A word of a block replaced. -/
def withWord (v : Vec) (k x : Nat) : Vec := blockOfWords ((List.range 8).map fun i => if i = k then x else (blockWord v i).toNat)

/-- A transaction of the journal in this interface's terms, if its logical number exists. -/
def bindItem (vif : Nat) (bound : List Nat) (record after : Vec) : Option ReplayItem :=
  let o := blockWord record 1
  let cls := ((blockWord record 2).extractLsb' 0 2).toNat
  let origin := (blockWord record 0).toNat
  let wlog := ((blockWord record 2).extractLsb' 38 6).toNat
  let thresh := ((blockWord record 2).extractLsb' 44 16).toNat
  if objKind o < 2 then
    match bound[objSig o]? with
    | none => none
    | some n => some { cls, object := objectWord (objKind o) vif n (objIdx o), after := if cls = 0 then withWord after 1 n else after, origin, thresh, wlog }
  else some { cls, object := objectWord (objKind o) vif 0 (objIdx o), after, origin, thresh, wlog }

/-- The corner of a signature as the replay has left it. -/
def State.replayCorner (s : State) (m : ReplayMap) (n : Nat) : Nat × Nat :=
  match m.corners.find? fun c => c.1 == n with
  | some (_, r, c) => (r, c)
  | none => ((s.sig n).row0, (s.sig n).col0)

/-- Whether a PART of a replay can be made: its target lies in the partition and is idle, vacated before, or its own (R294, code 3; log 37,
DEDUCED). -/
def State.replayPart (s : State) (vif : Nat) (m : ReplayMap) (bound : List Nat) (i : ReplayItem) : Option ReplayMap :=
  let n := objSig i.object
  let g := s.sig n
  let (cr, cc) := partCorner i.after
  let (pr, pc, ph, pw) := (s.iface vif).policy.partition
  let (r0, c0) := s.replayCorner m n
  let rect (k : Nat) : List Nat := let (r, c) := s.replayCorner m k; folioNumbers (rectangle r c (s.sig k).ht (s.sig k).wd)
  let own := rect n
  let target := s.partTarget vif i.after
  let free (k : Nat) : Bool :=
    own.contains k ||
      ((m.vacated.contains k || ((s.folio (k / 24) (k % 24)).placed == 0 && !s.journalHolds k))
        && !bound.any fun b => b != n && (rect b).contains k)
  if descriptorClean i.after [3, 0xFFFF, 0x1F0F, 0x1F0F] && partOp i.after < 2 && partShape i.after == (g.ht, g.wd) && cr + g.ht ≤ ph
      && cc + g.wd ≤ pw && sameShape g.ht g.wd r0 c0 (pr + cr) (pc + cc) && target.all free then
    some { m with corners := (n, pr + cr, pc + cc) :: m.corners.filter (·.1 ≠ n), vacated := m.vacated ++ own }
  else none

/-- Play a replay's transactions: the first refusal's code, or 0. (log 37, DEDUCED) -/
def State.playReplay (s : State) (vif sig : Nat) (bound : List Nat) : List ReplayItem → ReplayMap → Nat
  | [], _ => 0
  | i :: rest, m =>
    if s.platform.service = 2 ∧ i.cls ≠ 3 then 3
    else
      match i.cls, objKind i.object with
      | 0, 0 => match s.replayPart vif m bound i with | some m => State.playReplay s vif sig bound rest m | none => 3
      | 1, 1 => if objIdx i.object < 16 && s.routeValid i.object i.after then State.playReplay s vif sig bound rest m else 5
      | 2, 2 =>
        let used (r : Nat) : Bool := s.sigs.any fun (k, g) =>
          g.vif == vif && k != sig && g.ctxs.any fun (_, c) => c.kind == .stream && (Block.ofVec c.block).ridx == r
        let addr := s.replayAddressing vif m (objIdx i.object)
        if s.fmtValidFor vif addr i.object i.after && !used (objIdx i.object) && !used (blockWord i.after 2).toNat then
          State.playReplay s vif sig bound rest (s.replayFmt vif m i)
        else 4
      | 3, 3 => if polValid i.after true then State.playReplay s vif sig bound rest m else 1
      | _, _ => 1

/-- The items of a journal's transaction part, if their logical numbers exist. -/
def bindItems (vif : Nat) (bound : List Nat) (data : Nat) : Nat → Option (List ReplayItem)
  | 0 => some []
  | n + 1 =>
    match bindItem vif bound (BitVec.ofNat 512 data) (BitVec.ofNat 512 (data / 2 ^ 512)), bindItems vif bound (data / 2 ^ 1024) n with
    | some i, some rest => some (i :: rest)
    | _, _ => none

/-- The check of an exported journal in full (R294): its transactions, or the refusal code. (log 37, DEDUCED) -/
def State.checkJournal (s : State) (vif sig : Nat) (addr : Word) (len : Nat) : Nat ⊕ List ReplayItem :=
  match s.readNumber vif addr 64 with
  | .error _ => .inl 7
  | .ok h =>
    let header : Vec := BitVec.ofNat 512 h
    let nsig := ((blockWord header 0).extractLsb' 32 32).toNat
    let ntx := (blockWord header 1).toNat
    let total := 64 + 64 * nsig + 128 * ntx
    let rest := [3, 4, 5, 6, 7].any fun k => blockWord header k != 0
    if (blockWord header 0).extractLsb' 0 32 != 0x4A520001 || rest || (blockWord header 2).toNat != total || len != total then .inl 1
    else
      match s.readNumber vif (addr + 64) (total - 64) with
      | .error _ => .inl 7
      | .ok data =>
        let table := (List.range nsig).map fun i => data / 2 ^ (512 * i) % 2 ^ 512
        if (List.range nsig).any fun i => table.getD i 0 % 2 ^ 16 != i then .inl 1
        else
          match s.bindAll vif table [] with
          | none => .inl 2
          | some bound =>
            match bindItems vif bound (data / 2 ^ (512 * nsig)) ntx with
            | none => .inl 2
            | some items =>
              match s.playReplay vif sig bound items ⟨[], [], [], []⟩ with
              | 0 => if s.journal.replays.any fun r => r.vif == vif then .inl 6 else .inr items
              | c => .inl c

/-- A replay is queued: each transaction is accepted, with SRC 3, its origin in LINK and the origin's THRESH and WLOG (R295, R301); nothing when a
descriptor cannot be written. -/
def State.queueReplay (s : State) (vif sig : Nat) (items : List ReplayItem) : Option State :=
  let id := s.journal.next
  let queued := items.foldl (fun (acc : Option (State × List Nat)) i =>
    match acc with
    | none => none
    | some (s, ns) =>
      let t := { s.newTx vif 3 sig i.cls i.object i.after 0 0 0 with replay := id, link := i.origin, thresh := i.thresh, wlog := i.wlog }
      match s.accept t with
      | none => none
      | some (s, n) => some (s, ns ++ [n])) (some (s, []))
  queued.map fun (s, numbers) =>
    if numbers.isEmpty then s else { s with journal := { s.journal with replays := s.journal.replays ++ [{ id, vif, sig }] } }

/-- JLOAD (R193, R294). An after-descriptor that cannot be written answers 7. (log 37, DEDUCED) -/
def execJload (f : SG) (s : State) : Host.Outcome State Fault Refusal :=
  let g := s.me
  if !s.controllerAnswers then .next s.waitController
  else
    match s.checkJournal g.vif s.focus.sig (s.readG f.ga) (s.readG f.gb).toNat with
    | .inl code => spineResult s.taken f.gd (BitVec.ofNat 64 code)
    | .inr items =>
      match s.taken.queueReplay g.vif s.focus.sig items with
      | some s => spineResult s f.gd 0
      | none => spineResult s.taken f.gd 7

end Sys2Proof.Machine
end

