-- ==== Sys2Proof/Machine/SpineEngine.lean ====
section
/-!
DEFINITION. The engine instructions of the spine: streams, copies, collective steps, launches and configuration loads (R175 to R179,
R184, R187).
-/

namespace Sys2Proof.Machine

/-! ### Handles -/

/-- Whether a handle of a signature's folio is busy. -/
def State.busy (s : State) (sig key : Nat) : Bool := (s.ctx sig key).kind != .free

/-- Key of handle h of folio (0,0). -/
def leadKey (f : SE) : Nat := f.h.toNat

/-- The slot waits and keeps the block it has read. -/
def State.waitHandle (s : State) : State := s.slotWait

/-- A key check of R93 fails: KSLOT, KGEN and KW in AUX. -/
def keyAux (slot gen : Nat) (kw : Bool) : Nat := slot + gen * 2 ^ 20 + (if kw then 2 ^ 32 else 0)

/-- A block is refused at a byte offset (R344, R357). -/
def State.refuseBlock (s : State) (offset : Nat) : State := s.slotStop 0x0B 3 offset 0

/-- The first of some conditions that holds gives its offset. -/
def firstRefused (cs : List (Nat × Bool)) : Option Nat := (cs.find? (·.2)).map (·.1)

/-! ### STRM (R176) -/

/-- The context of a stream that starts now: it captures the range entry, its addressing format and the generation. -/
def State.streamCtx (s : State) (blk : Vec) (range : Vec) (addressing : BitVec 8) : Ctx :=
  let code := BitVec.ofNat 32 (s.codeOffset s.focus.sig)
  { Ctx.free with kind := .stream, block := blk, range, addressing, gen := s.genOf s.focus.sig, fork := s.nextRequest, code }

/-- The last STRM of a range is this signature's (R283). -/
def State.noteStrm (s : State) (vif ridx sig : Nat) : State :=
  { s with journal := { s.journal with
    lastStrm := (vif, ridx, sig) :: s.journal.lastStrm.filter fun r => !(r.1 == vif && r.2.1 == ridx) } }

/-- The stream block with the base that a register gives (R176). -/
def State.streamBlock (s : State) (f : SE) (blk : Vec) : Vec :=
  if f.gc = 0 then blk else (blk &&& ~~~(0xFFFFFFFFFFFFFFFF : Vec)) ||| (s.readG f.gc).setWidth 512

/-- STRM (R176). -/
def execStrm (f : SE) (s : State) : Host.Outcome State Fault Refusal :=
  let n := s.focus.sig
  let g := s.sig n
  match s.readBlock f with
  | .inl s => .next s
  | .inr blk =>
    let blk := s.streamBlock f blk
    let b := Block.ofVec blk
    if g.ht ≤ b.frow ∨ g.wd ≤ b.fcol then .next (s.illegalOperand 0x50)
    else
      let key := ctxKey g.wd b.frow b.fcol f.h.toNat
      if s.busy n key || s.rangeClosed g.vif b.ridx then .next s.waitHandle
      else
        let range := s.rangeVec g.vif b.ridx
        let (slot, gen, kw) := keyFields b.keysel
        match s.rangeThere g.vif with
        | .error e => .next (s.slotCheckFault e (BitVec.ofNat 64 (s.rangeAddress g.vif b.ridx)))
        | .ok _ =>
        match Block.refused blk (Range.ofVec range) (s.addressing g.vif b.ridx) with
        | some offset => .next (s.refuseBlock offset)
        | none =>
          if !s.keyValid g.vif slot gen kw then .next (s.slotStop 0x0A 3 (keyAux slot gen kw) 0)
          else .next ((s.setCtx n key (s.streamCtx blk range (s.addressing g.vif b.ridx))).noteStrm g.vif b.ridx n).slotDone

/-! ### SWAIT (R177) -/

/-- The handles an SWAIT covers, or nothing when it names no folio of the signature. -/
def State.waitedHandles (s : State) (f : SE) : Option (List Nat) :=
  let g := s.me
  let x := s.readG f.gc
  let row := (x.extractLsb' 5 4).toNat
  let col := (x.extractLsb' 0 5).toNat
  if f.sub.getLsbD 1 then some ((List.range (g.ht * g.wd)).map fun p => p * 16 + f.h.toNat)
  else if f.gc = 0 then some [f.h.toNat]
  else if (x.extractLsb' 9 55).toNat ≠ 0 ∨ g.ht ≤ row ∨ g.wd ≤ col then none
  else some [ctxKey g.wd row col f.h.toNat]

/-- SWAIT (R177): the join, and an acquire. -/
def execSwait (f : SE) (s : State) : Host.Outcome State Fault Refusal :=
  let n := s.focus.sig
  match s.waitedHandles f with
  | none => .next (s.illegalOperand 0x51)
  | some keys => if keys.any (s.busy n) then .next s.slotWait else .next (s.emptyReadAhead n).slotDone

/-! ### CPY (R178) -/

/-- Reserved bits of a key word of a copy or step block. -/
def keyWordClean (w : Word) : Bool := (w.extractLsb' 0 16).toNat == 0 && (w.extractLsb' 49 15).toNat == 0

/-- The offset of the first field of a copy block that breaks R178's limits. `tail` tells which of words 6 and 7 must be zero. -/
def copyRefused (v : Vec) (tail : Word) : Option Nat :=
  let len := blockWord v 2
  firstRefused [(0x00, (blockWord v 0).toNat % 64 != 0), (0x08, (blockWord v 1).toNat % 64 != 0),
    (0x10, (len.extractLsb' 40 24).toNat != 0 || len.toNat % 64 != 0 || len == 0), (0x18, (blockWord v 3).toNat % 8 != 0),
    (0x20, !keyWordClean (blockWord v 4)), (0x28, !keyWordClean (blockWord v 5)), (0x30, (blockWord v 6 &&& ~~~tail) != 0),
    (0x38, blockWord v 7 != 0)]

/-- The key words of a copy or step that fail R93 for their interfaces: the first one's AUX. -/
def State.keyRefused (s : State) (ks : List (Nat × Word)) : Option Nat :=
  (ks.find? fun (v, w) => let (slot, gen, kw) := keyFields w; !s.keyValid v slot gen kw).map fun (_, w) =>
    let (slot, gen, kw) := keyFields w; keyAux slot gen kw

/-- CPY (R178). -/
def execCpy (f : SE) (s : State) : Host.Outcome State Fault Refusal :=
  let n := s.focus.sig
  let g := s.sig n
  match s.readBlock f with
  | .inl s => .next s
  | .inr blk =>
    if s.busy n (leadKey f) then .next s.waitHandle
    else
      match copyRefused blk 0, s.keyRefused [(g.vif, blockWord blk 4), (g.vif, blockWord blk 5)] with
      | some offset, _ => .next (s.refuseBlock offset)
      | none, some aux => .next (s.slotStop 0x0A 3 aux 0)
      | none, none =>
        let code := BitVec.ofNat 32 (s.codeOffset n)
        let port := routePlace g.wd (s.route n f.h.toNat)
        let c : Ctx := { Ctx.free with kind := .copy, block := blk, gen := s.genOf n, fork := s.nextRequest, port, code }
        .next (s.setCtx n (leadKey f) c).slotDone

/-! ### COLL (R179) -/

/-- The offset of the first field of a step block that is out of range. -/
def stepRefused (v : Vec) : Option Nat :=
  let ctl := blockWord v 3
  firstRefused [(0x00, (blockWord v 0).toNat % 64 != 0), (0x08, (blockWord v 1).toNat % 8 != 0), (0x10, (blockWord v 2).toNat % 8 != 0),
    (0x18, 4 < (ctl.extractLsb' 32 4).toNat || (ctl.extractLsb' 36 2).toNat == 3 || (ctl.extractLsb' 38 2).toNat != 0
      || (ctl.extractLsb' 56 8).toNat != 0),
    (0x28, !keyWordClean (blockWord v 5)), (0x30, ((blockWord v 6).extractLsb' 32 32).toNat != 0), (0x38, blockWord v 7 != 0)]

/-- A step as its handle holds it, not yet taken by its engine: that of the die of the port its handle is bound to (R278). Its mode is the one at the
issue of its word (R122). -/
def State.newStep (s : State) (f : SE) (blk : Vec) : CollStep :=
  let n := s.focus.sig
  let g := s.sig n
  let r := s.route n f.h.toNat
  let eth := (blockWord r 3).toNat
  let place := routePlace g.wd r
  { id := s.nextColl, sig := n, ctx := leadKey f, vif := g.vif, die := dieOf (g.row0 + place / g.wd) (g.col0 + place % g.wd), block := blk
    mode := s.here.before.mode, number := 0, pairIndex := 0, started := false, port := if eth < 8 then some eth else none, allowance := 0
    nextFrame := 0, finished := [], sent := [], lastFrame := 0 }

/-- COLL (R179): the step captures the fabric mode as of its issue. -/
def execColl (f : SE) (s : State) : Host.Outcome State Fault Refusal :=
  let n := s.focus.sig
  match s.readBlock f with
  | .inl s => .next s
  | .inr blk =>
    if s.busy n (leadKey f) then .next s.waitHandle
    else
      match stepRefused blk with
      | some offset => .next (s.refuseBlock offset)
      | none =>
        let step := s.newStep f blk
        let c : Ctx := { Ctx.free with kind := .coll, block := blk, step := step.id, fork := s.nextRequest, code := BitVec.ofNat 32 (s.codeOffset n) }
        .next ({ s with colls := s.colls ++ [step], nextColl := s.nextColl + 1 }.setCtx n (leadKey f) c).slotDone

/-! ### LAUNCH (R184) -/

/-- LAUNCH (R184): the record enters the queue of the spine's own interface once the spine's earlier stores are performed, which the spine does
not wait for (R254). -/
def execLaunch (f : SE) (s : State) : Host.Outcome State Fault Refusal :=
  match s.readBlock f with
  | .inl s => .next s
  | .inr record =>
    let n := s.focus.sig
    if s.me.launches.isEmpty && (s.earlierStores n).isEmpty then .next (s.enqueue s.me.vif record).slotDone
    else .next (s.setSig n { s.me with launches := s.me.launches ++ [(record, s.nextRequest)] }).slotDone

/-! ### CFGLD (R187) -/

/-- Whether a folio's plane of the world holds, or takes, a configuration that is not active. -/
def Folio.holdsCfg (f : Folio) (vif : Nat) (image : Word) (cfg : Nat) (states : List PlaneState) : Bool :=
  (f.planeWith vif image cfg states).isSome

/-- Loads of a CFGLD begin where they can; a place whose load has begun, or needs none, is marked in the context. -/
def State.pumpCfgld (s : State) (sig key : Nat) : State :=
  let g := s.sig sig
  (List.range (g.ht * g.wd)).foldl (fun s p =>
    let c := s.ctx sig key
    if c.index.get 0 p = 1 then s
    else
      let rc := (g.row0 + p / g.wd, g.col0 + p % g.wd)
      let s := s.loadFolio sig c.unit p
      if (s.folio rc.1 rc.2).holdsCfg g.vif g.code c.unit [.ready, .loading] then
        s.setCtx sig key { c with index := c.index.set 0 p 1 }
      else s) s

/-- A CFGLD completes once every folio's load has begun and none goes on (R187, R386). -/
def State.endCfgld (s : State) (sig key : Nat) : State :=
  let g := s.sig sig
  let c := s.ctx sig key
  let begun := (List.range (g.ht * g.wd)).all fun p => c.index.get 0 p == 1
  let going := g.folios.any fun rc => (s.folio rc.1 rc.2).holdsCfg g.vif g.code c.unit [.loading]
  if c.kind = .cfgld && begun && !going then s.setCtx sig key Ctx.free else s

/-- CFGLD (R187). -/
def execCfgld (f : SE) (s : State) : Host.Outcome State Fault Refusal :=
  let n := s.focus.sig
  let cfg := f.disp.toInt
  let ncfg := match s.imageOf n with | some i => i.shape_.2.2 | none => 0
  if cfg < 0 ∨ (ncfg : Int) ≤ cfg then .next (s.illegalOperand 0x5C)
  else if s.busy n (leadKey f) then .next s.slotWait
  else
    let code := BitVec.ofNat 32 (s.codeOffset n)
    let s := s.setCtx n (leadKey f) { Ctx.free with kind := .cfgld, unit := cfg.toNat, fork := s.nextRequest, code }
    .next ((s.pumpCfgld n (leadKey f)).endCfgld n (leadKey f)).slotDone

end Sys2Proof.Machine
end

