-- ==== Sys2Proof/Machine/Placement.lean ====
section
/-!
DEFINITION. Launches from placement to their end: starting a placed signature (R36), saving and restoring images (R42, R43, R66), moves
(R281, R386), and the end of a launch (R37, R355).
-/

namespace Sys2Proof.Machine

/-! ### Whether the module serves (R331) -/

def State.serving (s : State) : Bool := s.platform.service == 2 || s.platform.service == 3

/-- Whether the bindery places and saves: it does not during a debug stop (R395) or a change of the service state (R335). -/
def State.binderyRuns (s : State) : Bool := s.serving && !s.debugger.stopped && !s.platform.moving

/-! ### Starting a launch (R36) -/

/-- Whether the plane of a folio that took a configuration last holds it READY, and the folio is powered. -/
def State.folioReady (s : State) (sig cfg : Nat) (rc : Nat × Nat) : Bool :=
  let g := s.sig sig
  let f := s.folio rc.1 rc.2
  !f.gated && (match f.planeWith g.vif g.code cfg [.ready, .loading] with | some (_, p) => p.state == .ready | none => false)

/-- The configuration a folio of a starting signature is to run: 0 for a launch, the saved one for a restore. -/
def Sig.startCfg (g : Sig) (place : Nat) : Nat :=
  match Tab.look g.image place with
  | some f => f.cfg
  | none => 0

/-- Whether every folio of a starting signature can run, and the loads that an image lists have begun. -/
def State.startReady (s : State) (sig : Nat) : Bool :=
  let g := s.sig sig
  g.status == .starting && (List.range (g.ht * g.wd)).all fun p =>
    let f := g.savedFolio p
    f.ready.all f.begun.contains && s.folioReady sig (g.startCfg p) (g.place p)

/-- The members of a signature's gang that start with it. -/
def State.startingGang (s : State) (sig : Nat) : List Nat := (s.gangOf sig).filter fun n => (s.sig n).status == .starting

/-- Whether a signature can begin, and every member of its gang that starts with it: a gang is placed whole or not at all (R35). -/
def State.gangReady (s : State) (sig : Nat) : Bool := s.startReady sig && (s.startingGang sig).all s.startReady

/-- Loads that had to wait for a plane, or for a folio to be ungated, begin where they can. -/
def State.pumpStart (s : State) (sig : Nat) : State :=
  let g := s.sig sig
  ((List.range (g.ht * g.wd)).foldl (fun s p => s.loadFolio sig (g.startCfg p) p) s).pumpListed sig

/-- Each folio activates the plane of its configuration. -/
def State.activateAll (s : State) (sig : Nat) : State :=
  let g := s.sig sig
  (List.range (g.ht * g.wd)).foldl (fun s p =>
    let (row, col) := g.place p
    let f := s.folio row col
    match f.planeWith g.vif g.code (g.startCfg p) [.ready] with
    | some (k, _) => s.setFolio row col (f.activate k s.cycle)
    | none => s) s

/-- The seed of a launch record (R29). -/
def recordSeed (r : Vec) : SWord := let x := (recordWord r 7).extractLsb' 0 32; if x = 0 then 1 else x

/-- What an element keeps as a launch starts in it: its tagged items; its rounding state, counters and pipelines are new. -/
def Element.launched (e : Element) (seed : SWord) : Element :=
  { e with sigma := seed, counters := [], owner := [], pending := [], matrix := [], delay := [], ports := [], egress := [], landed := []
           bus := 0, tally := [] }

/-- The trace record of a placement (R316). -/
def State.tracePlaced (s : State) (sig : Nat) : State :=
  let g := s.sig sig
  let (pr, pc, _, _) := (s.iface g.vif).policy.partition
  s.traceSig sig 0x0001 2 (pairWord (g.row0 - pr) (g.col0 - pc) + pairWord g.ht g.wd * 2 ^ 16)

/-- A launch whose folios are ready begins: planes, generations, seed and registers; word 0 comes next (R36). Of its spines only the lead one is
written, since the others keep their state (R51; log 86, DEDUCED). -/
def State.beginLaunch (s : State) (sig : Nat) : State :=
  let s := s.activateAll sig
  let g := s.sig sig
  let s := if g.advance then s.advanceGenerations sig else s
  let seed := recordSeed g.record
  let s : State := g.places.foldl (fun s rc => s.setElementOf sig rc.1 rc.2 ((s.elementOf sig rc.1 rc.2).launched seed)) s
  let s : State := g.folios.foldl (fun s rc => s.setFolio rc.1 rc.2 { s.folio rc.1 rc.2 with lastWorld := some g.vif }) s
  let p := (Spine.zero.setG 1 (recordWord g.record 1))
  let s := s.setSpineOf sig { p with pc := g.code }
  let s : State := g.folios.foldl (fun s rc => s.setFolio rc.1 rc.2 { s.folio rc.1 rc.2 with swept := false }) s
  (s.setSig sig { s.sig sig with status := .running, advance := false }).tracePlaced sig

/-- Whether a signature that starts goes on: a restore completes in a debug stop too (R395). -/
def State.startGoesOn (s : State) (g : Sig) : Bool := s.serving && !s.platform.moving && (!s.debugger.stopped || !g.image.isEmpty)

/-- A starting launch begins once its folios are ready, after the sweep that a wrap asks for (R65). -/
def State.tryStart (s : State) (sig : Nat) : State :=
  let g := s.sig sig
  if g.status != .starting || g.byFault || !s.startGoesOn g then s
  else if !s.startReady sig then s.pumpStart sig
  else if !s.gangReady sig then s
  else if 0 < g.sweep then s
  else if g.advance && s.wraps sig then s.setSig sig { g with sweep := 1600 }
  else if g.image.isEmpty then s.beginLaunch sig
  else s

def State.startAll (s : State) : State :=
  (s.sigs.filter (·.2.status = .starting)).foldl (fun s p => s.tryStart p.1) s

/-! ### Images (R42, R66) -/

/-- A table with its items changed; those that become the default are gone. -/
def Tab.mapItems {α : Type} [DecidableEq α] (d : α) (f : α → α) (t : Tab α) : Tab α :=
  (t.map fun p => (p.1, f p.2)).filter fun p => p.2 ≠ d

/-- An element with its generations renumbered; an item whose generation becomes 0 holds nothing (R66). -/
def Element.regen (e : Element) (f : Gen → Gen) : Element :=
  let tagged (w : Nat) (r : Tagged w) : Tagged w := if f r.gen = 0 then Tagged.zero w else { r with gen := f r.gen }
  { e with
    v := Tab.mapItems VReg.zero (fun r => if f r.gen = 0 then VReg.zero else { r with gen := f r.gen }) e.v
    a := Tab.mapItems AReg.zero (fun r => if f r.gen = 0 then AReg.zero else { r with gen := f r.gen }) e.a
    s := Tab.mapItems (Tagged.zero 32) (tagged 32) e.s
    k := Tab.mapItems (Tagged.zero 64) (tagged 64) e.k
    b := Tab.mapItems (Tagged.zero 64) (tagged 64) e.b
    ring := Tab.mapItems (Tagged.zero 16) (tagged 16) e.ring
    pad := Tab.mapItems (Tagged.zero 512) (tagged 512) e.pad
    egress := e.egress.map fun x => { x with entry :=
      match x.entry with
      | .vector v => .vector v
      | .buffer d => .buffer { d with gen := f d.gen }
      | .stopped d => .stopped { d with gen := f d.gen } }
    pending := e.pending.map fun p => { p with gen := f p.gen }
    matrix := e.matrix.map fun m => { m with gen := f m.gen } }

/-- In an image the current generation stands as 1, and every other one as 0. -/
def toImage (current g : Gen) : Gen := if g = current then 1 else 0
def fromImage (current g : Gen) : Gen := if g = 1 then current else 0

/-- Whether the spine of a signature stands in a STOP. -/
def State.spineFaulted (s : State) (sig : Nat) : Bool :=
  s.spineStopped sig || (match (s.spineOf sig).phase with | .faulted _ => true | .fetchFault => true | _ => false)

/-- The image of the folio at a place of a signature. -/
def State.saveFolio (s : State) (sig p : Nat) : SavedFolio :=
  let g := s.sig sig
  let rc := g.place p
  let f := s.folio rc.1 rc.2
  let elements := (List.range 256).map fun k =>
    (k, (s.elementOf sig (16 * (p / g.wd) + k / 16) (16 * (p % g.wd) + k % 16)).regen (toImage f.gen))
  let active := f.active
  { elements := elements.filter fun x => x.2 ≠ Element.zero
    cfg := match active with | some (_, a) => a.cfg | none => 0
    roles := match active with | some (_, a) => a.roles | none => 0
    ready := (f.planes.filter fun x => x.2.state == .ready && x.2.owner == some g.vif && x.2.image == g.code).map (·.2.cfg)
    begun := [] }

/-- A spine as its folio becomes idle: its registers keep their contents, and nothing is in progress any more. -/
def Spine.retired (p : Spine) : Spine :=
  { p with phase := .ended, waiting := false, progress := 0, answer := none, seamRequest := none, breakpoint := false, resumeAt := 0, poll := none
           readAhead := [], fetched := [], wanted := [], bkpt := none }

/-- A folio becomes idle: its planes stay loaded, its contents keep their generation (R37), and its spine its registers. -/
def State.releaseFolio (s : State) (vif : Nat) (rc : Nat × Nat) : State :=
  let f := s.folio rc.1 rc.2
  s.setFolio rc.1 rc.2 { f with placed := 0, lastWorld := some vif, idleFor := 0, swept := false, spine := f.spine.retired }

/-- A signature's prefetches are dropped. -/
def State.dropFetches (s : State) (sig : Nat) : State :=
  { s with requests := s.requests.filter fun r => r.source != .readAhead sig }

/-- A signature becomes a saved image, and its folios are released. -/
def State.saveImage (s : State) (sig : Nat) : State :=
  let g := s.sig sig
  let image : Tab SavedFolio := (List.range (g.ht * g.wd)).map fun p => (p, s.saveFolio sig p)
  let cur := s.genOf sig
  let p := s.spineOf sig
  let savedSpine := { p with
    answer := if p.poll.isSome then none else p.answer
    fetched := [], wanted := [], readAhead := [], resumeAt := if s.spineFaulted sig then 1 else 0 }
  let used := Config.choice s.free % (g.reservedStore + 1)
  let s := { s with free := s.free + 1, platform := { s.platform with store := s.platform.store - (g.reservedStore - used) } }
  let s := s.mapElements sig fun e => e.launched e.sigma
  let s := (s.dropFetches sig).setSig sig { g with
    status := .saved, image, savedSpine, reservedStore := used, asserted := [], held := false, passed := []
    acquired := (s.earlierStores sig).map (·.id), savedAt := (g.row0, g.col0)
    ctxs := g.ctxs.map fun x => (x.1, { x.2 with gen := toImage cur x.2.gen }) }
  g.folios.foldl (fun s rc => s.releaseFolio g.vif rc) s

/-- A folio of an image is written under the current generation; what the image does not hold is 0 of generation 0 (R66; log 96, DESIGN CHOICE). -/
def State.restoreFolio (s : State) (sig p : Nat) (saved : SavedFolio) : State :=
  let g := s.sig sig
  let rc := g.place p
  let gen := (s.folio rc.1 rc.2).gen
  (List.range 256).foldl (fun s k =>
    s.setElementOf sig (16 * (p / g.wd) + k / 16) (16 * (p % g.wd) + k % 16)
      ((saved.elements.get Element.zero k).regen (fromImage gen))) s

/-- Whether a store that a saved signature may have acquired at its old place is still on its way: what it does at its new one comes after that store
(R255; log 34, DEDUCED). -/
def State.acquiredGo (s : State) (sig : Nat) : Bool :=
  s.requests.any fun r => (s.sig sig).acquired.contains r.id && r.unapplied && r.stage == .travel

/-- Loads of the CFGLDs of a signature go on at its new folios. -/
def State.resumeCfglds (s : State) (sig : Nat) : State :=
  ((s.sig sig).ctxs.filter (·.2.kind = .cfgld)).foldl (fun s x => (s.setCtx sig x.1 { x.2 with index := [] }).pumpCfgld sig x.1) s

/-- An image is written into its placement, under a new generation, and the signature resumes at its frozen T (R42, R66). Of its spines only the lead
one is written (R51; log 86, DEDUCED). -/
def State.writeImage (s : State) (sig : Nat) : State :=
  let s := (s.activateAll sig).advanceGenerations sig
  let g := s.sig sig
  let s := g.image.foldl (fun s x => s.restoreFolio sig x.1 x.2) s
  let cur := s.genOf sig
  let s : State := g.folios.foldl (fun s rc => s.setFolio rc.1 rc.2 { s.folio rc.1 rc.2 with lastWorld := some g.vif }) s
  let answered := !s.stopOpen sig
  let p := g.savedSpine
  let s := s.setSpineOf sig { p with resumeAt := if p.resumeAt = 0 then 0 else if answered then s.cycle + 12 else 1 }
  let stop := g.stop.map fun st => if answered && st.inForce then { st with lifts := some (s.cycle + 12) } else st
  let s := { s with platform := { s.platform with store := s.platform.store - g.reservedStore } }
  let s := s.setSig sig { g with
    status := if g.ending || g.byFault then .draining else .running, advance := false, image := [], savedSpine := Spine.zero, stop, yieldFor := none, acquired := []
    passed := [], asserted := [], reissue := true
    reservedStore := 0, ctxs := g.ctxs.map fun x => (x.1, { x.2 with gen := fromImage cur x.2.gen }) }
  (((s.tracePlaced sig).liftWave sig .preempt).liftWave sig .move).resumeCfglds sig

/-! ### The end of a launch (R37, R38, R355) -/

/-- An END with IRQ = 1: an interrupt at once, or one for the coalescing window that it opens or falls in (R38), which the disciplined time ends.
(log 95, DESIGN CHOICE) -/
def State.endInterrupt (s : State) (vif : Nat) : State :=
  let f := s.iface vif
  let w := (f.ictl.extractLsb' 0 16).toNat
  if w = 0 then s.interrupt vif 1 false
  else
    match f.irqEnds with
    | some _ => s.setIface vif { f with irqCount := f.irqCount + 1 }
    | none => s.setIface vif { f with irqCount := 1, irqEnds := some (s.ns + w) }

/-- Images that are no longer registered and that nothing names are forgotten. -/
def State.pruneImages (s : State) (vif : Nat) : State :=
  let f := s.iface vif
  let named (code : Word) : Bool :=
    (s.sigs.any fun x => x.2.vif == vif && x.2.code == code) || f.queue.any fun q => recordWord q.record 0 == code
  s.setIface vif { f with images := f.images.filter fun i => i.registered || named i.code }

/-- Records that LAUNCHes of a signature have asked for enter its interface's queue, in order, as far as `ready` lets them (R184). -/
def State.enqueueWhile (ready : Nat → Bool) (vif : Nat) : List (Vec × Nat) → State → State × List (Vec × Nat)
  | [], s => (s, [])
  | x :: rest, s => if ready x.2 then State.enqueueWhile ready vif rest (s.enqueue vif x.1) else (s, x :: rest)

/-- A LAUNCH enqueues once the stores that the spine issued before it are performed (R254). -/
def State.enqueueLaunches (s : State) (sig : Nat) : State :=
  let (s, left) := State.enqueueWhile (fun fork => !s.forkOpen sig fork) (s.sig sig).vif (s.sig sig).launches s
  s.setSig sig { s.sig sig with launches := left }

/-- The LAUNCHes of a launch that ends proceed (R37, R355). -/
def State.flushLaunches (s : State) (sig : Nat) : State :=
  (State.enqueueWhile (fun _ => true) (s.sig sig).vif (s.sig sig).launches s).1

/-- Records that an ended signature leaves lapse, as do its watchpoint hits. -/
def State.lapse (s : State) (vif sig : Nat) : State :=
  let f := s.iface vif
  let s : State := { s with debugger := { s.debugger with hits := s.debugger.hits.filter fun h => h.2.2.1 != sig } }
  s.setIface vif { f with
    records := f.records.map fun r => if r.sig = sig && !r.answered then { r with lapsed := true } else r
    queue := f.queue.filter fun q => q.saved != some sig }

/-- Every queue's completion objects are read again (R32). -/
def State.pollAll (s : State) : State := (s.ifaces.map (·.1)).foldl (fun s v => s.pollCwait v) s

/-- A pre-empted signature returns to the head of its interface's queue (R34). -/
def State.requeue (s : State) (sig : Nat) : State :=
  let g := s.sig sig
  let f := s.iface g.vif
  let q : Queued := { record := g.record, prio := g.prio, blocking := false, arrived := s.cycle, first := g.arrived, waitedBefore := g.waited
                      candidateSince := none, ready := true, saved := some sig }
  s.setIface g.vif { f with queue := q :: f.queue }

/-- Whether a saved image waits in its interface's queue. -/
def State.inQueue (s : State) (sig : Nat) : Bool := (s.iface (s.sig sig).vif).queue.any fun q => q.saved == some sig

/-- Pre-empted members of a gang return to their queue together, once none of them is still to be saved (R34). -/
def State.returnGang (s : State) (members : List Nat) : State :=
  let preempted (n : Nat) : Bool := (s.sig n).waves.any (·.cause = .preempt)
  if members.any fun n => preempted n && (s.sig n).status != .saved then s
  else (members.filter fun n => preempted n && !(s.sig n).byFault && !s.inQueue n).foldr (fun n s => s.requeue n) s

/-- A launch ends: `value` goes to CDONE, the folios become idle, and everything that is the signature's ends with it. -/
def State.endLaunch (s : State) (sig : Nat) (value : Word) : State :=
  let s := s.flushLaunches sig
  let g := s.sig sig
  let gang := (s.gangOf sig).filter (· != sig)
  let cdone := recordWord g.record 2
  let s :=
    if cdone = 0 then s
    else
      match s.writeVirtual g.vif cdone 8 value.toNat with
      | .ok s => s
      | .error _ => s.completionFailed g.vif 3 sig 0 cdone
  let placed := g.status != .saved
  let regions := (s.spineAnywhere sig).region
  let s := s.traceAt g.row0 g.col0 g.vif sig regions 0x0002 2 value.toNat
  let s := if placed then s.mapElements sig fun e => e.launched e.sigma else s
  let s := if placed then g.folios.foldl (fun s rc => s.releaseFolio g.vif rc) s else s
  let s := if g.record.getLsbD (384 + 21) then s.endInterrupt g.vif else s
  let s := (s.endJournal sig).lapse g.vif sig
  let s := { s with
    requests := s.requests.filter fun r => r.source.owner.1 != sig
    sigs := s.sigs.filter fun x => x.1 != sig
    platform := { s.platform with store := s.platform.store - g.reservedStore } }
  ((s.pruneImages g.vif).returnGang gang).pollAll

/-- Whether the south-east corner has executed the last word slot emitted, and the spine emits no more. -/
def State.wordsDone (s : State) (sig : Nat) : Bool :=
  let g := s.sig sig
  (s.spineOf sig).phase == .ended && g.emptied

/-- Whether every result of an executed word has landed, so that the folios keep it (R37, R201). -/
def State.landed (s : State) (sig : Nat) : Bool :=
  (s.busyPlaces sig).all fun rc => (s.elementOf sig rc.1 rc.2).pending.isEmpty && (s.elementOf sig rc.1 rc.2).matrix.isEmpty

/-- Whether a request of a signature is on its way. -/
def State.requestsGo (s : State) (sig : Nat) : Bool :=
  s.requests.any fun r =>
    (match r.source with | .readAhead _ => false | src => src.owner.1 == sig)
      && (match r.stage with | .faulted .. => false | _ => true)

/-! ### Placing a record (R34, R35, R277) -/

/-- The RESERVE that holds a rectangle for the next launch of a shape. -/
def State.reservedFor (s : State) (vif ht wd : Nat) : Option Tx :=
  s.journal.txs.find? fun t =>
    t.cls == 0 && !t.rv && t.state == .applied && t.closing.isNone && t.vif == vif && partOp t.afterBytes == 2 && partShape t.afterBytes == (ht, wd)

/-- Take a record out of its queue. -/
def State.dequeue (s : State) (vif : Nat) (q : Queued) : State :=
  let f := s.iface vif
  s.setIface vif { f with queue := f.queue.erase q }

/-- The undo of a move has failed (R388). -/
def State.undoLost (s : State) (t : Tx) : State := match s.revertOf t.num with | some r => s.undoFailed r t.num | none => s

/-- A move meets an uncorrectable error in a plane of its target: it is aborted, or its undo has failed (R386 to R388). -/
def State.moveLost (s : State) (t : Tx) (undo : Bool) : State := if undo then s.undoLost t else s.abort t.num 9

/-- A saved signature is placed again: at the target of a move that it is to make, if that is still there, otherwise by first fit. -/
def State.placeSaved (s : State) (vif : Nat) (q : Queued) (n : Nat) : Option State :=
  let g := s.sig n
  let fit (s : State) : Option State :=
    (s.firstFit vif g.ht g.wd (some (g.row0, g.col0))).map fun c => (s.dequeue vif q).restoreAt n false c q.prio (q.waited s.cycle)
  match s.pendingMove n with
  | none => fit s
  | some (t, folios, undo) =>
    if t.broken then fit (s.moveLost t undo)
    else if s.targetFree t n folios && folios.all (fun k => (s.folio (k / 24) (k % 24)).placed == 0) then
      some ((s.dequeue vif q).restoreAt n true (cornerOf folios) q.prio (q.waited s.cycle))
    else if undo then fit (s.undoLost t)
    else fit (s.abort t.num 10)

/-- Place one record with a gang, or nothing when it does not fit. -/
def State.placeOne (s : State) (vif gang : Nat) (q : Queued) : Option State :=
  match q.saved with
  | some n => s.placeSaved vif q n
  | none =>
    let ht := recordHt q.record
    let wd := recordWd q.record
    match s.reservedFor vif ht wd with
    | some t =>
      if t.target.all fun k => (s.folio (k / 24) (k % 24)).placed == 0 then
        some (((s.dequeue vif q).settle t.num 0).placeAt vif q gang (cornerOf t.target))
      else none
    | none => (s.firstFit vif ht wd none).map fun c => (s.dequeue vif q).placeAt vif q gang c

/-- Place a record with its gang, all of them or none (R35). -/
def State.placeGroup (s : State) (vif : Nat) (q : Queued) : Option State :=
  (s.groupOf vif q).foldl (fun (acc : Option State) m => acc.bind fun t => t.placeOne vif (s.nextOrder + 1) m) (some s)

/-- The record of highest effective priority on the device among those that a test admits, the one that first arrived the earliest among those
(R404). -/
def State.foremost (s : State) (test : Nat → Queued → Bool) : Option (Nat × Queued) :=
  (s.ifaces.flatMap fun x => (x.2.queue.filter (test x.1)).map fun q => (x.1, q)).foldl (fun (best : Option (Nat × Queued)) c =>
    match best with
    | none => some c
    | some b =>
      let pc := s.groupPrio c.1 c.2
      let pb := s.groupPrio b.1 b.2
      if pb < pc || (pb == pc && c.2.first < b.2.first) then some c else best) none

/-- Whether a record makes room worth giving up for it (R195): a choosable one of a priority or a higher one that cannot be placed. -/
def State.wants (s : State) (prio vif : Nat) (q : Queued) : Bool :=
  s.choosable vif q && decide (prio ≤ s.groupPrio vif q) && (s.placeGroup vif q).isNone

/-- The record for which a YIELD pre-empts a signature, if there is one: of those that a YIELD gives way to, the foremost (R195, R404). -/
def State.waitingRecord (s : State) (sig : Nat) : Option (Nat × Queued) :=
  s.foremost fun v q => q.blocking || s.wants (s.sig sig).prio v q

/-- Whether an entry of a queue is another one at a later time: the same record, or saved image, that arrived in the same cycle. -/
def Queued.same (a b : Queued) : Bool := a.record == b.record && a.first == b.first && a.saved == b.saved

/-- The record for which a YIELD pre-empted one of some signatures, if it still waits and can be chosen (R404). -/
def State.causeRecord (s : State) (ms : List Nat) : Option (Nat × Queued) :=
  match ms.filterMap fun m => (s.sig m).yieldFor with
  | (v, q) :: _ => (((s.iface v).queue.find? fun x => x.same q && s.choosable v x)).map fun x => (v, x)
  | [] => none

/-- The blocking record that is served: of several the foremost one. (log 81, DESIGN CHOICE) -/
def State.blockingRecord (s : State) : Option (Nat × Queued) := s.foremost fun _ q => q.blocking

/-- The folios of a placement that cannot be completed stay idle (R386); an image is saved as it was. -/
def State.releaseStart (s : State) (sig : Nat) : State :=
  let g := s.sig sig
  let s := g.folios.foldl (fun s rc => s.setFolio rc.1 rc.2 { s.folio rc.1 rc.2 with placed := 0, idleFor := 0, swept := false }) s
  s.setSig sig { g with status := .saved, sweep := 0 }

/-- A placement that cannot be completed is taken back, and its record returns to the head of the queue (R386). -/
def State.unplaceOne (s : State) (sig : Nat) : State :=
  let g := s.sig sig
  let s := s.releaseStart sig
  if g.image.isEmpty then
    let f := s.iface g.vif
    let q : Queued := { record := g.record, prio := g.prio, blocking := false, arrived := s.cycle, first := g.arrived, waitedBefore := g.waited
                        candidateSince := none, ready := true, saved := none }
    { s.setIface g.vif { f with queue := q :: f.queue } with sigs := s.sigs.filter fun x => x.1 != sig }
  else s.requeue sig

/-- The same for a signature with the members of its gang that start with it: if one of them cannot be placed, none is (R35). -/
def State.unplace (s : State) (sig : Nat) : State := (s.startingGang sig).foldr (fun n s => s.unplaceOne n) s

/-- The signature to pre-empt for a blocking record: the one placed last among those below it in effective priority; a gang member counts with the
priority of its own record, and one whose planes still load is none. (log 81, DESIGN CHOICE) -/
def State.victim (s : State) (prio : Nat) : Option Nat :=
  (s.sigs.filter fun x => (x.2.status == .running || x.2.status == .draining) && x.2.prio < prio).foldl
    (fun (b : Option Nat) x =>
      match b with
      | none => some x.1
      | some m => if (s.sig m).order < x.2.order then some x.1 else b) none

/-! ### YIELD (R195) -/

/-- Whether a waiting record makes a YIELD pre-empt its signature (R195): a choosable one of equal or higher effective priority that cannot
be placed, or a blocking one. -/
def State.yieldTo (s : State) (sig : Nat) : Bool := (s.waitingRecord sig).isSome

/-- A YIELD pre-empts its signature, if the image store has room; a PART move of it that awaits its seam goes with it (R197). The record that it
gives way to is kept, unless the signature is being pre-empted already (R404). -/
def State.yielded (s : State) (sig : Nat) : State :=
  let cause := if (s.sig sig).waves.any (·.cause = .preempt) then (s.sig sig).yieldFor else s.waitingRecord sig
  let s := s.preempt sig
  if (s.sig sig).waves.any (·.cause = .preempt) then
    (s.setSig sig { s.sig sig with yieldFor := cause }).joinWave sig (s.awaitingMove sig)
  else s

/-- YIELD (R195, R197). -/
def execYield (_f : SG) (s : State) : Host.Outcome State Fault Refusal :=
  .next (if s.yieldTo s.focus.sig then s.yielded s.focus.sig else s).slotDone

end Sys2Proof.Machine
end

