-- ==== Sys2Proof/Machine/Streams.lean ====
section
/-!
DEFINITION. Events of the memory system: stream requests (R78, R81, R83, R85), walks and unwraps (R73, R90), homes and replies (R89), fills and
egress (R60, R87, R242, R371), completion (R84), and the edge TLB's invalidations (R73).
-/

namespace Sys2Proof.Machine

/-! ### Issue (R81, R83, R85) -/

/-- The passed-over run that an indexed stream makes up for, and the run it issues requests of. -/
def Ctx.backRun (c : Ctx) : Option Nat := if (Block.ofVec c.block).indexed then c.back else none
def Ctx.current (c : Ctx) : Nat := c.backRun.getD c.run

/-- The bytes of a piece of a run from the granules taken, once they are all there (R77, R82). The lanes of an atomic-scatter are cut from the
elements in storage format, and bytes past the run's last element are 0. (log 82, DESIGN CHOICE) -/
def Ctx.pieceData (c : Ctx) (run : Nat) (p : Piece) : Option Nat :=
  let b := Block.ofVec c.block
  let sfmt := c.rangeEntry.sfmt
  let ws := storageWidth sfmt
  let w := laneWidth b.rfmt
  let per := 512 / w
  let e0 := 8 * p.off / ws
  let n := (8 * (p.off + p.len) - 1) / ws + 1 - e0
  let granule (e : Nat) : Option Vec := Tab.look c.out (run * b.granules + e / per)
  let mine := (List.range n).filter fun i => e0 + i < b.cnt0
  if mine.all fun i => (granule (e0 + i)).isSome then
    let x := mine.foldl (fun acc i =>
      let lane := laneOf ((granule (e0 + i)).getD 0) ((e0 + i) % per) w
      acc + (if b.moves sfmt then lane else portConvert b.rfmt (elementSfmt sfmt) lane) % 2 ^ ws * 2 ^ (ws * i)) 0
    some (x / 2 ^ (8 * p.off - ws * e0) % 2 ^ (8 * p.len))
  else none

/-- The context after its next piece has been issued; granules no longer needed leave the port. -/
def Ctx.stepPiece (c : Ctx) (ps : List Piece) : Ctx :=
  let b := Block.ofVec c.block
  let c :=
    if c.unit + 1 < ps.length then { c with unit := c.unit + 1 }
    else if c.backRun.isSome then { c with unit := 0, back := none }
    else { c with unit := 0, run := c.run + 1 }
  let first :=
    match ps[c.unit]? with
    | some p => if c.unit = 0 then 0 else 8 * p.off / storageWidth c.rangeEntry.sfmt / (512 / laneWidth b.rfmt)
    | none => 0
  let needed (q : Nat) : Bool :=
    let k := q / b.granules
    if k = c.current then first ≤ q % b.granules else c.run ≤ k || (b.indexed && c.skipped.contains k)
  { c with out := c.out.filter fun x => needed x.1 }

/-- What a stream's piece does at its home. -/
def Block.pieceOp (b : Block) (p : Piece) (data : Nat) : ReqOp :=
  let sh := 8 * (p.va.toNat % 64)
  if b.loads then .read
  else if b.mode = 4 then .atomic b.aop b.wide (BitVec.ofNat 64 data) 0
  else .write (BitVec.ofNat 512 (data * 2 ^ sh)) (BitVec.ofNat 512 ((2 ^ (8 * p.len) - 1) * 2 ^ sh))

/-- The request of a piece of a run of a stream. -/
def State.pieceRequest (s : State) (sig key run unit : Nat) (p : Piece) (data : Nat) : Request :=
  let g := s.sig sig
  let c := s.ctx sig key
  let b := Block.ofVec c.block
  let (slot, gen, kw) := keyFields b.keysel
  let (fr, fc) := g.ctxFolio key
  { id := 0, source := .stream sig key (pieceTag run unit), vif := g.vif, va := c.programVa run p, sealVa := p.va, scale := p.scale, pa := 0
    key := s.keyUse slot gen kw, op := b.pieceOp p data, stage := .translate, data := 0, bad := false, die := dieOf fr fc, entered := 0
    code := c.code, time := g.time }

/-- Issue the next piece of a stream. -/
def State.issuePiece (s : State) (sig key : Nat) (ps : List Piece) (p : Piece) (data : Nat) : State :=
  let g := s.sig sig
  let c := s.ctx sig key
  let b := Block.ofVec c.block
  let r := s.pieceRequest sig key c.current c.unit p data
  let s := s.setCtx sig key (c.stepPiece ps)
  let s := if b.loads then s else s.markFmt g.vif b.ridx r.va
  let (s, r) := (s.watch g.vif sig r.va.toNat r.op.watchKind).newRequest r
  s.startRequest r

/-- A unit of a stream's read-ahead is dropped, and fetched again once its port has room (R78, R368, class 9). -/
def State.refetchUnit (s : State) (sig key tag : Nat) : State :=
  let c := s.ctx sig key
  let run := tag / 2 ^ 32
  let unit := tag % 2 ^ 32
  match (c.piecesOf run)[unit]? with
  | none => s
  | some p =>
    let (s, r) := (s.setCtx sig key { c with units := Tab.erase tag c.units }).newRequest (s.pieceRequest sig key run unit p 0).resolved
    s.issueAgain r

/-- Issue the read of an index-table entry: through the spine context's translation and key (R81). -/
def State.issueIndex (s : State) (sig key : Nat) : State :=
  let g := s.sig sig
  let c := s.ctx sig key
  let va := (Block.ofVec c.block).ixaddr + BitVec.ofNat 64 (4 * c.run)
  let (fr, fc) := g.ctxFolio key
  let r : Request :=
    { id := 0, source := .index sig key c.run, vif := g.vif, va, sealVa := va, scale := false, pa := 0, key := .world, op := .read
      stage := .translate, data := 0, bad := false, die := dieOf fr fc, entered := 0, code := c.code, time := g.time }
  let (s, r) := (s.watch g.vif sig va.toNat 0).newRequest r
  s.startRequest r

/-- The next run's index is not there: it is asked for, one index at a time; a run whose index read stands faulted is passed over, since what
follows is not held back (R83). -/
def State.awaitIndex (s : State) (sig key : Nat) : State :=
  let c := s.ctx sig key
  let reads := s.requests.filter fun r => match r.source with | .index n k _ => n == sig && k == key | _ => false
  let faulted (r : Request) : Bool := match r.stage with | .faulted .. => true | _ => false
  match reads.find? fun r => r.source == .index sig key c.run with
  | some r => if faulted r then s.setCtx sig key { c with run := c.run + 1, skipped := c.skipped ++ [c.run] } else s
  | none => if reads.all faulted then s.issueIndex sig key else s

/-- Between two runs, an indexed stream turns back to a run it passed over whose index has come. -/
def Ctx.turnBack (c : Ctx) : Ctx :=
  if c.unit = 0 ∧ c.back.isNone then
    match c.skipped.find? fun k => (Tab.look c.index k).isSome with
    | some k => { c with back := some k, skipped := c.skipped.filter (· ≠ k) }
    | none => c
  else c

/-- Issue the next piece of the run in hand: of a load, when it is not too far ahead; of a store, once its bytes are there. -/
def State.issueNext (s : State) (sig key : Nat) : State :=
  let c := s.ctx sig key
  let mine := (s.requests.filter fun r => r.outstanding && match r.source with | .stream n k _ => n == sig && k == key | _ => false).length
  let ps := c.piecesOf c.current
  match ps[c.unit]? with
  | none => s
  | some p =>
    if (Block.ofVec c.block).loads then (if c.units.length + mine < 256 then s.issuePiece sig key ps p 0 else s)
    else
      match c.pieceData c.current p with
      | some data => s.issuePiece sig key ps p data
      | none => s

/-- STREAM_REQUEST_ISSUE (R83): the next request in R81's order, when the port has a free request slot; what the context is to issue again goes
first (R383). -/
def execStreamRequestIssue (sig ctx : Nat) (s : State) : Host.Outcome State Fault Refusal :=
  let c := s.ctx sig ctx
  let b := Block.ofVec c.block
  if c.kind != .stream || !s.portsIssue sig || !s.portRoom sig (ctx / 16) || s.reissues sig ctx then .next s
  else if b.indexed then
    let c := c.turnBack
    let s := s.setCtx sig ctx c
    if c.back.isNone && b.runs ≤ c.run then .next s
    else if (Tab.look c.index c.current).isNone then .next (s.awaitIndex sig ctx)
    else .next (s.issueNext sig ctx)
  else .next (if b.runs ≤ c.run then s else s.issueNext sig ctx)

/-! ### Walks, unwraps, homes, replies -/

/-- TLB_WALK_COMPLETE (R73): the walk of a request ends; a leaf fills the TLB of its die. -/
def execTlbWalkComplete (request : Nat) (s : State) : Host.Outcome State Fault Refusal :=
  match s.request request with
  | none => .next s
  | some r =>
    if r.stage != .translate then .next s
    else
      let hit := s.tlbHit r.die r.vif r.va.toNat
      match hit, s.walk r.vif r.va.toNat with
      | none, .error f => .next (s.failRequest r f r.va)
      | none, .ok l => .next ((s.fillTlb r.die r.vif r.va.toNat l).translateRequest r)
      | some _, _ => .next (s.translateRequest r)

/-- KEY_CACHE_UNWRAP (R90): the wrapped key is unwrapped; one that cannot be read fails the request (R368, class 6). -/
def execKeyCacheUnwrap (request : Nat) (s : State) : Host.Outcome State Fault Refusal :=
  match s.request request with
  | none => .next s
  | some r =>
    if r.stage != .key then .next s
    else
      match r.key, s.material r.vif r.key with
      | _, none => .next (s.retireRequest r)
      | .slot n gen epoch, some _ =>
        if (s.keySlot n).broken.contains epoch then .next (s.failRequest r ⟨0x18, 6⟩ r.va)
        else .next ((s.cacheKey (r.cacheUnit (s.portOf r.source)) n gen epoch).updateRequest { r with stage := .travel })
      | _, some _ => .next (s.updateRequest { r with stage := .travel })

/-- Whether the fork rule holds a request back: stores that the spine issued before the STRM come first (R83, R254). -/
def State.forkHeld (s : State) (r : Request) : Bool :=
  match r.source with
  | .stream sig key _ => s.forkOpen sig (s.ctx sig key).fork
  | .index sig key _ => s.forkOpen sig (s.ctx sig key).fork
  | _ => false

/-- A request that leaves its die enters the outbound queue of the first boundary switch on its route (R257); requests of one context enter in
their order (R83). -/
def State.enterSwitch (s : State) (id : Nat) : State :=
  match s.request id with
  | none => s
  | some r =>
    if r.stage != .travel || !r.remote || r.entered != 0 || s.forkHeld r || s.requests.any (fun a => a.entered == 0 && a.blocks r) then s
    else s.updateRequest { r with entered := s.requests.foldl (fun m a => max m a.entered) 0 + 1 }

/-- Bytes that a request moves: 64 at a stack of HBM, and 64 over the wadi network when its home lies on another die (R338). -/
def Request.activity (r : Request) (a : Activity) : Activity :=
  { a with
    hbm := match homeOf r.pa with | some (.stack _) => a.hbm + 64 | _ => a.hbm
    wadi := if r.remote then a.wadi + 64 else a.wadi }

/-- HOME_APPLY_REQUEST (R83, R89): requests of one context reach each home in their order. One that has entered a switch has come after every store
before its fork already (R254). -/
def execHomeApplyRequest (request : Nat) (s : State) : Host.Outcome State Fault Refusal :=
  match s.request request with
  | none => .next s
  | some r =>
    if r.stage != .travel || (r.entered == 0 && s.forkHeld r) || s.requests.any (fun a => a.blocks r) then .next s
    else .next ((s.applyRequest r).spend r.vif r.activity)

/-- REQUEST_REPLY (R89). -/
def execRequestReply (request : Nat) (s : State) : Host.Outcome State Fault Refusal :=
  match s.request request with
  | none => .next s
  | some r => .next (if r.stage == .reply then s.deliverReply r else s)

/-! ### Fills and egress -/

/-- FILL_HALF_LANDS (R60, R82, R87): one half of a context lands, or a granule whose request was retired is passed over; which place comes
first is open. A sweep holds halves back (R374). -/
def execFillHalfLands (sig ctx : Nat) (s : State) : Host.Outcome State Fault Refusal :=
  let g := s.sig sig
  let c := s.ctx sig ctx
  let sweeping := match (s.spineOf sig).phase with | .seam _ (_ + 1) => true | _ => false
  if c.kind != .stream || !(Block.ofVec c.block).loads || !(g.status == .running || g.status == .draining) || g.cutOff || sweeping then .next s
  else
    let open_ := c.lanes.filter fun l => c.nextReady l && (s.landHalf sig ctx l).isSome
    match open_[Config.choice s.free % open_.length]? with
    | none => .next s
    | some l => .next ({ s with free := s.free + 1 }.landHalf sig ctx l |>.getD s)

/-- DEFERRED_VOID (R60, R371): a discard that waits voids its buffer once that is EMPTY. (log 50, DEDUCED) -/
def execDeferredVoid (sig ctx : Nat) (s : State) : Host.Outcome State Fault Refusal :=
  .next ((s.ctx sig ctx).voids.foldl (fun s lane =>
    match s.voidPlace sig ctx lane with
    | some s =>
      let c := s.ctx sig ctx
      s.setCtx sig ctx { c with voids := c.voids.filter (· ≠ lane) }
    | none => s) s)

/-- A granule of a DRAINING buffer as egress reads it: its bytes, and the fault that its reading raises (R62, R369, R373). -/
def Element.egressRead (e : Element) (gen : Gen) (trap : Bool) (g : Nat) : Vec × Element × Option (Nat × Nat) :=
  let r := e.pad.get (Tagged.zero 512) g
  if r.gen = gen then (if r.poison then (0, e, some (0x18, 2)) else (r.data, e, none))
  else if trap then (0, e, some (0x10, r.gen.toNat + gen.toNat * 2 ^ 16))
  else (0, e.count 8 1, none)

/-- The next granule of a buffer leaves the egress queue; the last one leaves the buffer EMPTY, if its descriptor is still the one that was queued
(R60, R242). -/
def Element.pastGranule (e : Element) (gen : Gen) (x : Egress) (rest : List Egress) (d : Drain) : Element :=
  let r := e.b.get (Tagged.zero 64) d.b
  if d.next + 1 < d.cnt then { e with egress := { x with entry := .buffer { d with next := d.next + 1 } } :: rest }
  else { (if r.gen = gen ∧ d.gen = gen then e.updateBuffer gen d.b { BufferDesc.ofWord r.data with st := 0, fcnt := 0 } else e) with egress := rest }

/-- The head of an element's egress queue as the port takes it, after its bytes; or the fault that its reading raises, and then it waits.
(log 14, DEDUCED) -/
def Element.takeEgress (e : Element) (gen : Gen) (trap : Bool) (x : Egress) (rest : List Egress) : Element × Vec × Option (Nat × Nat) :=
  match x.entry with
  | .vector v => ({ e with egress := rest }, v, none)
  | .stopped d => (e.pastGranule gen x rest d, 0, none)
  | .buffer d =>
    match e.egressRead gen trap (d.base + d.next) with
    | (v, e, none) => (e.pastGranule gen x rest d, v, none)
    | (_, e, some f) => ({ e with egress := { x with entry := .stopped d } :: rest }, 0, some f)

/-- EGRESS_GRANULE_TAKEN (R82, R87, R242, R352, R373): the port takes a granule, whose two halves its row bus carries in this cycle and the next,
of the four halves that the folio's buses carry to the port in a cycle; one that cannot be read raises its fault in its element, with
SLOT 3, and is taken with its bytes read as zero once the stop has been answered with RESUME. -/
def execEgressGranuleTaken (sig row col : Nat) (s : State) : Host.Outcome State Fault Refusal :=
  let g := s.sig sig
  let e := s.elementOf sig row col
  match e.egress with
  | [] => .next s
  | x :: rest =>
    let key := ctxKey g.wd (row / 16) (col / 16) x.handle
    let c := s.ctx sig key
    let b := Block.ofVec c.block
    let waits := match x.entry with | .stopped _ => g.stop.isSome | _ => false
    let (_, egress, inRow) := s.busHalves sig key row
    match b.placeOf (row % 16) (col % 16) with
    | none => .next s
    | some p =>
      if c.kind != .stream || b.loads || g.cutOff || !(g.status == .running || g.status == .draining) || waits || 1 ≤ inRow || 4 ≤ egress then
        .next s
      else
        match e.takeEgress (s.folioOf sig row col).gen g.gmode x rest with
        | (e, v, none) =>
          let n := c.taken.get 0 p
          let s := s.setElementOf sig row col { e.count 7 1 with bus := 2 }
          .next (s.setCtx sig key { c with taken := c.taken.set 0 p (n + 1), out := c.out.put (n * b.places + p) v })
        | (e, _, some (code, aux)) =>
          let addr := match x.entry with
            | .buffer d => 64 * (d.base + d.next)
            | _ => 0
          .next ((s.setElementOf sig row col e).takeElementFault sig
            { code, aux := BitVec.ofNat 64 aux, addr := BitVec.ofNat 64 addr, slot := 3, offset := 0, row, col, time := g.time, more := 0, seen := s.ns })

/-! ### Completion (R84) -/

/-- Whether everything of a stream is done. -/
def State.streamDone (s : State) (sig key : Nat) : Bool :=
  let c := s.ctx sig key
  let b := Block.ofVec c.block
  c.kind == .stream && b.runs ≤ c.run && c.backRun.isNone && (!b.indexed || c.skipped.isEmpty) && c.voids.isEmpty
    && !(s.requests.any fun r => match r.source with | .stream n k _ => n == sig && k == key | .index n k _ => n == sig && k == key | _ => false)
    && (!b.loads || c.lanes.all fun l => 2 * c.laneTotal l ≤ c.landed.get 0 l)

/-- The elements of a context's window forget that it voided a buffer of theirs. -/
def State.disown (s : State) (sig key : Nat) : State :=
  let g := s.sig sig
  let c := s.ctx sig key
  c.lanes.foldl (fun s lane =>
    let (r, cc) := c.elementAt g.wd key lane
    let e := s.elementOf sig r cc
    let owner := e.owner.filter fun x => x.2 ≠ key + 1
    s.setElementOf sig r cc { e with owner }) s

/-- The CDONE add of a context's operation, made by its port; a failed one names the handle. -/
def State.contextDone (s : State) (sig key : Nat) (cdone : Word) : State :=
  let g := s.sig sig
  let s :=
    if cdone = 0 then s
    else
      match s.addOne g.vif cdone with
      | .ok s => s
      | .error _ =>
        s.report g.vif { FaultInfo.report 0x1C 2 0 cdone.toNat with
          sig, slot := 3, offset := (s.ctx sig key).code.toNat, time := g.time, handle := key % 16, ctxGen := (s.ctx sig key).gen.toNat }
  s.setCtx sig key Ctx.free

/-- STREAM_COMPLETE (R84). -/
def execStreamComplete (sig ctx : Nat) (s : State) : Host.Outcome State Fault Refusal :=
  let placed := (s.sig sig).status == .running || (s.sig sig).status == .draining
  if placed && !(s.sig sig).cutOff && s.streamDone sig ctx && !s.forkOpen sig (s.ctx sig ctx).fork then
    .next ((s.disown sig ctx).contextDone sig ctx (Block.ofVec (s.ctx sig ctx).block).cdone)
  else .next s

/-- READ_AHEAD_EXPIRY (R86): entries fetched 4,096 cycles ago are dropped. -/
def execReadAheadExpiry (sig : Nat) (s : State) : Host.Outcome State Fault Refusal :=
  let p := s.spineOf sig
  .next (s.setSpineOf sig { p with readAhead := p.readAhead.filter fun e => s.cycle < e.fetched + 4096 })

/-! ### Invalidation of the edge TLB (R73) -/

/-- Whether a request was translated by an entry and is still outstanding. -/
def Request.usesEntry (r : Request) (e : TlbEntry) : Bool :=
  e.covers r.die r.vif r.va.toNat && (match r.stage with | .key => true | .travel => true | .reply => true | _ => false)

/-- Remove the entries that a test names; the invalidation is in progress until the requests they translated have completed. (log 47, DEDUCED) -/
def State.invalidate (s : State) (test : TlbEntry → Bool) : State :=
  let gone := s.tlb.filter test
  let waiting := (s.requests.filter fun r => gone.any fun e => r.usesEntry e).map (·.id)
  { s with tlb := s.tlb.filter fun e => !test e, tlbinv := some (s.tlbinv.getD [] ++ waiting) }

/-- Whether an entry's page overlaps the 64 KiB page at an address. -/
def TlbEntry.overlaps (e : TlbEntry) (addr : Nat) : Bool := addr % 2 ^ 56 / 2 ^ 16 / 2 ^ e.span == e.page / 2 ^ e.span

/-- TLBINV_ALL (R73). -/
def execTlbinvAll (s : State) : Host.Outcome State Fault Refusal := .next (s.invalidate fun _ => true)

/-- TLBINV_INTERFACE (R73). -/
def execTlbinvInterface (vif : Nat) (s : State) : Host.Outcome State Fault Refusal := .next (s.invalidate fun e => e.vif == vif)

/-- TLBINV_PAGE (R73). -/
def execTlbinvPage (vif addr : Nat) (s : State) : Host.Outcome State Fault Refusal :=
  .next (s.invalidate fun e => e.vif == vif && e.overlaps addr)

/-- TLBINV_PAGE_ALL (R73). -/
def execTlbinvPageAll (addr : Nat) (s : State) : Host.Outcome State Fault Refusal := .next (s.invalidate fun e => e.overlaps addr)

/-- TLBINV_COMPLETE (R73): once no request that an invalidated entry translated is outstanding. -/
def execTlbinvComplete (s : State) : Host.Outcome State Fault Refusal :=
  match s.tlbinv with
  | none => .next s
  | some ids =>
    let left := ids.filter fun i => (s.request i).any fun r => match r.stage with | .faulted .. => false | _ => true
    .next { s with tlbinv := if left.isEmpty then none else some left }

end Sys2Proof.Machine
end

