-- ==== Sys2Proof/Machine/Copies.lean ====
section
/-!
DEFINITION. Copies: CPY (R178) and the host link's DMA port with its data images (R305).
-/

namespace Sys2Proof.Machine

/-! ### One unit of a copy -/

/-- How an access of a copy fails: a check of R364, or a key slot that has ended (R376). -/
inductive CopyFault where
  | check (f : CheckFault)
  | retired (aux : Nat)
  deriving DecidableEq, Repr

/-- The key of a copy's side: missing after SEQEND or the end of a world key, or unreadable (R95, R368, R377). -/
def State.copyKey (s : State) (vif : Nat) (w : Word) : Except CopyFault Material :=
  let (slot, gen, kw) := keyFields w
  match s.material vif (s.keyUse slot gen kw) with
  | none => .error (if kw then .check ⟨0x0A, 2 ^ 32⟩ else .retired (keyAux slot gen kw))
  | some k =>
    if !kw && slot ≠ 0 && (s.keySlot slot).broken.contains (s.keySlot slot).epoch then .error (.check ⟨0x18, 6⟩) else .ok k

/-- The checks of one side of a unit: translation, key, domain; a page walked fills the TLB. -/
def State.copyAccess (s : State) (die vif : Nat) (va key : Word) (need : List Need) : Except CopyFault (State × Nat × Material) :=
  match s.translatePages (some die) vif va need with
  | .error f => .error (.check f)
  | .ok pa =>
    match s.copyKey vif key with
    | .error f => .error f
    | .ok k =>
      if belowDomain k (va.toNat / 64) then
        let (slot, gen, kw) := keyFields key
        .error (.check ⟨0x0C, keyAux slot gen kw⟩)
      else
        let s :=
          match s.tlbHit die vif va.toNat, s.walk vif va.toNat with
          | none, .ok l => s.fillTlb die vif va.toNat l
          | _, _ => s
        .ok (s, pa, k)

/-- Read a unit, opened under its key. -/
def State.copyRead (s : State) (die vif : Nat) (va key : Word) : Except CopyFault (State × Vec) :=
  match s.copyAccess die vif va key [.rd] with
  | .error f => .error f
  | .ok (s, pa, k) => if s.poisonedUnits.contains (pa / 64) then .error (.check ⟨0x18, 3⟩) else .ok (s, s.getUnit k pa (va.toNat / 64))

/-- Write a unit, sealed under its key: the state after it, and its physical address. -/
def State.copyWriteAt (s : State) (die vif : Nat) (va key : Word) (data : Vec) : Except CopyFault (State × Nat) :=
  match s.copyAccess die vif va key [.wr] with
  | .error f => .error f
  | .ok (s, pa, k) => .ok (s.putUnit k pa (va.toNat / 64) data (-1), pa)

def State.copyWrite (s : State) (die vif : Nat) (va key : Word) (data : Vec) : Except CopyFault State :=
  (s.copyWriteAt die vif va key data).map (·.1)

/-- The address of unit i of a side: word 0 is the source, word 1 the destination. -/
def copyVa (block : Vec) (side i : Nat) : Word := blockWord block side + BitVec.ofNat 64 (64 * i)

/-- Units of a copy. -/
def copyUnits (block : Vec) : Nat := (blockWord block 2).toNat / 64

/-! ### CPY (R178) -/

/-- A unit of a CPY fails a check: its context holds. -/
def State.copyHeld (s : State) (sig key : Nat) (f : CheckFault) (va : Word) : State :=
  let g := s.sig sig
  match s.takeHold g.vif sig key f.code f.aux va (s.ctx sig key).gen.toNat g.time with
  | (s, some k) => s.setCtx sig key { s.ctx sig key with hold := some k }
  | (s, none) => s.endByFault sig

/-- Read the next unit of a CPY: what it read waits to be written. -/
def State.cpyRead (s : State) (sig key : Nat) : State :=
  let g := s.sig sig
  let c := s.ctx sig key
  let (row, col) := g.ctxFolio (16 * c.port)
  let va := copyVa c.block 0 c.run
  let s := (s.watch g.vif sig va.toNat 0).count sig 5 1
  match s.copyRead (dieOf row col) g.vif va (blockWord c.block 4) with
  | .ok (s, v) => s.setCtx sig key { s.ctx sig key with run := c.run + 1, units := c.units.put c.run v }
  | .error (.check f) => s.copyHeld sig key f va
  | .error (.retired aux) => (s.setCtx sig key { s.ctx sig key with run := c.run + 1 }).portReport sig key 0x0E aux aux va.toNat g.time

/-- Write the next unit of a CPY; a unit that was discarded is passed over. -/
def State.cpyWrite (s : State) (sig key : Nat) : State :=
  let g := s.sig sig
  let c := s.ctx sig key
  let (row, col) := g.ctxFolio (16 * c.port)
  let va := copyVa c.block 1 c.unit
  let step (s : State) : State := s.setCtx sig key { s.ctx sig key with unit := c.unit + 1, units := Tab.erase c.unit c.units }
  match Tab.look c.units c.unit with
  | none => step s
  | some v =>
    let s := (s.watch g.vif sig va.toNat 1).count sig 5 1
    match s.copyWrite (dieOf row col) g.vif va (blockWord c.block 5) v with
    | .ok s => step s
    | .error (.check f) => s.copyHeld sig key f va
    | .error (.retired aux) => (step s).portReport sig key 0x0E aux aux va.toNat g.time

/-- Whether a copy reads next: units are written in the order they were read, at most 256 units later. -/
def State.readsNext (s : State) (read written total : Nat) : Bool :=
  read < total && (read = written || (read < written + 256 && Config.choice s.free % 2 = 0))

/-- One step of a CPY, with a free request slot of its port (R78); earlier stores of the spine come first (R254). -/
def State.cpyStep (s : State) (sig key : Nat) : State :=
  let c := s.ctx sig key
  let total := copyUnits c.block
  if c.kind != .copy || !s.portsIssue sig || c.hold.isSome || s.forkOpen sig c.fork || !s.portRoom sig c.port then s
  else if c.unit = total then s.contextDone sig key (blockWord c.block 3)
  else if s.readsNext c.run c.unit total then { s with free := s.free + 1 }.cpyRead sig key
  else { s with free := s.free + 1 }.cpyWrite sig key

/-! ### The DMA port (R305) -/

/-- Interfaces of a DMA block: those that SVIF and DVIF name under XV, otherwise the window's. (log 48, DEDUCED) -/
def dmaSides (vif : Nat) (block : Vec) : Nat × Nat :=
  let w := blockWord block 6
  if w.getLsbD 15 then ((w.extractLsb' 0 6).toNat, (w.extractLsb' 8 6).toNat) else (vif, vif)

/-- A data-image copy. -/
def dmaImage (block : Vec) : Bool := (blockWord block 6).getLsbD 14

/-- Why a DMA copy is refused: the offset of a field, or 0x40 for a full queue. (log 72, DEDUCED) -/
def State.dmaRefused (s : State) (priv : Bool) (vif : Nat) (block : Vec) : Option Nat :=
  let (sv, dv) := dmaSides vif block
  let valid (v : Nat) (w : Word) : Bool := let (slot, gen, kw) := keyFields w; s.keyValid v slot gen kw
  match copyRefused block (if priv then 0xFF3F else 0) with
  | some offset => some offset
  | none =>
    if dmaImage block && blockWord block 4 ≠ 0 then some 0x20
    else if !dmaImage block && !valid sv (blockWord block 4) then some 0x20
    else if !valid dv (blockWord block 5) then some 0x28
    else if 256 ≤ (s.dma.filter fun d => d.vif == vif && !d.running).length then some 0x40
    else none

/-- A copy enters the queue of its interface, or is refused. -/
def State.queueDma (s : State) (priv : Bool) (vif : Nat) (block : Vec) : State :=
  match s.dmaRefused priv vif block with
  | some offset => s.report vif (FaultInfo.report 0x23 4 offset 0)
  | none =>
    { s with dma := s.dma ++ [{ id := s.nextDma, vif, block, running := false, units := [], read := 0, written := 0, hold := none, reports := [] }]
             nextDma := s.nextDma + 1 }

/-- DMA_WINDOW_WRITE (R305). -/
def execDmaWindowWrite (priv : Bool) (vif offset size : Nat) (block : Vec) (s : State) : Host.Outcome State Fault Refusal :=
  .next (if !s.serving then s
    else if size = 64 && offset % 64 = 0 then s.queueDma priv vif block
    else s.report vif (FaultInfo.report 0x21 4 offset 0))

/-- DATA_IMAGE_COPY (R305): a privileged write with DI = 1. -/
def execDataImageCopy (vif : Nat) (block : Vec) (s : State) : Host.Outcome State Fault Refusal :=
  .next (if s.serving then s.queueDma true vif (block ||| (BitVec.ofNat 512 (2 ^ (384 + 14)))) else s)

/-- DMA_COPY_START (R305): in arrival order, at most 8 at once; none during a debug stop (R322). -/
def execDmaCopyStart (s : State) : Host.Outcome State Fault Refusal :=
  if s.debugger.stopped || 8 ≤ (s.dma.filter (·.running)).length then .next s
  else
    match s.dma.find? fun d => !d.running with
    | none => .next s
    | some d => .next { s with dma := s.dma.map fun x => if x.id = d.id then { x with running := true } else x }

def State.setDma (s : State) (d : DmaCopy) : State := { s with dma := s.dma.map fun x => if x.id = d.id then d else x }
def State.dropDma (s : State) (id : Nat) : State := { s with dma := s.dma.filter (·.id ≠ id) }

/-- The plaintext unit that a data-image copy reads: a host physical address. -/
def State.imageRead (s : State) (addr : Word) : Except CheckFault Vec :=
  match s.checkPhysical (2 ^ 50 + addr.toNat) with
  | .error f => .error f
  | .ok pa => if s.poisonedUnits.contains (pa / 64) then .error ⟨0x18, 3⟩ else .ok (s.memory.unit (pa / 64))

/-- The range entry of an interface that covers an address, the lowest one. (log 48, DEDUCED) -/
def State.coveringRange (s : State) (vif : Nat) (va : Word) : Option Range :=
  ((List.range 65536).map fun i => Range.ofVec (s.rangeVec vif i)).find? fun r => !r.bad && r.vbase.toNat ≤ va.toNat && va.toNat < r.vlim.toNat

/-- The destination of a data image: linear where a range covers it, otherwise through the page tables; no permission is checked. -/
def State.imageWrite (s : State) (vif : Nat) (va key : Word) (data : Vec) : Except CopyFault (State × Nat) :=
  let pa : Except CheckFault Nat :=
    match s.rangeThere vif, s.coveringRange vif va with
    | .error f, _ => .error f
    | _, some r => s.checkPhysical (r.linear va)
    | _, none => s.translatePages (some 0) vif va []
  match pa, s.copyKey vif key with
  | .error f, _ => .error (.check f)
  | _, .error f => .error f
  | .ok pa, .ok k =>
    if belowDomain k (va.toNat / 64) then
      let (slot, gen, kw) := keyFields key
      .error (.check ⟨0x0C, keyAux slot gen kw⟩)
    else .ok (s.putUnit k pa (va.toNat / 64) data (-1), pa)

/-- A discarded unit of a DMA copy is reported: one record for each ended slot, which further discards join (R376). -/
def State.dmaReport (s : State) (d : DmaCopy) (aux : Nat) (va : Word) : State :=
  match d.reports.find? (·.1 = aux) with
  | some (_, k) => (s.setDma d).joinFault d.vif k
  | none =>
    let (s, k) := s.recordFault d.vif { FaultInfo.report 0x0E 2 aux va.toNat with slot := 3 }
    s.setDma { d with reports := d.reports ++ [(aux, k.getD 0)] }

/-- An access of a DMA copy fails: it holds with a record, or ends without its CDONE when none is written (R347); a retired unit is passed
over and reported (R376). -/
def State.dmaFault (s : State) (d : DmaCopy) (f : CopyFault) (va : Word) (passed : DmaCopy) : State :=
  match f with
  | .check f =>
    match s.takeHold d.vif 0 d.id f.code f.aux va 0 0 with
    | (s, some k) => s.setDma { d with hold := some k }
    | (s, none) => s.dropDma d.id
  | .retired aux => s.dmaReport passed aux va

/-- Read the next unit of a DMA copy. -/
def State.dmaRead (s : State) (d : DmaCopy) : State :=
  let va := copyVa d.block 0 d.read
  let (sv, _) := dmaSides d.vif d.block
  let s := if dmaImage d.block then s else s.watchDma sv va.toNat 0
  let read : Except CopyFault (State × Vec) :=
    if dmaImage d.block then (match s.imageRead va with | .ok v => .ok (s, v) | .error f => .error (.check f))
    else s.copyRead 0 sv va (blockWord d.block 4)
  match read with
  | .ok (s, v) => s.setDma { d with read := d.read + 1, units := d.units ++ [v] }
  | .error f =>
    -- a retired source unit leaves its destination as it is: both are passed over once the earlier units are written
    if d.units.isEmpty then s.dmaFault d f va { d with read := d.read + 1, written := d.written + 1 } else s

/-- Write the next unit of a DMA copy. -/
def State.dmaWrite (s : State) (d : DmaCopy) : State :=
  let va := copyVa d.block 1 d.written
  let (_, dv) := dmaSides d.vif d.block
  let v := d.units.getD 0 0
  let s := s.watchDma dv va.toNat 1
  let written := { d with written := d.written + 1, units := d.units.drop 1 }
  match if dmaImage d.block then s.imageWrite dv va (blockWord d.block 5) v else s.copyWriteAt 0 dv va (blockWord d.block 5) v with
  | .ok (s, pa) => (s.rewriteRanges pa 64).setDma written
  | .error f => s.dmaFault d f va written

/-- One step of a DMA copy; the port issues nothing during a debug stop (R322). -/
def State.dmaStep (s : State) (id : Nat) : State :=
  match s.dma.find? (·.id = id) with
  | none => s
  | some d =>
    let total := copyUnits d.block
    if !d.running || d.hold.isSome then s
    else if d.written = total then (s.dropDma id).completionAdd d.vif 4 0 (blockWord d.block 3)
    else if s.debugger.stopped then s
    else if s.readsNext d.read d.written total then { s with free := s.free + 1 }.dmaRead d
    else if d.units.isEmpty then s
    else { s with free := s.free + 1 }.dmaWrite d

/-- CPY_UNIT_TRANSFER (R178, R305): a unit is read under the source key, or one that has been read is written under the destination key; after
the last, the copy completes (R84). -/
def execCpyUnitTransfer (copy : CopyRef) (s : State) : Host.Outcome State Fault Refusal :=
  .next (match copy with
    | .spineCopy sig ctx => s.cpyStep sig ctx
    | .dmaCopy id => s.dmaStep id)

end Sys2Proof.Machine
end

