-- ==== Sys2Proof/Machine/Bindery.lean ====
section
/-!
DEFINITION. The bindery's events: records and their waiting (R28, R32 to R34), the bindery step (R33 to R36), images (R41 to R43, R66), wrap
sweeps (R65), the end of launches (R37, R38, R355), plane loads (R45, R386), and power gating (R339).
-/

namespace Sys2Proof.Machine

/-! ### Records in their queues -/

/-- LAUNCH_WINDOW_WRITE (R28): one write of exactly 64 bytes to a slot; any other is discarded and recorded. -/
def execLaunchWindowWrite (vif offset size : Nat) (record : Vec) (s : State) : Host.Outcome State Fault Refusal :=
  .next (if !s.serving then s
    else if size = 64 && offset % 64 = 0 then s.enqueue vif record
    else s.report vif (FaultInfo.report 0x21 4 offset 0))

/-- CWAIT_POLL (R32). -/
def execCwaitPoll (vif : Nat) (s : State) : Host.Outcome State Fault Refusal := .next (s.pollCwait vif)

/-- PRIORITY_AGING (R33): PRI and one for every full 2^24 cycles of waiting, up to 7. -/
def execPriorityAging (vif : Nat) (s : State) : Host.Outcome State Fault Refusal :=
  let f := s.iface vif
  .next (s.setIface vif { f with
    queue := f.queue.map fun q => { q with prio := min 7 (recordPri q.record + q.waited s.cycle / 2 ^ 24) } })

/-- CANDIDATE_BECOMES_BLOCKING (R34): the count runs from the cycle in which the record became its interface's candidate. -/
def execCandidateBecomesBlocking (vif : Nat) (s : State) : Host.Outcome State Fault Refusal :=
  let s := s.markCandidate vif
  match s.candidate vif with
  | none => .next s
  | some q =>
    let old := match q.candidateSince with | some c => c + 2 ^ 24 ≤ s.cycle | none => false
    if old && (s.placeGroup vif q).isNone then
      let f := s.iface vif
      .next (s.setIface vif { f with queue := f.queue.map fun x => if x = q then { x with blocking := true } else x })
    else .next s

/-! ### The bindery step (R33 to R35) -/

/-- The visit to one interface: its candidate is placed, or service moves on. -/
def State.serveVisit (s : State) : State :=
  let v := s.visit
  let s := s.pollCwait v
  let onward (s : State) : State := { s with visit := (v + 1) % 64, visitPlaced := 0 }
  match s.candidate v with
  | none => onward s
  | some q =>
    match s.placeGroup v q with
    | none => onward s
    | some s =>
      if (s.iface v).policy.weight ≤ s.visitPlaced + 1 then onward s else { s with visitPlaced := s.visitPlaced + 1 }

/-- The compactions that can be proposed now: a running signature, where its interface permits PARTs of the engine, and a corner before its own. -/
def State.compactions (s : State) : List (Nat × Vec) :=
  (s.sigs.filter fun x => x.2.status == .running && (s.iface x.2.vif).jctl.getLsbD 0).flatMap fun (n, g) =>
    let (pr, pc, _, _) := (s.iface g.vif).policy.partition
    let object := objectWord 0 g.vif n 0
    let part (k : Nat) : Vec := blockOfWords [1, n, pairWord (k / 24 - pr) (k % 24 - pc), pairWord g.ht g.wd]
    let fits (k : Nat) : Bool :=
      let v := part k
      let t := s.newTx g.vif 0 0 0 object v 0 0 0
      s.inPartition g.vif (k / 24) (k % 24) g.ht g.wd && s.partValid g.vif object v && s.targetFree t n t.target
    ((List.range (g.row0 * 24 + g.col0)).filter fits).map fun k => (n, part k)

/-- While a record blocks, the bindery proposes a compaction (R34), one at a time; which one is open. (log 81, DESIGN CHOICE) -/
def State.proposeCompaction (s : State) : State :=
  let open_ := s.journal.txs.any fun t => t.cls == 0 && !t.rv && t.state.open_ && t.src == 0 && partOp t.afterBytes == 1
  let cs := if open_ then [] else s.compactions
  match cs[Config.choice s.free % max 1 cs.length]? with
  | none => s
  | some (n, v) =>
    let vif := (s.sig n).vif
    let s : State := { s with free := s.free + 1 }
    match s.propose vif 0 0 0 (objectWord 0 vif n 0) v 0 0 0 with
    | some (s, _) => s
    | none => s

/-- A blocking record is placed once it fits; until then signatures of lower effective priority are pre-empted, the next once the one before has been
saved, and a compaction is proposed. -/
def State.serveBlocking (s : State) (vif : Nat) (q : Queued) : State :=
  match s.placeGroup vif q with
  | some s => s
  | none =>
    let s := s.proposeCompaction
    if s.sigs.any fun x => (x.2.status == .running || x.2.status == .draining) && x.2.waves.any (·.cause = .preempt) then s
    else
      match s.victim (s.groupPrio vif q) with
      | some n => s.preempt n
      | none => s

/-- Whether a pre-empted gang is saved in part: what it makes room for is placed before any other record (R404). -/
def State.partlySaved (s : State) : Bool :=
  s.sigs.any fun x => x.2.status == .saved && x.2.waves.any (·.cause = .preempt) && s.gangLeaving x.1

/-- BINDERY_STEP (R33 to R36). In a debug stop only restores go on (R395). -/
def execBinderyStep (s : State) : Host.Outcome State Fault Refusal :=
  if !s.binderyRuns then .next s.startAll
  else
    let s := s.markCandidates.startAll
    .next (if s.partlySaved then s
      else
        match s.blockingRecord with
        | some (v, q) => s.serveBlocking v q
        | none => s.serveVisit)

/-! ### Images (R41 to R43, R66, R281) -/

/-- Whether a wave of a cause is in force. -/
def Sig.struckBy (g : Sig) (c : WaveCause) : Bool := g.waves.any fun w => w.inForce && w.cause == c

/-- The image store's room for a save that is not to be made is given back. -/
def State.dropReserve (s : State) (sig : Nat) : State :=
  let g := s.sig sig
  let s := { s with platform := { s.platform with store := s.platform.store - g.reservedStore } }
  s.setSig sig { g with reservedStore := 0 }

/-- A pre-emption that strikes at the seam of a move: one freeze wave serves both (R297). An undo there whose before-descriptor cannot be read has
failed (R388). -/
def State.joinMove (s : State) (sig : Nat) : State :=
  if !s.atSeamWord sig then s
  else
    match s.undoDue sig with
    | some t => if s.beforeReadable t then s.joinWave sig none else s.undoLost t
    | none => s.joinWave sig (s.awaitingMove sig)

/-- As a signature that is to move is saved, its PART takes its before-descriptor and what it vacates; without the descriptor, or when a plane
of its target has met an error, it is aborted (R386, R387). -/
def State.noteMove (s : State) (sig : Nat) : State :=
  match s.pendingMove sig with
  | some (t, _, undo) =>
    if t.broken then s.moveLost t undo
    else if undo then s
    else
    let bytes := s.beforeOf t
    match s.writeDescriptor t.vif bytes with
    | none => s.abort t.num 10
    | some (s, d) => s.updateTx t.num fun t => { t with before := d, beforeBytes := bytes, vacated := folioNumbers (s.sig sig).folios }
  | none => s

/-- A signature whose move has failed once it was saved is restored where it stood, as if it had never left (R386, R387); if its folios are taken, it
waits for a placement. -/
def State.returnMoved (s : State) (sig : Nat) : State :=
  let g := s.sig sig
  if (rectangle g.savedAt.1 g.savedAt.2 g.ht g.wd).all fun rc => (s.folio rc.1 rc.2).placed == 0 then
    s.restoreAt sig true g.savedAt g.prio g.waited
  else s.requeue sig

/-- A saved signature goes to the target of its move; if that is not free, the move fails. -/
def State.placeMoved (s : State) (sig : Nat) : State :=
  match s.pendingMove sig with
  | none => s.requeue sig
  | some (t, folios, undo) =>
    if t.broken then (s.moveLost t undo).returnMoved sig
    else if s.targetFree t sig folios && folios.all (fun k => (s.folio (k / 24) (k % 24)).placed == 0) then
      s.restoreAt sig true (cornerOf folios) (s.sig sig).prio (s.sig sig).waited
    else if undo then (s.undoLost t).returnMoved sig
    else (s.abort t.num 10).returnMoved sig

/-- The record that saved signatures made room for is placed before any other: a blocking one if there is one (R34), else the one that a YIELD gave
way to (R404). -/
def State.yieldPlace (s : State) (ms : List Nat) : State :=
  match s.blockingRecord.or (s.causeRecord ms) with
  | some (v, q) => (s.placeGroup v q).getD s
  | none => s

/-- A pre-empted signature has been saved: with the last of its gang the record that caused the pre-emption is placed, and then the gang returns
to its queue. -/
def State.afterPreempt (s : State) (sig : Nat) : State :=
  if s.gangLeaving sig then s else (s.yieldPlace (s.gangOf sig)).returnGang (s.gangOf sig)

/-- IMAGE_SAVE (R41, R42): once no request of a struck signature is on its way. -/
def execImageSave (sig : Nat) (s : State) : Host.Outcome State Fault Refusal :=
  let g := s.sig sig
  let preempted := g.struckBy .preempt
  if !s.binderyRuns || !(preempted || g.struckBy .move) || !(g.status == .running || g.status == .draining) || s.requestsGo sig
      || s.releaseOpen sig then .next s
  else
    let s := (if preempted then s.joinMove sig else s).noteMove sig
    if preempted then .next ((s.saveImage sig).afterPreempt sig)
    else if (s.pendingMove sig).isNone then .next ((s.liftWave sig .move).dropReserve sig)
    else .next ((s.saveImage sig).placeMoved sig)

/-- IMAGE_RESTORE (R42, R43, R66): once every plane is loaded, and the stores that it comes after are performed (R255), the image is written and the signature resumes. A debug stop lets a restore
that has begun complete (R395). -/
def execImageRestore (sig row col : Nat) (s : State) : Host.Outcome State Fault Refusal :=
  let g := s.sig sig
  if g.status != .starting || g.image.isEmpty || g.byFault || g.row0 != row || g.col0 != col || !s.serving || s.platform.moving
      || !s.gangReady sig || 0 < g.sweep || s.acquiredGo sig then
    .next s
  else if s.wraps sig then .next (s.setSig sig { g with sweep := 1600 })
  else
    .next (match s.pendingMove sig with
      | some (t, folios, undo) => if cornerOf folios = (row, col) then (s.writeImage sig).moved t.num undo else s.writeImage sig
      | none => s.writeImage sig)

/-! ### Sweeps (R65) -/

/-- WRAP_SWEEP (R65): one of the 1,600 cycles, at a seam or before a placement's advance. -/
def execWrapSweep (sig : Nat) (s : State) : Host.Outcome State Fault Refusal :=
  let g := s.sig sig
  if g.status == .starting then
    if g.sweep = 0 then .next s
    else
      let s := s.setSig sig { g with sweep := g.sweep - 1 }
      .next (if g.sweep = 1 then (s.sweepFolios sig).tryStart sig else s)
  else if s.runs sig then .next (s.sweepSeam sig)
  else .next s

/-! ### The end of a launch -/

/-- Whether a context of some kinds is busy. -/
def Sig.busyWith (g : Sig) (kinds : List CtxKind) : Bool := g.ctxs.any fun x => kinds.contains x.2.kind

/-- LAUNCH_COMPLETE (R37): the words are executed, and every engine operation and store is done. The result of a VOTE that is still due is not
waited for, and never reaches vt (R223; log 90, DESIGN CHOICE). -/
def execLaunchComplete (sig : Nat) (s : State) : Host.Outcome State Fault Refusal :=
  let g := s.sig sig
  if g.status == .draining && g.ending && !g.byFault && !g.frozen && g.stop.isNone && s.wordsDone sig && s.landed sig && !s.debugger.stopped
      && !g.busyWith [.stream, .copy, .coll, .cfgld] && (s.earlierStores sig).isEmpty then
    .next (s.endLaunch sig (recordWord g.record 5))
  else .next s

/-- Whether nothing of a launch that ends by fault is still to come (R355): of one on the fabric its words and their results, its requests, its
steps and its configuration loads; of a saved one its steps. -/
def State.faultDrained (s : State) (sig : Nat) : Bool :=
  let g := s.sig sig
  if g.status = .draining then s.wordsDone sig && (g.frozen || s.landed sig) && !s.requestsGo sig && !g.busyWith [.coll, .cfgld]
  else g.status == .saved && !g.busyWith [.coll]

/-- LAUNCH_END_BY_FAULT (R355). -/
def execLaunchEndByFault (sig : Nat) (s : State) : Host.Outcome State Fault Refusal :=
  if (s.sig sig).byFault && s.faultDrained sig && !s.debugger.stopped then
    .next ((s.flushNotes sig).endLaunch sig 0x8000000000000000)
  else .next s

/-- INTERRUPT_WINDOW_EXPIRY (R38). -/
def execInterruptWindowExpiry (vif : Nat) (s : State) : Host.Outcome State Fault Refusal :=
  let f := s.iface vif
  match f.irqEnds with
  | none => .next s
  | some t =>
    if s.ns < t then .next s
    else .next ((s.setIface vif { f with irqCount := 0, irqEnds := none }).interrupt vif f.irqCount false)

/-! ### Plane loads (R45, R187, R386) -/

/-- What waits for the end of a load in a folio goes on: configuration loads, and a placement. -/
def State.loadEnded (s : State) (row col : Nat) : State :=
  let p := (s.folio row col).placed
  if p = 0 then s
  else
    let sig := p - 1
    let s := ((s.sig sig).ctxs.filter (·.2.kind = .cfgld)).foldl (fun s x => (s.pumpCfgld sig x.1).endCfgld sig x.1) s
    s.tryStart sig

/-- The load of a plane that a starting signature is to run has failed (R386): a move, or its undo, fails, and its signature returns to where it stood;
what is placed otherwise is placed again. -/
def State.startLost (s : State) (sig folio : Nat) : State :=
  match s.pendingMove sig with
  | some (t, folios, undo) =>
    let s := if folios.contains folio then s.moveLost t undo else s
    if folios.contains folio && !((s.sig sig).waves.any (·.cause = .preempt)) then (s.releaseStart sig).returnMoved sig else s.unplace sig
  | none => s.unplace sig

/-- The load of a plane fails: the plane is INVALID, the failure is reported, and what the load was for takes its fate (R386). A configuration that an
image lists as READY is loaded as by a CFGLD (R42), so the restore goes on without it. (log 44, DEDUCED) -/
def State.loadFailed (s : State) (folio plane : Nat) : State :=
  let row := folio / 24
  let col := folio % 24
  let f := s.folio row col
  let p := f.plane plane
  let s := s.setFolio row col (f.setPlane plane { Plane.invalid with activated := p.activated })
  let s := s.report (p.owner.getD 0) (FaultInfo.report 0x1A 3 (row + col * 2 ^ 8 + plane * 2 ^ 16) 0)
  let s := { s with journal := { s.journal with
    txs := s.journal.txs.map fun t => if s.loadsPlane t folio p then { t with broken := true } else t } }
  let g := s.sig (f.placed - 1)
  if f.placed ≠ 0 && g.status == .starting && p.owner == some g.vif && p.image == g.code
      && p.cfg == g.startCfg ((row - g.row0) * g.wd + (col - g.col0)) then
    s.startLost (f.placed - 1) folio
  else s.loadEnded row col

/-- Whether a plane is loaded by a CFGLD before which its spine stored something that is not performed yet (R254). -/
def State.loadForked (s : State) (f : Folio) (p : Plane) : Bool :=
  let sig := f.placed - 1
  f.placed != 0 && p.image == (s.sig sig).code &&
    (s.sig sig).ctxs.any fun x => x.2.kind == .cfgld && x.2.unit == p.cfg && s.forkOpen sig x.2.fork

/-- PLANE_LOAD_COMPLETE (R45, R147): the folio's record is read under the world key. -/
def execPlaneLoadComplete (folio plane : Nat) (s : State) : Host.Outcome State Fault Refusal :=
  let f := s.folio (folio / 24) (folio % 24)
  let p := f.plane plane
  if p.state != .loading || s.loadForked f p then .next s
  else
    match s.readUnit (p.owner.getD 0) p.source with
    | .error _ => .next (s.loadFailed folio plane)
    | .ok roles =>
      .next ((s.setFolio (folio / 24) (folio % 24) (f.setPlane plane { p with state := .ready, roles })).loadEnded (folio / 24) (folio % 24))

/-- PLANE_LOAD_ERROR (R386). -/
def execPlaneLoadError (folio plane : Nat) (s : State) : Host.Outcome State Fault Refusal :=
  .next (if ((s.folio (folio / 24) (folio % 24)).plane plane).state == .loading then s.loadFailed folio plane else s)

/-! ### Power gating (R339, R378) -/

/-- A folio loses all its state and is gated; its dune counters are the bindery's. -/
def State.gateFolio (s : State) (row col : Nat) : State :=
  let f := s.folio row col
  let s : State := (List.range 256).foldl (fun s k => s.setElement (16 * row + k / 16) (16 * col + k % 16) Element.zero) s
  s.setFolio row col { Folio.zero with busy := f.busy, held := f.held, idle := f.idle, gated := true }

/-- FOLIO_POWER_GATE (R339): after 2^24 idle cycles, once its staging area has been flushed. -/
def execFolioPowerGate (folio : Nat) (s : State) : Host.Outcome State Fault Refusal :=
  let f := s.folio (folio / 24) (folio % 24)
  if s.platform.pgate && !f.gated && f.placed == 0 && !s.journalHolds folio && 2 ^ 24 ≤ f.idleFor && f.staging.records.isEmpty then
    .next (s.gateFolio (folio / 24) (folio % 24))
  else .next s

/-- FOLIO_UNGATE_COMPLETE (R339). -/
def execFolioUngateComplete (folio : Nat) (s : State) : Host.Outcome State Fault Refusal :=
  let row := folio / 24
  let col := folio % 24
  let f := s.folio row col
  match f.ungated with
  | some t =>
    if t ≤ s.cycle then .next ((s.setFolio row col { f with gated := false, ungated := none }).loadEnded row col) else .next s
  | none => .next s

end Sys2Proof.Machine
end

