-- ==== Sys2Proof/Machine/JournalEvents.lean ====
section
/-!
DEFINITION. The journal engine at work: proposals of its own (R270), application at a seam (R281, R289), trials (R274, R283), validity
(R280), compound reverts (R286, R388), and causal trials (R296).
-/

namespace Sys2Proof.Machine

/-! ### Proposals (R270) -/

/-- ENGINE_PROPOSAL (R270): the engine proposes for an interface where PROPEN permits its class. -/
def execEngineProposal (vif : Nat) (proposal : Vec) (after : Vec) (s : State) : Host.Outcome State Fault Refusal :=
  match proposalFields proposal with
  | none => .next s
  | some (cls, object, _, valid, thresh, trial) =>
    if !s.serving || !(s.iface vif).jctl.getLsbD cls then .next s
    else
      match s.propose vif 0 0 cls object after valid thresh trial with
      | some (s, _) => .next s
      | none => .next s

/-- PROPOSAL_VALIDITY_EXPIRY (R274, R280, R295), but not of a move that is being applied. -/
def execProposalValidityExpiry (number : Nat) (s : State) : Host.Outcome State Fault Refusal :=
  match s.tx number with
  | none => .next s
  | some t =>
    if t.state != .proposed || s.cycle < t.validUntil || t.moving then .next s
    else
      let s := s.withdraw number (if t.deferred then 4 else 5) 0
      .next (if t.replay = 0 then s else s.failReplay t.replay 15)

/-! ### Seams (R281) -/

/-- Whether a signature's spine is about to emit a seam word, with no advance pending at it. -/
def State.atSeam (s : State) (sig : Nat) : Bool :=
  let g := s.sig sig
  let p := s.spineOf sig
  g.status == .running && s.runs sig && p.phase == .fetch && p.seamRequest.isNone && !p.breakpoint && !s.spineStopped sig
    && decide (p.resumeAt ≤ s.cycle) && g.waves.isEmpty &&
  (match s.codeBlock sig (p.pc.toNat / 64) with
   | .here v =>
     let w : SchedWord := v.extractLsb' (128 * (p.pc.toNat % 64 / 16)) 128
     (match decodeWord w with
      | .word h a _ => h.seam && !p.loopBreach w && !s.spaced sig h a
      | _ => false)
   | _ => false)

/-! ### Application (R281, R289, R387) -/

/-- A RESERVE holds its folios, and gated ones are ungated (R277, R339). -/
def State.applyReserve (s : State) (t : Tx) : State :=
  if !s.targetFree t 0 t.target then s.abort t.num 10
  else
    s.applySimply t fun s => t.target.foldl (fun s k =>
      let f := s.folio (k / 24) (k % 24)
      if f.gated && f.ungated.isNone then s.setFolio (k / 24) (k % 24) { f with ungated := some (s.cycle + 16384) } else s) s

/-- TRANSACTION_APPLY (R281): a POL or RESERVE at once, a ROUTE or move at its signature's seam, in number order; an FMT closes its range. -/
def execTransactionApply (number : Nat) (s : State) : Host.Outcome State Fault Refusal :=
  match s.tx number with
  | none => .next s
  | some t =>
    let seam : Bool := (s.seamTx (objSig t.object)).map (·.num) == some number && s.atSeam (objSig t.object)
    if !s.serving || !(s.mayApply t || t.moving) then .next s
    else
      match t.cls with
      | 0 =>
        if partOp t.afterBytes = 2 then .next (s.applyReserve t)
        else if !seam then .next s
        else
          match s.moveStep t t.target with
          | .going s => .next s
          | .failed cause => .next (s.abort number cause)
      | 1 => if seam then .next (s.applyRoute t) else .next s
      | 2 => if t.stage = 0 then .next (s.updateTx number fun t => { t with stage := 1 }) else .next s
      | _ =>
        .next (s.applySimply t fun s =>
          s.setIface t.vif { s.iface t.vif with policy := (s.iface t.vif).policy.withPol t.afterBytes })

/-- Whether no stream, running or saved, holds an entry of either range of an FMT (R289). -/
def State.fmtFree (s : State) (t : Tx) : Bool := !s.rangeInUse t.vif (objIdx t.object) && !s.rangeInUse t.vif t.spare

/-- FMT_APPLY (R289, R387): the closed range is converted and its entries are swapped, in one step. -/
def execFmtApply (number : Nat) (s : State) : Host.Outcome State Fault Refusal :=
  match s.tx number with
  | none => .next s
  | some t =>
    if t.cls ≠ 2 ∨ t.stage ≠ 1 ∨ !s.mayApply t ∨ !s.fmtFree t then .next s
    else
      let bytes := s.beforeOf t
      match s.applyFmt t with
      | .inl cause => .next (s.abort number cause)
      | .inr _ =>
        -- an area that cannot take the descriptor leaves the range as it was
        match s.writeDescriptor t.vif bytes with
        | none => .next (s.abort number 10)
        | some (s, d) =>
          match s.applyFmt t with
          | .inl cause => .next (s.abort number cause)
          | .inr s => .next (s.finish t d bytes [])

/-! ### Trials (R274, R283) -/

/-- TRIAL_START (R274): the measured signature's first unfrozen cycle after application. -/
def execTrialStart (number : Nat) (s : State) : Host.Outcome State Fault Refusal :=
  match s.tx number with
  | none => .next s
  | some t =>
    match t.measuredSig with
    | none => .next s
    | some m =>
      if t.state != .applied || t.noTrial || t.rv || t.closing.isSome || s.reverting number || !s.runs m then .next s
      else
        .next (s.enter number fun t =>
          { t with state := .trial, cause := 0, trialStart := ((s.sig m).time, s.meterNow m), trialCycle := s.cycle })

/-- The rates say that a trial is to be reverted. -/
def Tx.slower (t : Tx) (trate : Nat) : Bool := decide (trate * 2 ^ 16 < t.brate * (2 ^ 16 - t.thresh))

/-- TRIAL_WINDOW_END (R283): T has advanced by 2^WLOG; the trial is reverted, or settles once its dependencies have. -/
def execTrialWindowEnd (number : Nat) (s : State) : Host.Outcome State Fault Refusal :=
  match s.tx number with
  | none => .next s
  | some t =>
    match t.measuredSig with
    | none => .next s
    | some m =>
      if t.state != .trial || t.windowDone || t.closing.isSome || s.reverting number || (s.sig m).time < t.trialStart.1 + 2 ^ t.wlog then .next s
      else
        let trate := rateOf t.byProg (risen t.trialStart.2 (s.meterNow m))
        let s := s.updateTx number fun t => { t with trate, windowDone := true }
        .next (if 4096 ≤ t.baseline.2.2 && t.slower trate then s.revert number 1 else s.settleReady)

/-- TRIAL_TIMEOUT (R274): 2^32 wall cycles after it began the trial is over; it settles once its dependencies have (R285). -/
def execTrialTimeout (number : Nat) (s : State) : Host.Outcome State Fault Refusal :=
  match s.tx number with
  | none => .next s
  | some t =>
    if t.state != .trial || t.windowDone || t.closing.isSome || s.reverting number || s.cycle < t.trialCycle + 2 ^ 32 then .next s
    else .next (s.settle number 13)

/-! ### Compound reverts (R286, R388) -/

/-- A member is undone by a change that needs its before-descriptor. -/
def State.undoSimply (s : State) (r : CompoundRevert) (t : Tx) (change : State → State) : State :=
  if s.beforeReadable t then (change s).memberFinal r t.num true else s.undoFailed r t.num

/-- One step of the undo of a move, at its signature's seam. -/
def State.undoMove (s : State) (r : CompoundRevert) (t : Tx) : State :=
  if t.stage = 0 && !s.beforeReadable t then s.undoFailed r t.num
  else
    match s.moveStep t t.vacated with
    | .going s => s
    | .failed _ => s.undoFailed r t.num

/-- One step of the undo of an FMT: its range is closed again, and then its marked units are converted back. (log 46, DEDUCED) -/
def State.undoFormat (s : State) (r : CompoundRevert) (t : Tx) : State :=
  if t.stage = 0 then s.updateTx t.num fun t => { t with stage := 1 }
  else if !s.fmtFree t then s
  else if !s.beforeReadable t then s.undoFailed r t.num
  else
    match s.undoFmt t with
    | none => s.undoFailed r t.num
    | some s => s.memberFinal r t.num true

/-- Whether something that depends on a transaction still stands, which an earlier compound revert undoes first (R286). One whose object was a
signature that has ended is never undone, and settles once what it depends on is final (R285, R297). -/
def State.dependedOn (s : State) (n : Nat) : Bool :=
  s.journal.txs.any fun a => !a.rv && a.state.standing && a.stage != orphanStage && a.deps.contains n

/-- COMPOUND_REVERT_UNDO (R286): the latest member not yet undone is undone at its object's next seam. -/
def execCompoundRevertUndo (number : Nat) (s : State) : Host.Outcome State Fault Refusal :=
  match s.journal.reverts.find? (fun (r : CompoundRevert) => r.num = number) with
  | none => .next s
  | some r =>
    match r.next.bind s.tx with
    | none => .next s
    | some t =>
      if t.state == .proposed || s.dependedOn t.num then .next s
      else
      let seam : Bool := t.stage != 3 && s.atSeam (objSig t.object)
      if !s.serving then .next s
      else
        match t.cls with
        | 0 =>
          if partOp t.afterBytes = 2 then .next (s.memberFinal r t.num true)
          else if seam then .next (s.undoMove r t) else .next s
        | 1 =>
          if seam then .next (s.undoSimply r t fun s => s.setRoute (objSig t.object) (objIdx t.object) t.beforeBytes) else .next s
        | 2 => .next (s.undoFormat r t)
        | _ =>
          .next (s.undoSimply r t fun s =>
            s.setIface t.vif { s.iface t.vif with policy := (s.iface t.vif).policy.withPol t.beforeBytes })

/-! ### Forced reverts (R287, R275, R389) -/

/-- Whether a transaction that depends on another, directly or through others, has settled. -/
def State.settledDependent (s : State) (n : Nat) : Bool :=
  let all := s.journal.txs.foldl (fun (ms : List Nat) t =>
    if n < t.num && !t.rv && (t.state.standing || t.state == .settled) && t.deps.any ms.contains then ms ++ [t.num] else ms) [n]
  all.any fun m => m != n && s.txState m == some .settled

/-- The CAUSE with which a forced revert is refused, or 0: one that is in no state TRIAL or SETTLED gets 14, a compound revert in APPLIED too (R287).
(log 37, DEDUCED) -/
def State.forceRefused (s : State) (vif : Nat) (number : Nat) : Nat :=
  match s.tx number with
  | none => 14
  | some t =>
    if t.vif ≠ vif || !(t.state == .trial || t.state == .settled) || s.reverting number then 14
    else if t.rv then 12
    else if s.settledDependent number then 11
    else 0

/-- A refusal writes a copy of the target's record, if it is one of the requester's, with the time of the refusal. (log 99, DESIGN CHOICE) -/
def State.copyRefusal (s : State) (vif number cause : Nat) : State :=
  match s.tx number with
  | none => s
  | some t =>
    if t.vif ≠ vif then s
    else s.journalCopy vif t.cls t.object { t with cause, stamp := s.ns }.record false

/-- A forced revert is taken, or refused; JREV reads its CAUSE (R304). -/
def State.forceRevert (s : State) (vif number : Nat) : State :=
  match s.forceRefused vif number with
  | 0 => (s.revert number 2).setIface vif { (s.revert number 2).iface vif with jrev := 0 }
  | c => (s.copyRefusal vif number c).setIface vif { (s.copyRefusal vif number c).iface vif with jrev := BitVec.ofNat 64 c }

/-! ### Causal trials (R296) -/

def State.causalRun (s : State) (sig : Nat) : Option CausalRun := s.journal.causal.find? fun (r : CausalRun) => r.sig = sig

def State.setCausal (s : State) (r : CausalRun) : State :=
  { s with journal := { s.journal with causal := s.journal.causal.map fun (x : CausalRun) => if x.sig = r.sig then r else x } }

/-- The report: NUM 0, STATE 7, CLASS 3, the signature, both rates, ρ and F; who asked for the trial is not said. -/
def State.causalReport (s : State) (r : CausalRun) (brate trate : Nat) : Vec :=
  let vif := (s.sig r.sig).vif
  let src := 2 * (Config.choice s.free % 2)
  let ctl := 3 + 7 * 2 ^ 2 + src * 2 ^ 5 + vif % 64 * 2 ^ 14 + r.wlog % 64 * 2 ^ 38
  blockOfWords [0, (objectWord 0 vif r.sig 0).toNat, ctl, r.region % 2 ^ 16 + r.fraction % 256 * 2 ^ 16, 0, 0, brate + trate * 2 ^ 32, s.ns]

/-- One step of a causal trial: its windows begin and end in unfrozen cycles, and it stands back for a transaction's trial. (log 56, DEDUCED) -/
def State.causalStep (s : State) (r : CausalRun) : State :=
  let now := s.meterNow r.sig
  let begin_ : CausalRun := { r with started := true, start := ((s.sig r.sig).time, now), outside := 0, owed := 0 }
  if s.journal.txs.any fun t => t.state == .trial && !t.windowDone && t.measuredSig == some r.sig then
    (s.setCausal { r with started := false, delaying := false, owed := 0 }).liftWave r.sig .causal
  else if !s.runs r.sig then s
  else if !r.started then s.setCausal begin_
  else if (s.sig r.sig).time < r.start.1 + 2 ^ r.wlog then s
  else
    let d := risen r.start.2 now
    if !r.delaying then s.setCausal { begin_ with delaying := true, first := d }
    else
      let byProg := r.first.1 != 0
      let vif := (s.sig r.sig).vif
      let bytes := s.causalReport r (rateOf byProg r.first) (rateOf byProg d)
      let s : State := { s with free := s.free + 1, journal := { s.journal with causal := s.journal.causal.filter fun (x : CausalRun) => x.sig ≠ r.sig } }
      let s := (s.liftWave r.sig .causal).traceDie 4 vif 0 [] 0x0020 3 0
      s.journalCopy vif 3 (objectWord 0 vif r.sig 0) bytes true

/-- CAUSAL_TRIAL (R296): a trial of a placed signature begins, or goes on. -/
def execCausalTrial (sig region fraction : Nat) (wlog : Nat) (s : State) : Host.Outcome State Fault Refusal :=
  match s.causalRun sig with
  | some r => .next (s.causalStep r)
  | none =>
    if !s.placedSigs.contains sig || fraction = 0 || 255 < fraction || wlog < 12 || 32 < wlog then .next s
    else
      let r : CausalRun :=
        { sig, region, fraction, wlog, delaying := false, started := false, start := (0, 0, 0, 0), first := (0, 0, 0), outside := 0, owed := 0 }
      .next { s with journal := { s.journal with causal := s.journal.causal ++ [r] } }

/-- The causal wave of a signature takes effect where no advance or controller holds it off. -/
def State.causalFreeze (s : State) (sig : Nat) : State :=
  let g := s.sig sig
  let due (w : Wave) : Bool := w.cause == .causal && !w.inForce && w.from_ ≤ s.cycle
  if s.advancing sig || s.controllerOwes sig then s
  else s.setSig sig { g with waves := g.waves.map fun w => if due w then { w with inForce := true, from_ := s.cycle } else w }

/-- CAUSAL_DELAY (R296): every 256 measured cycles outside ρ ask for F cycles of freeze, which ends once they are spent. -/
def execCausalDelay (sig : Nat) (s : State) : Host.Outcome State Fault Refusal :=
  match s.causalRun sig with
  | none => .next s
  | some r =>
    let g := s.sig sig
    let r := if r.delaying && 256 ≤ r.outside then { r with outside := r.outside - 256, owed := r.owed + r.fraction } else r
    let s := s.setCausal r
    let waving := g.waves.any fun w => w.cause == .causal
    if r.owed = 0 then .next (if waving then s.liftWave sig .causal else s)
    else if !waving then .next (s.requestWave sig .causal)
    else .next (s.causalFreeze sig)

end Sys2Proof.Machine
end

