-- ==== Sys2Proof/Machine/SpineKeys.lean ====
section
/-!
DEFINITION. Sequence keys: drawing, rotating and ending a slot's key (R91, R92, R94 to R96), and the instructions that do it (R194).
-/

namespace Sys2Proof.Machine

/-- A fresh key pair of the security controller: its halves differ (R92). -/
def drawKey (n : Nat) : Vec :=
  let (first, step) := Config.keyDraw n
  first.setWidth 512 ||| ((first + BitVec.ofNat 256 (1 + step % (2 ^ 256 - 1))).setWidth 512 <<< 256)

/-- The lowest-numbered FREE slot from slot n on, other than slot 0; the table rises. -/
def lowestFree (n : Nat) : Tab KeySlot → Nat
  | [] => n
  | (k, slot) :: rest => if k < n then lowestFree n rest else if k = n ∧ slot.live then lowestFree (n + 1) rest else n

/-- LIVE slots of an interface. -/
def State.liveSlots (s : State) (vif : Nat) : Nat := (s.keySlots.filter fun p => p.2.live && p.2.owner == vif).length

/-- QUOTA of an interface (R304). -/
def Iface.quota (f : Iface) : Nat := (f.conf.extractLsb' 16 20).toNat

/-- Whether the carve-out is there for keys and world keys (R334, R343). -/
def State.keysServed (s : State) : Bool :=
  s.platform.service == 3 || (s.platform.service == 2 && s.platform.ecarveWritten)

/-- Whether a request captured an epoch of a slot and is still outstanding (R94). -/
def Request.usesEpoch (r : Request) (slot gen : Nat) (epoch : Bool) : Bool :=
  r.key == .slot slot gen epoch && (match r.stage with | .faulted .. => false | _ => true)

/-- OLD is destroyed, in the carve-out and in every key cache, once no request is outstanding under it (R94). -/
def State.retireOld (s : State) : State :=
  s.keySlots.foldl (fun s (n, k) =>
    match k.old with
    | none => s
    | some (_, e) =>
      if s.requests.any fun r => r.usesEpoch n k.sgen e then s
      else
        { s.setKeySlot n { k with old := none } with
          keyCache := s.keyCache.filter fun c => !(c.slot == n && c.gen == k.sgen && c.epoch == e) }) s

/-- Why an operation on a handle's slot fails: 1 stale or FREE, 2 another interface's; 0 when it does not. (log 38, DEDUCED) -/
def State.slotRefusal (s : State) (vif slot gen : Nat) : Nat :=
  let k := s.keySlot slot
  if !k.live || k.sgen != gen then 1 else if k.owner != vif then 2 else 0

/-- KSLOT and KGEN of a key handle. -/
def handleSlot (x : Word) : Nat × Nat := ((x.extractLsb' 0 20).toNat, (x.extractLsb' 20 12).toNat)

/-! ### The controller's service queue (R96, R333) -/

/-- Whether the key operation in focus is the one that the controller serves now: it has been asked for, and has left the queue (log 85, DEDUCED).
-/
def State.keyTurn (s : State) : Bool := s.here.progress != 0 && !s.serviceQueue.contains (.key s.focus.sig)

/-- A key operation waits: it enters the queue as it is performed first. -/
def State.waitKey (s : State) : State :=
  let x := ServiceItem.key s.focus.sig
  { s.waitController with serviceQueue := if s.serviceQueue.contains x then s.serviceQueue else s.serviceQueue ++ [x] }

/-- The operation that the controller serves cannot be made yet: it stays the first one. -/
def State.waitFirst (s : State) : State := { s with serviceQueue := .key s.focus.sig :: s.serviceQueue }

/-- SEQNEW (R92, R194). -/
def execSeqnew (f : SG) (s : State) : Host.Outcome State Fault Refusal :=
  let d := s.readG f.ga
  let vif := s.me.vif
  if d.toNat % 2 ^ 16 ≠ 0 ∨ 2 ^ 56 ≤ d.toNat then .next (s.illegalOperand 0x78)
  else if !s.keyTurn then .next s.waitKey
  else
    let n := lowestFree 1 s.keySlots
    if !s.keysServed || (s.iface vif).quota ≤ s.liveSlots vif || 2 ^ 20 ≤ n then spineResult s.taken f.gd 0
    else
      let k := s.keySlot n
      let s' := s.taken.setKeySlot n { k with live := true, owner := vif, base := d, key := drawKey s.free, epoch := false, old := none, broken := [] }
      spineResult s' f.gd (BitVec.ofNat 64 (n + k.sgen * 2 ^ 20))

/-- SEQROT (R94, R194): it waits while OLD remains. -/
def execSeqrot (f : SG) (s : State) : Host.Outcome State Fault Refusal :=
  let x := s.readG f.ga
  let (n, gen) := handleSlot x
  if (x.extractLsb' 32 32).toNat ≠ 0 then .next (s.illegalOperand 0x79)
  else if !s.keyTurn then .next s.waitKey
  else
    match s.slotRefusal s.me.vif n gen with
    | 0 =>
      let s := s.retireOld
      let k := s.keySlot n
      if k.old.isSome then .next s.waitFirst
      else
        let broken := k.broken.filter (· == k.epoch)
        let s' := s.taken.setKeySlot n { k with key := drawKey s.free, epoch := !k.epoch, old := some (k.key, k.epoch), broken }
        spineResult s' f.gd 0
    | c => spineResult s.taken f.gd (BitVec.ofNat 64 c)

/-- SEQEND (R95, R194): from here on no request under the slot is opened or sealed. -/
def execSeqend (f : SG) (s : State) : Host.Outcome State Fault Refusal :=
  let x := s.readG f.ga
  let (n, gen) := handleSlot x
  if (x.extractLsb' 32 32).toNat ≠ 0 then .next (s.illegalOperand 0x7A)
  else if !s.keyTurn then .next s.waitKey
  else
    match s.slotRefusal s.me.vif n gen with
    | 0 =>
      let ended : KeySlot := { KeySlot.free with sgen := if gen = 0xFFF then 1 else gen + 1 }
      let s := s.taken.setKeySlot n ended
      spineResult { s with keyCache := s.keyCache.filter (·.slot ≠ n) } f.gd 0
    | c => spineResult s.taken f.gd (BitVec.ofNat 64 c)

end Sys2Proof.Machine
end

