-- ==== Sys2Proof/Machine/Platform.lean ====
section
/-!
DEFINITION. Bring-up and service states (R330 to R337), power and cooling (R338, R340), and the way of trace records to the ring (R317 to
R319, R343).
-/

namespace Sys2Proof.Machine

/-! ### Reset and verification (R330 to R332) -/

/-- The region of host memory that is a carve-out now (R334). -/
def State.hostCarveOut (s : State) : List (Nat × Nat) := s.carveOuts.filter fun c => 2 ^ 50 ≤ c.1

/-- Everything of the module is lost; host memory and what is still to come from outside are not the module's. (log 52, DEDUCED) -/
def State.moduleReset (s : State) (running : Bool) : State :=
  let s := s.leaveSealed s.hostCarveOut
  { State.reset with
    platform := { State.reset.platform with running }
    memory := s.memory.filter fun c => 2 ^ 50 ≤ c.1
    poisonedUnits := s.poisonedUnits.filter fun u => 2 ^ 44 ≤ u
    inputs := s.inputs
    free := s.free }

/-- RST_N_DEASSERT (R330, R331). -/
def execRstNDeassert (s : State) : Host.Outcome State Fault Refusal :=
  .next (if s.platform.running then s else s.moduleReset true)

/-- RST_N_ASSERT (R330): a module reset; the module stays in reset until the input is deasserted. -/
def execRstNAssert (s : State) : Host.Outcome State Fault Refusal := .next (s.moduleReset false)

/-- The module halts with a cause (R331, R336, R340). -/
def State.halt (s : State) (fail : Nat) : State := { s with platform := { s.platform with service := 4, fail } }

/-- Whether a component's signature verifies under the key whose digest is fused (R332); a key's bytes are X and Y, big-endian (log 10, PRESUMED).
-/
def componentVerified (bytes : List Byte) (keyX keyY sigR sigS : Nat) : Bool :=
  digestBits (sha384 (bytesBig 48 keyX ++ bytesBig 48 keyY)) == Config.vendorKeyDigest && ecdsaVerify (sha384 bytes) keyX keyY sigR sigS

/-- MR[m] := SHA-384(MR[m] ‖ δ) (R332). -/
def Platform.extend (p : Platform) (m : Nat) (digest : List Byte) : Platform :=
  { p with measurements := p.measurements.set 0 m (digestBits (sha384 (digestBytes (p.measurements.get 0 m) ++ digest))) }

/-- VERIFY_COMPONENT (R331, R332): components come in the order of R332; one that fails halts the module. FWVER shows the firmware of each
controller once it is verified (R341). -/
def execVerifyComponent (order : Nat) (bytes : List Byte) (keyX keyY sigR sigS : Nat) (s : State) : Host.Outcome State Fault Refusal :=
  let p := s.platform
  if !p.running || 1 < p.service || order ≠ p.order || order = 0 || 6 < order then .next s
  else
    let s : State := { s with platform := { p with service := 1 } }
    if componentVerified bytes keyX keyY sigR sigS then
      let p := s.platform.extend (order - 1) (sha384 bytes)
      let shown : Word := if order = 2 then 0x00000000FFFFFFFF else if order = 3 then 0xFFFFFFFF00000000 else 0
      .next { s with platform := { p with order := order + 1, fwver := p.fwver ||| (Config.firmwareVersion &&& shown) } }
    else .next (s.halt order)

/-! ### Training (R331, R335 to R337) -/

/-- EARLY_TRAINING_COMPLETE (R331): all components are verified, and die 0, the host link and the service paths are trained. -/
def execEarlyTrainingComplete (s : State) : Host.Outcome State Fault Refusal :=
  .next (if s.platform.service = 1 ∧ s.platform.order = 7 then { s with platform := { s.platform with service := 2 } } else s)

/-- Whether every placed signature stands frozen by the wave of the move to full service (R335). -/
def State.movedFrozen (s : State) : Bool :=
  s.placedSigs.all fun n => (s.sig n).waves.any fun w => w.cause == .service && w.inForce

/-- Steps 2 to 4 of R335: what the device keeps in a carve-out stands in State, so the copy of step 2 leaves it as it is, and the ECARVE region is host
memory again. -/
def State.enterFull (s : State) : State :=
  let s := s.leaveSealed s.hostCarveOut
  let p := s.platform
  let s : State := { s with platform := { p with service := 3, moving := false, cwait := false, ethUp := ~~~p.ethFailed } }
  s.placedSigs.foldl (fun s n => s.liftWave n .service) s

/-- FULL_SERVICE_TRANSITION (R335): the rest is trained; the waves are requested, unless a debug stop delays them, and once all signatures
are frozen the module moves, or waits for CARVE. -/
def execFullServiceTransition (s : State) : Host.Outcome State Fault Refusal :=
  if s.platform.service ≠ 2 then .next s
  else
    let s : State := { s with platform := { s.platform with trained := true } }
    let s : State :=
      if s.platform.moving || s.debugger.stopped then s
      else s.placedSigs.foldl (fun s n => s.requestWave n .service) { s with platform := { s.platform with moving := true } }
    .next (
      if !s.platform.moving || !s.movedFrozen then s
      else if s.platform.carve = 0 then { s with platform := { s.platform with cwait := true } }
      else s.enterFull)

/-- TRAINING_FAILURE (R336, R337): a service link of the two paths fails in VERIFY; any other failure names its die. -/
def execTrainingFailure (service : Bool) (die : Nat) (s : State) : Host.Outcome State Fault Refusal :=
  let p := s.platform
  .next (
    if p.service = 1 ∧ service then s.halt 0x28
    else if p.service = 1 ∨ p.service = 2 then s.halt (0x20 + die % 9)
    else s)

/-- ETHERNET_TRAINING_FAILURE (R336): the port stays down, and full service is not prevented. -/
def execEthernetTrainingFailure (port : Nat) (s : State) : Host.Outcome State Fault Refusal :=
  let bit := BitVec.ofNat 8 (2 ^ port)
  .next { s with platform := { s.platform with ethFailed := s.platform.ethFailed ||| bit, ethUp := s.platform.ethUp &&& ~~~bit } }

/-! ### Power (R338) -/

/-- MCAP as it acts: 80 % of its value under the emergency cap (R340). -/
def Platform.cap (p : Platform) : Nat := if p.thermal.getLsbD 0 then p.mcap.toNat * 80 / 100 else p.mcap.toNat

/-- An interface's share under its CSHARE and PCAP, in units of 2⁻³²: the share at which the power of its activity, which was `dynamic` at the share that
it ran with, meets with its part of the leakage PCAP. -/
def Iface.cappedShare (f : Iface) (ran dynamic leak : Nat) : Nat :=
  let sh := f.policy.cshare * 2 ^ 16
  if f.policy.pcap = 0 ∨ dynamic = 0 then sh else min sh ((f.policy.pcap - leak) * ran / dynamic)

/-- The folios that an interface's signatures hold; and that all do. -/
def State.heldFolios (s : State) (vif : Nat) : Nat :=
  (s.sigs.filter fun x => x.2.vif == vif && x.2.status != .saved).foldl (fun n x => n + x.2.ht * x.2.wd) 0

def State.allHeld (s : State) : Nat := (List.range 64).foldl (fun n v => n + s.heldFolios v) 0

/-- The power of a window's activity, in watts. -/
def Activity.watts (a : Activity) : Nat :=
  (a.macs.foldl (fun n x => n + Config.macPower x.1 * x.2) 0 + Config.bytePower 0 * a.pad + Config.bytePower 1 * a.fill
    + Config.bytePower 2 * a.wadi + Config.bytePower 3 * a.hbm) / 2 ^ 20

/-- An interface's part of the leakage: by the placed folios it holds (R338). -/
def State.leakOf (s : State) (vif : Nat) : Nat := Config.leakage * s.heldFolios vif / max 1 s.allHeld

/-- An interface's estimated power: its activity, and its part of the leakage (log 8, DESIGN CHOICE). -/
def State.estimate (s : State) (vif : Nat) : Nat := (s.iface vif).activity.watts + s.leakOf vif

/-- POWER_ENFORCEMENT_WINDOW (R338): every 2^20 wall cycles the shares follow the estimated power of the interfaces, and a new window begins. -/
def execPowerEnforcementWindow (s : State) : Host.Outcome State Fault Refusal :=
  if !s.serving || s.cycle % 2 ^ 20 ≠ 0 then .next s
  else
    let total := (List.range 64).foldl (fun n v => n + s.estimate v) 0
    let shares := (List.range 64).map fun v => (s.iface v).cappedShare (s.shareOf v) (s.iface v).activity.watts (s.leakOf v)
    -- the power of the activity at the new shares, and the leakage, which no share lowers
    let dynamic := (List.range 64).foldl (fun n v => n + (s.iface v).activity.watts * shares.getD v 0 / max 1 (s.shareOf v)) 0
    let leak := (List.range 64).foldl (fun n v => n + s.leakOf v) 0
    let cap := s.platform.cap
    let final (v : Nat) : Nat := max 1 (if cap < dynamic + leak then shares.getD v 0 * (cap - leak) / max 1 dynamic else shares.getD v 0)
    let s : State := { s with platform := { s.platform with power := BitVec.ofNat 64 (min total 8191) } }
    .next ((List.range 64).foldl (fun s v => s.setIface v { s.iface v with share := final v, activity := Activity.zero }) s)

/-- MCAP_WRITE (R338): a value out of range is ignored, one with a bit of 63:13 set too. (log 93, DESIGN CHOICE) -/
def execMcapWrite (value : Word) (s : State) : Host.Outcome State Fault Refusal :=
  .next (if s.serving && 1500 ≤ value.toNat && value.toNat ≤ 7200 then { s with platform := { s.platform with mcap := value } } else s)

/-! ### Cooling (R340) -/

/-- The hottest junction, in 1/16 °C, and its die are reported in TEMP (R341). -/
def State.reportTemp (s : State) (temp die : Nat) : State :=
  { s with platform := { s.platform with temp := BitVec.ofNat 64 (temp % 2 ^ 16 + die % 16 * 2 ^ 16) } }

/-- Whether the management controller acts: it does while the module runs and is not halted. -/
def State.cooled (s : State) : Bool := s.platform.running && s.platform.service != 4

/-- An action at a temperature: it begins at its threshold, ends 5 °C below it, and stays as it is between. -/
def thermalBit (now : Bool) (temp threshold : Nat) : Bool := if threshold ≤ temp then true else now && decide (threshold < temp + 80)

/-- The module acts on a hottest junction temperature: the emergency cap from 100 °C, the share limit from 110 °C, and HALTED from 120 °C (R340). -/
def State.actOnTemp (s : State) (temp die : Nat) : State :=
  if !s.cooled then s
  else
    let s := s.reportTemp temp die
    let t := s.platform.thermal
    let cap := thermalBit (t.getLsbD 0) temp 1600
    let limit := thermalBit (t.getLsbD 1) temp 1760
    let s : State := { s with platform := { s.platform with thermal := (if cap then 1 else 0) ||| (if limit then 2 else 0) } }
    if 1920 ≤ temp then s.halt 0x30 else s

/-- THERMAL_EMERGENCY_CAP (R340). -/
def execThermalEmergencyCap (temp die : Nat) (s : State) : Host.Outcome State Fault Refusal := .next (s.actOnTemp temp die)

/-- THERMAL_SHARE_LIMIT (R340). -/
def execThermalShareLimit (temp die : Nat) (s : State) : Host.Outcome State Fault Refusal := .next (s.actOnTemp temp die)

/-- THERMAL_HALT (R340). -/
def execThermalHalt (temp die : Nat) (s : State) : Host.Outcome State Fault Refusal := .next (s.actOnTemp temp die)

/-- THERMAL_RELEASE (R340). -/
def execThermalRelease (temp die : Nat) (s : State) : Host.Outcome State Fault Refusal := .next (s.actOnTemp temp die)

/-! ### The carve-out registers (R334, R335, R341) -/

/-- The size of a carve-out in GiB. -/
def carveSize (value : Word) : Nat := (value.extractLsb' 56 8).toNat

/-- CARVE_WRITE (R335, R341): the base and size fields are kept; a size that is not 1 to 64 names no carve-out, and changes nothing. (log 80,
DESIGN CHOICE) A region that the device has used is memory again once it is the carve-out no longer. -/
def execCarveWrite (value : Word) (s : State) : Host.Outcome State Fault Refusal :=
  .next (if s.serving && 1 ≤ carveSize value && carveSize value ≤ 64 then
    let carve := value &&& 0xFF07FFFFC0000000
    let s := if s.platform.service = 3 && carve ≠ s.platform.carve then s.leaveSealed s.carveOuts else s
    { s with platform := { s.platform with carve, cwait := s.platform.cwait && carve == 0 } } else s)

/-- Whether a value names an ECARVE region: its size is 1 to 64. -/
def ecarveValid (value : Word) : Bool := 1 ≤ carveSize value && carveSize value ≤ 64

/-- ECARVE_WRITE (R334, R341): once per boot, in state 2; its reserved bits are dropped (R5). -/
def execEcarveWrite (value : Word) (s : State) : Host.Outcome State Fault Refusal :=
  let p := s.platform
  .next (if p.service == 2 && !p.ecarveWritten && ecarveValid value then
    { s with platform := { p with ecarve := value &&& 0xFF03FFFFC0000000, ecarveWritten := true } } else s)

/-! ### Trace records on their way (R317 to R319, R378) -/

/-- The folio of a die with a number from 0 to 31. -/
def dieFolio (die k : Nat) : Nat × Nat := (4 * (die / 3) + k / 8, 8 * (die % 3) + k % 8)

/-- Whether a folio is due to be gated, so that its staging area is being flushed (R319, R339). -/
def State.flushing (s : State) (row col : Nat) : Bool :=
  let f := s.folio row col
  s.platform.pgate && !f.gated && f.placed == 0 && !s.journalHolds (24 * row + col) && decide (2 ^ 24 ≤ f.idleFor)

/-- One record goes from a folio's staging area into its die's buffer. -/
def State.unstage (s : State) (die row col : Nat) : State :=
  let f := s.folio row col
  match f.staging.records with
  | [] => s
  | r :: _ =>
    let b := s.dieBuffers.get DieBuffer.zero die
    -- a drop in the flush before gating is counted under the folio's name (R378)
    let place := if s.flushing row col then row + col * 2 ^ 8 else 0xFFFF
    let s := s.setFolio row col { f with staging := f.staging.tail }
    let area := b.area.insert 131072 r false place (!s.clock.synced)
    { s with dieBuffers := s.dieBuffers.set DieBuffer.zero die { b with area } }

/-- The next record that a die's buffer takes: a flushed folio's first, else round-robin. -/
def State.drainOne (s : State) (die : Nat) : State :=
  let full (k : Nat) : Bool := !(s.folio (dieFolio die k).1 (dieFolio die k).2).staging.records.isEmpty
  match (List.range 32).find? fun k => full k && s.flushing (dieFolio die k).1 (dieFolio die k).2 with
  | some k => s.unstage die (dieFolio die k).1 (dieFolio die k).2
  | none =>
    let b := s.dieBuffers.get DieBuffer.zero die
    match ((List.range 32).map fun i => (b.turn + i) % 32).find? full with
    | none => s
    | some k =>
      let s : State := { s with dieBuffers := s.dieBuffers.set DieBuffer.zero die { b with turn := (k + 1) % 32 } }
      s.unstage die (dieFolio die k).1 (dieFolio die k).2

/-- TRACE_STAGE_DRAIN (R317): up to 8 records in a cycle. -/
def execTraceStageDrain (die : Nat) (s : State) : Host.Outcome State Fault Refusal :=
  .next ((List.range 8).foldl (fun s _ => s.drainOne die) s)

/-- TRACE_RING_COPY (R317, R343): the oldest record of a die buffer goes to the ring, unless the ring is full. -/
def execTraceRingCopy (die : Nat) (s : State) : Host.Outcome State Fault Refusal :=
  let b := s.dieBuffers.get DieBuffer.zero die
  let p := s.platform
  if !s.keysServed || (p.tringWrite - p.tringRead).toNat = 2 ^ 23 then .next s
  else
    match b.area.records with
    | [] => .next s
    | r :: _ =>
      .next { s with
        dieBuffers := s.dieBuffers.set DieBuffer.zero die { b with area := b.area.tail }
        platform := { p with ring := p.ring.set 0 (p.tringWrite.toNat % 2 ^ 23) r, tringWrite := p.tringWrite + 1 } }

/-- TRING_WRITE (R341): the read index only advances, and not beyond the write index. -/
def execTringWrite (value : Word) (s : State) : Host.Outcome State Fault Refusal :=
  let p := s.platform
  let new := value.extractLsb' 0 32
  if !s.serving || p.tringWrite - p.tringRead < new - p.tringRead then .next s
  else
    let left := (p.tringWrite - new).toNat
    let ring := p.ring.filter fun e => (e.1 + 2 ^ 23 - new.toNat % 2 ^ 23) % 2 ^ 23 < left
    .next { s with platform := { p with ring, tringRead := new } }

end Sys2Proof.Machine
end

