-- ==== Sys2Proof/Machine/Answers.lean ====
section
/-!
DEFINITION. Answers to fault records (R351 to R354, R380 to R384), debug stops and their end (R322, R395, R396), and uncorrectable errors
(R368).
-/

namespace Sys2Proof.Machine

/-! ### Accepting an answer (R351) -/

/-- A register access that is recorded (R303, R351): AUX is the register's offset. -/
def State.registerFault (s : State) (vif offset : Nat) : State := s.report vif (FaultInfo.report 0x22 4 offset 0)

/-- A record is answered. -/
def State.markAnswered (s : State) (vif seq : Nat) : State :=
  let f := s.iface vif
  s.setIface vif { f with records := f.records.map fun r => if r.seq = seq then { r with answered := true } else r }

/-- Whether a record has lapsed: its launch has ended, or ends by fault and has drained, so that its HOLD records are no more (R355). -/
def State.recordLapsed (s : State) (r : FaultRecord) : Bool := r.lapsed || (r.disp == 1 && r.sig != 0 && (s.sig r.sig).cutOff)

/-- The record that an answer names, if the answer is accepted: a HOLD or STOP record, unanswered, that permits the action. An answer to a
record that has lapsed is discarded, and any other is recorded as register-access. -/
def State.acceptAnswer (s : State) (vif seq act : Nat) : State × Option FaultRecord :=
  match (s.iface vif).record seq with
  | none => (s.registerFault vif 0x10A8, none)
  | some r =>
    if s.recordLapsed r then (s, none)
    else if r.answered || (r.disp != 1 && r.disp != 2) || r.acts / 2 ^ act % 2 = 0 then (s.registerFault vif 0x10A8, none)
    else (s.markAnswered vif seq, some r)

/-- Whether a signature stands on folios with its state in them; otherwise an answer attaches to its image (R381). -/
def State.onFabric (s : State) (sig : Nat) : Bool := (s.sig sig).status == .running || (s.sig sig).status == .draining

/-- Whether an accepted answer waits for RESUME: an answer to a STOP record in a debug stop (R395). -/
def State.answerParked (s : State) (r : FaultRecord) : Bool := s.debugger.stopped && r.disp == 2

/-- The answer is kept until then. -/
def State.parkAnswer (s : State) (vif seq act : Nat) : State :=
  { s with debugger := { s.debugger with answers := s.debugger.answers ++ [(vif, seq, act)] } }

/-! ### ABORT (R355, R381) -/

/-- The copy of the DMA port that a record holds. -/
def State.heldDma (s : State) (vif seq : Nat) : Option DmaCopy := s.dma.find? fun (d : DmaCopy) => d.vif = vif && d.hold = some seq

/-- A saved image is discarded: its queued record leaves the queue and its records lapse; the launch ends once its steps have run (R355, R381). One
that is being restored is saved again first. -/
def State.abortSaved (s : State) (sig : Nat) : State :=
  let s := if (s.sig sig).status = .starting then s.unplace sig else s
  let s := (s.setSig sig { (s.sig sig).doomed with status := (s.sig sig).status }).lapse (s.sig sig).vif sig
  if s.faultDrained sig then (s.flushNotes sig).endLaunch sig 0x8000000000000000 else s

/-- The launch of a signature ends. -/
def State.abortLaunch (s : State) (sig : Nat) : State := if s.onFabric sig then s.endByFault sig else s.abortSaved sig

/-- What an accepted ABORT does; a copy of the DMA port is dropped. -/
def State.applyAbort (s : State) (vif seq : Nat) (r : FaultRecord) : State :=
  if r.sig = 0 then (match s.heldDma vif seq with | some d => s.dropDma d.id | none => s) else s.abortLaunch r.sig

/-- FRESP_ABORT (R351, R355, R381, R395). -/
def execFrespAbort (vif seq : Nat) (s : State) : Host.Outcome State Fault Refusal :=
  match s.acceptAnswer vif seq 0 with
  | (s, none) => .next s
  | (s, some r) => .next (if s.answerParked r then s.parkAnswer vif seq 0 else s.applyAbort vif seq r)

/-! ### The end of a stop (R352, R353, R384) -/

/-- Once no STOP record awaits an answer, a fault stop lifts 12 cycles on, and so does the stop of a restored spine. -/
def State.liftStop (s : State) (sig : Nat) : State :=
  if s.stopOpen sig || !s.onFabric sig then s
  else
    let g := s.sig sig
    let stop := g.stop.map fun (st : FaultStop) => if st.inForce then { st with lifts := some (s.cycle + 12) } else st
    let s := s.setSig sig { g with stop }
    let p := s.spineOf sig
    if p.resumeAt = 1 then s.setSpineOf sig { p with resumeAt := s.cycle + 12 } else s

/-- The spine of a signature, in its folio or in its image, after an answer. -/
def State.answeredSpine (s : State) (sig : Nat) (f : Spine → Spine) : State :=
  if s.onFabric sig then s.setSpineOf sig (f (s.spineOf sig))
  else s.setSig sig { s.sig sig with savedSpine := f (s.sig sig).savedSpine }

/-- RESUME at a stopped spine: the faulting slot and the rest of its word are passed over. (log 58, DEDUCED) -/
def Spine.passOver (p : Spine) : Spine :=
  match p.phase with
  | .faulted _ => { p with phase := .leave, capture := { p.capture with result := [] } }
  | .fetchFault => { p.nextPc with phase := .fetch }
  | _ => p

/-- RETRY at a stopped spine: the faulting slot is performed again, or the word is fetched again. -/
def Spine.again (p : Spine) : Spine :=
  match p.phase with
  | .faulted b => { p with phase := if b then .slotB else .slotA }
  | .fetchFault => { p with phase := .fetch }
  | _ => p

/-- UNIT of a record (R349). -/
def FaultRecord.unit (r : FaultRecord) : Nat := (r.bytes.extractLsb' 74 3).toNat

/-- What an accepted RESUME does: an element's stop needs nothing more; the spine passes over its slot; a store of its is given up. (log 58,
DEDUCED) -/
def State.applyResume (s : State) (r : FaultRecord) : State :=
  let s :=
    if r.unit ≠ 0 then s
    else if r.request ≠ 0 then s.dropRequest r.request
    else s.answeredSpine r.sig Spine.passOver
  s.liftStop r.sig

/-- FRESP_RESUME (R351 to R353, R395). -/
def execFrespResume (vif seq : Nat) (s : State) : Host.Outcome State Fault Refusal :=
  match s.acceptAnswer vif seq 1 with
  | (s, none) => .next s
  | (s, some r) => .next (if s.answerParked r then s.parkAnswer vif seq 1 else s.applyResume r)

/-! ### RETRY (R354, R365, R381, R383) -/

/-- The requests that joined a record, in order of issue. -/
def State.joined (s : State) (sig seq : Nat) : List Request :=
  s.requests.filter fun r => r.source.owner.1 == sig && (match r.stage with | .faulted _ _ k => k == seq | _ => false)

/-- The copies of a signature that wait on a record go on. -/
def State.releaseCopies (s : State) (sig seq : Nat) : State :=
  let g := s.sig sig
  s.setSig sig { g with ctxs := g.ctxs.map fun (k, c) => (k, if c.hold = some seq then { c with hold := none } else c) }

/-- The requests of a record are issued again, each checked anew, as soon as their ports have room; those of an image wait for the restore. -/
def State.retryRequests (s : State) (sig seq : Nat) : State :=
  let rs := s.joined sig seq
  let s := rs.foldl (fun s r => s.updateRequest r.resolved) (s.releaseCopies sig seq)
  if s.onFabric sig then s.reissueResolved sig (!s.runs sig) else s

/-- What an accepted RETRY does: the requests of the record are issued again, or the spine performs its slot again. -/
def State.applyRetry (s : State) (vif seq : Nat) (r : FaultRecord) : State :=
  if r.sig = 0 then (match s.heldDma vif seq with | some d => s.setDma { d with hold := none } | none => s)
  else if r.disp = 1 || r.request ≠ 0 then (s.retryRequests r.sig seq).liftStop r.sig
  else (s.answeredSpine r.sig Spine.again).liftStop r.sig

/-- FRESP_RETRY (R351, R353, R354, R395). -/
def execFrespRetry (vif seq : Nat) (s : State) : Host.Outcome State Fault Refusal :=
  match s.acceptAnswer vif seq 2 with
  | (s, none) => .next s
  | (s, some r) => .next (if s.answerParked r then s.parkAnswer vif seq 2 else s.applyRetry vif seq r)

/-! ### Debug stops (R322, R395, R396) -/

/-- DEBUG_STOP (R322): with ARM = 1. -/
def execDebugStop (vif cause code : Nat) (s : State) : Host.Outcome State Fault Refusal :=
  .next (if (s.iface vif).armed then s.debugStop vif cause code else s)

/-- Step timers that a debug stop paused go on where they stood when it was taken (R324). -/
def State.resumeTimers (s : State) : State :=
  { s with colls := s.colls.map fun (c : CollStep) => { c with lastFrame := s.clock.oscillator - (s.debugger.since - c.lastFrame) } }

/-- An answer that waited for RESUME takes effect, unless its record has lapsed since. -/
def State.applyAnswer (s : State) (x : Nat × Nat × Nat) : State :=
  match (s.iface x.1).record x.2.1 with
  | none => s
  | some r =>
    if s.recordLapsed r then s
    else if x.2.2 = 0 then s.applyAbort x.1 x.2.1 r
    else if x.2.2 = 1 then s.applyResume r
    else s.applyRetry x.1 x.2.1 r

/-- Every debug freeze wave is lifted in one wall cycle, that of a signature that was saved since too, and the spines that stood at a breakpoint go on;
what waited for RESUME is requested, or takes effect (R395, R396). -/
def State.debugResume (s : State) : State :=
  if !s.debugger.stopped then s
  else
    let s := s.resumeTimers
    let answers := s.debugger.answers
    let s : State := { s with debugger := { s.debugger with stopped := false, answers := [] } }
    let s := (s.sigs.map (·.1)).foldl (fun s n => (s.liftWave n .debug).unparkWaves n) s
    let s := s.placedSigs.foldl (fun s n => s.setSpineOf n { s.spineOf n with breakpoint := false }) s
    answers.foldl State.applyAnswer s

/-- DBG_RESUME (R320, R322). -/
def execDbgResume (_vif : Nat) (s : State) : Host.Outcome State Fault Refusal := .next s.debugResume

/-! ### Uncorrectable errors (R368, R369) -/

/-- An element register, or a ring descriptor, is poisoned: the kinds of R323. -/
def Element.poisonRegister (e : Element) (kind index : Nat) : Element :=
  match kind with
  | 0 => { e with v := e.v.set VReg.zero index { e.v.get VReg.zero index with poison := true } }
  | 1 => { e with a := e.a.set AReg.zero index { e.a.get AReg.zero index with poison := true } }
  | 2 => { e with s := e.s.set (Tagged.zero 32) index { e.s.get (Tagged.zero 32) index with poison := true } }
  | 3 => { e with k := e.k.set (Tagged.zero 64) index { e.k.get (Tagged.zero 64) index with poison := true } }
  | 4 => { e with b := e.b.set (Tagged.zero 64) index { e.b.get (Tagged.zero 64) index with poison := true } }
  | 6 => { e with ring := e.ring.set (Tagged.zero 16) index { e.ring.get (Tagged.zero 16) index with poison := true } }
  | _ => e

/-- Whether a kind has a tagged register of an index (R49); k0 is none. -/
def isRegister (kind index : Nat) : Bool := index < [28, 8, 16, 8, 8, 0, 4].getD kind 0 && !(kind == 3 && index == 0)

def Element.poisonGranule (e : Element) (g : Nat) : Element :=
  { e with pad := e.pad.set (Tagged.zero 512) g { e.pad.get (Tagged.zero 512) g with poison := true } }

/-- An error in what a signature runs on: END (class 8). -/
def State.signatureError (s : State) (sig : Nat) : State :=
  if !s.onFabric sig then s
  else
    let g := s.sig sig
    let info : FaultInfo := { FaultInfo.report 0x18 0 8 0 with disp := 3, sig, offset := s.codeOffset sig, time := g.time }
    (s.report g.vif info).endByFault sig

/-- An entry that the class-9 places hold: of the edge TLB, a key cache, a spine's read-ahead, or a stream's. -/
inductive CachedEntry where
  | tlb (i : Nat)
  | key (i : Nat)
  | spine (sig unit : Nat)
  | stream (sig ctx tag : Nat)
  deriving DecidableEq, Repr

def State.cachedEntries (s : State) : List CachedEntry :=
  (List.range s.tlb.length).map .tlb ++ (List.range s.keyCache.length).map .key
    ++ (s.placedSigs.flatMap fun n => (s.spineOf n).readAhead.map fun e => .spine n e.unit)
    ++ s.placedSigs.flatMap fun n => ((s.sig n).ctxs.filter (·.2.kind = .stream)).flatMap fun x => x.2.units.map fun u => .stream n x.1 u.1

/-- One of them is dropped, to be fetched again (class 9). (log 57, DEDUCED) -/
def State.dropCached (s : State) : State :=
  let all := s.cachedEntries
  let s' : State := { s with free := s.free + 1 }
  match all[Config.choice s.free % max 1 all.length]? with
  | none => s'
  | some (.tlb i) => { s' with tlb := s.tlb.eraseIdx i }
  | some (.key i) => { s' with keyCache := s.keyCache.eraseIdx i }
  | some (.spine n u) => s'.dropReadAhead n u
  | some (.stream n key tag) => s'.refetchUnit n key tag

/-- The gap record that counts a record struck out of an area of a name. -/
def struckGap (r : TraceRecord) (place : Nat) (unsync : Bool) (seq : Nat) : TraceRecord :=
  withSeq (traceRecord (r.extractLsb' 0 64).toNat unsync 0 0 place [] 0xFF 3 (dropCount r)) seq

/-- A record of a trace area is dropped and counted (class 10, R318): in the gap record of the current run, or in a new one. The gap record of the
current run keeps its count. -/
def TraceArea.strike (a : TraceArea) (i place : Nat) (unsync : Bool) : TraceArea :=
  let r := a.records.getD i 0
  let rest := a.records.eraseIdx i
  match a.run place with
  | some k =>
    if k = i then a
    else
      let g := if i < k then k - 1 else k
      { a with records := raiseCount rest g (dropCount r), gap := some g }
  | none => { records := rest ++ [struckGap r place unsync a.inserted], inserted := a.inserted + 1, gap := some rest.length }

/-- The wrapped key of a slot is hit: its epoch's requests fail (class 6). -/
def State.strikeKey (s : State) (slot : Nat) : State :=
  let k := s.keySlot slot
  if k.live && !k.broken.contains k.epoch then s.setKeySlot slot { k with broken := k.broken ++ [k.epoch] } else s

/-- A record that stands in the ring is dropped, and a gap record in its place counts it. -/
def State.strikeRing (s : State) (i : Nat) : State :=
  let gap (x : Nat × TraceRecord) : TraceRecord := struckGap x.2 0xFFFF (!s.clock.synced) (traceSeq x.2).toNat
  let ring := s.platform.ring.map fun x => if x.1 = i then (x.1, gap x) else x
  { s with platform := { s.platform with ring } }

/-- Where a trace record can be hit: a staging area of the die, its buffer, or the trace ring. -/
def State.traceRecords (s : State) (die : Nat) : List (Nat × Nat) :=
  let at_ (place n : Nat) : List (Nat × Nat) := (List.range n).map fun i => (place, i)
  ((List.range 32).flatMap fun k => at_ k (s.folio (dieFolio die k).1 (dieFolio die k).2).staging.records.length)
    ++ at_ 32 (s.dieBuffers.get DieBuffer.zero die).area.records.length ++ at_ 33 s.platform.ring.length

/-- A trace record of a die, or of the ring, is dropped and counted; one of the ring leaves a gap record in its place. (log 57, DEDUCED) -/
def State.dropTrace (s : State) (die : Nat) : State :=
  let all := s.traceRecords die
  let unsync := !s.clock.synced
  let s' : State := { s with free := s.free + 1 }
  match all[Config.choice s.free % max 1 all.length]? with
  | none => s'
  | some (place, i) =>
    if place < 32 then
      let (row, col) := dieFolio die place
      let f := s.folio row col
      s'.setFolio row col { f with staging := f.staging.strike i (row + col * 2 ^ 8) unsync }
    else if place = 32 then
      let b := s.dieBuffers.get DieBuffer.zero die
      { s' with dieBuffers := s.dieBuffers.set DieBuffer.zero die { b with area := b.area.strike i 0xFFFF unsync } }
    else
      match s.platform.ring[i]? with
      | some x => s'.strikeRing x.1
      | none => s'

/-- An error in a unit of memory: the unit is poisoned. In the carve-out it is also an error in what its layout puts there; a unit of the ring holds
two records. What of the image store an image takes is the bindery's, and its errors come as the image's own. -/
def State.strikeUnit (s : State) (unit : Nat) : State :=
  if s.poisonedUnits.contains unit || (homeOf (64 * unit)).isNone then s
  else
    let s : State := { s with poisonedUnits := s.poisonedUnits ++ [unit] }
    match s.carved (64 * unit) with
    | some (.keySlot n) => s.strikeKey n
    | some (.ringPlace i) => (s.strikeRing i).strikeRing (i + 1)
    | _ => s

/-- UNCORRECTABLE_ERROR (R368): a register, granule or unit is poisoned until it is used or written whole; the other places take their
disposition at once. -/
def execUncorrectableError (place : ErrorPlace) (s : State) : Host.Outcome State Fault Refusal :=
  match place with
  | .elementRegister row col kind index =>
    .next (if isRegister kind index then s.setElement row col ((s.element row col).poisonRegister kind index) else s)
  | .granule row col index => .next (if index < 1536 then s.setElement row col ((s.element row col).poisonGranule index) else s)
  | .memoryUnit unit => .next (s.strikeUnit unit)
  | .wrappedKey slot => .next (s.strikeKey slot)
  | .loadingPlane folio plane =>
    .next (if ((s.folio (folio / 24) (folio % 24)).plane plane).state == .loading then s.loadFailed folio plane else s)
  | .signatureLogic sig => .next (s.signatureError sig)
  | .cache => .next s.dropCached
  | .traceRecord die => .next (s.dropTrace die)
  | .savedImage sig =>
    let g := s.sig sig
    .next (if g.status == .starting && !g.image.isEmpty then s.unplace sig else s)

end Sys2Proof.Machine
end

