-- ==== Sys2Proof/Machine/Attest.lean ====
section
/-!
DEFINITION. SPDM attestation (R333): the eight requests of a path and the responses. The spec names the requests and what is supported;
the messages are those of DMTF SPDM 1.2 (log 16, PRESUMED).
-/

namespace Sys2Proof.Machine

/-- The number of a path: the host link's management channel, or MCTP over the board bus. -/
def pathIndex (path : Bool) : Nat := if path then 1 else 0

def State.spdm (s : State) (path : Bool) : Spdm := s.platform.spdm.get Spdm.zero (pathIndex path)

/-- A path's new connection state; the other path's is kept. -/
def State.setSpdm (s : State) (path : Bool) (c : Spdm) : State :=
  { s with platform := { s.platform with spdm := s.platform.spdm.set Spdm.zero (pathIndex path) c } }

/-- The four bytes that begin a message. -/
def spdmHead (version code param1 param2 : Nat) : List Byte :=
  bytesOf 1 version ++ bytesOf 1 code ++ bytesOf 1 param1 ++ bytesOf 1 param2

/-- Error codes of an ERROR response. -/
def spdmInvalid : Nat := 1
def spdmUnexpected : Nat := 4
def spdmUnsupported : Nat := 7

/-- An ERROR response leaves the connection as it is. -/
def State.spdmError (s : State) (path : Bool) (code data : Nat) : State :=
  s.setSpdm path { s.spdm path with response := spdmHead 0x12 0x7F code data }

/-- A response: the exchange joins the transcript, and the connection reaches a stage. -/
def State.spdmAnswer (s : State) (path : Bool) (stage : Nat) (request response : List Byte) : State :=
  let c := s.spdm path
  s.setSpdm path { stage, transcript := c.transcript ++ request ++ response, response }

/-- A request that needs algorithms agreed first. -/
def State.spdmReady (s : State) (path : Bool) (f : State → State) : State :=
  if !s.serving then s
  else if (s.spdm path).stage = 3 then f s
  else s.spdmError path spdmUnexpected 0

/-- GET_VERSION (R333): version 1.2 only; the connection begins anew. -/
def execGetVersion (path : Bool) (s : State) : Host.Outcome State Fault Refusal :=
  if !s.serving then .next s
  else
    let s := s.setSpdm path Spdm.zero
    .next (s.spdmAnswer path 1 (spdmHead 0x10 0x84 0 0) (spdmHead 0x10 0x04 0 0 ++ [0, 1] ++ bytesOf 2 0x1200))

/-- CERT_CAP, CHAL_CAP, and MEAS_CAP with signature. -/
def spdmFlags : Nat := 0x16

/-- GET_CAPABILITIES (R333). -/
def execGetCapabilities (path : Bool) (s : State) : Host.Outcome State Fault Refusal :=
  if !s.serving then .next s
  else if (s.spdm path).stage ≠ 1 then .next (s.spdmError path spdmUnexpected 0)
  else
    let sizes := Config.spdmSizes
    .next (s.spdmAnswer path 2 (spdmHead 0x12 0xE1 0 0 ++ bytesOf 16 0)
      (spdmHead 0x12 0x61 0 0 ++ [0] ++ bytesOf 1 (sizes.extractLsb' 0 8).toNat ++ [0, 0] ++ bytesOf 4 spdmFlags
        ++ bytesOf 8 (sizes.extractLsb' 8 64).toNat))

/-- NEGOTIATE_ALGORITHMS (R333): ECDSA P-384 and SHA-384; any other set fails with an error response. -/
def execNegotiateAlgorithms (path : Bool) (asym hash : BitVec 32) (s : State) : Host.Outcome State Fault Refusal :=
  if !s.serving then .next s
  else if (s.spdm path).stage ≠ 2 then .next (s.spdmError path spdmUnexpected 0)
  else if asym ≠ 0x80 ∨ hash ≠ 0x02 then .next (s.spdmError path spdmInvalid 0)
  else
    let request := spdmHead 0x12 0xE3 0 0 ++ bytesOf 2 32 ++ [1, 0] ++ bytesOf 4 asym.toNat ++ bytesOf 4 hash.toNat ++ bytesOf 16 0
    let response := spdmHead 0x12 0x63 0 0 ++ bytesOf 2 36 ++ [1, 0] ++ bytesOf 4 4 ++ bytesOf 4 0x80 ++ bytesOf 4 0x02 ++ bytesOf 16 0
    .next (s.spdmAnswer path 3 request response)

/-- GET_DIGESTS (R333): slot 0 alone. -/
def execGetDigests (path : Bool) (s : State) : Host.Outcome State Fault Refusal :=
  .next (s.spdmReady path fun s =>
    s.spdmAnswer path 3 (spdmHead 0x12 0x81 0 0) (spdmHead 0x12 0x01 0 1 ++ sha384 Config.certificateChain))

/-- GET_CERTIFICATE (R333): slot 0's chain. -/
def execGetCertificate (path : Bool) (slot : BitVec 8) (s : State) : Host.Outcome State Fault Refusal :=
  .next (s.spdmReady path fun s =>
    if slot ≠ 0 then s.spdmError path spdmInvalid 0
    else
      let chain := Config.certificateChain
      s.spdmAnswer path 3 (spdmHead 0x12 0x82 0 0 ++ bytesOf 2 0 ++ bytesOf 2 0xFFFF)
        (spdmHead 0x12 0x02 0 0 ++ bytesOf 2 chain.length ++ bytesOf 2 0 ++ chain))

/-- The measurement block of an index from 1 to 16: its register as a DMTF-format raw digest. -/
def Platform.measurementBlock (p : Platform) (index : Nat) : List Byte :=
  let kind := [0, 1, 1, 2, 3, 1].getD (index - 1) 1
  bytesOf 1 index ++ [1] ++ bytesOf 2 51 ++ bytesOf 1 kind ++ bytesOf 2 48 ++ digestBytes (p.measurements.get 0 (index - 1))

def Platform.measurementBlocks (p : Platform) (indices : List Nat) : List Byte := indices.flatMap p.measurementBlock

/-- A signed response: its nonce is drawn, and the signature covers the transcript up to it. -/
def State.spdmSigned (s : State) (path : Bool) (request : List Byte) (before after : List Byte) : State :=
  let nonce := bytesOf 32 (Config.random s.free).toNat
  let body := before ++ nonce ++ after
  let signature := Config.attestationSignature (digestBits (sha384 ((s.spdm path).transcript ++ request ++ body)))
  { s with free := s.free + 1 }.spdmAnswer path 3 request (body ++ bytesOf 96 signature.toNat)

/-- CHALLENGE (R333): a summary of all measurements, or none. -/
def execChallenge (path : Bool) (slot summary : BitVec 8) (nonce : BitVec 256) (s : State) : Host.Outcome State Fault Refusal :=
  .next (s.spdmReady path fun s =>
    if slot ≠ 0 ∨ (summary ≠ 0 ∧ summary ≠ 0xFF) then s.spdmError path spdmInvalid 0
    else
      let all := s.platform.measurementBlocks (List.range' 1 16)
      s.spdmSigned path (spdmHead 0x12 0x83 slot.toNat summary.toNat ++ bytesOf 32 nonce.toNat)
        (spdmHead 0x12 0x03 0 1 ++ sha384 Config.certificateChain) ((if summary = 0 then [] else sha384 all) ++ bytesOf 2 0))

/-- GET_MEASUREMENTS (R333): indices 1 to 16, or 0xFF for all of them. -/
def execGetMeasurements (path : Bool) (index : BitVec 8) (nonce : BitVec 256) (s : State) : Host.Outcome State Fault Refusal :=
  let i := index.toNat
  .next (s.spdmReady path fun s =>
    if i ≠ 0xFF ∧ (i = 0 ∨ 16 < i) then s.spdmError path spdmInvalid 0
    else
      let indices := if i = 0xFF then List.range' 1 16 else [i]
      let record := s.platform.measurementBlocks indices
      s.spdmSigned path (spdmHead 0x12 0xE0 1 i ++ bytesOf 32 nonce.toNat ++ [0])
        (spdmHead 0x12 0x60 0 0 ++ bytesOf 1 indices.length ++ bytesOf 3 record.length ++ record) (bytesOf 2 0))

/-- UNSUPPORTED_REQUEST (R333). -/
def execUnsupportedRequest (path : Bool) (code : BitVec 8) (s : State) : Host.Outcome State Fault Refusal :=
  .next (if s.serving then s.spdmError path spdmUnsupported code.toNat else s)

end Sys2Proof.Machine
end

