-- ==== Sys2Proof/Machine/Collectives.lean ====
section
/-!
DEFINITION. Collective steps and their frames (R179, R311 to R314, R326, R392 to R394), and the precision-time clock (R309, R310).
-/

namespace Sys2Proof.Machine

/-! ### Step blocks (R179) -/

def CollStep.count (c : CollStep) : Nat := ((blockWord c.block 3).extractLsb' 0 32).toNat
def CollStep.op (c : CollStep) : Nat := ((blockWord c.block 3).extractLsb' 32 4).toNat
def CollStep.dt (c : CollStep) : Nat := ((blockWord c.block 3).extractLsb' 36 2).toNat
def CollStep.peer (c : CollStep) : Nat := ((blockWord c.block 3).extractLsb' 40 16).toNat
def CollStep.grp (c : CollStep) : BitVec 32 := (blockWord c.block 4).extractLsb' 0 32
def CollStep.ggen (c : CollStep) : BitVec 32 := (blockWord c.block 4).extractLsb' 32 32
def CollStep.lkey (c : CollStep) : Word := blockWord c.block 5
def CollStep.tmo (c : CollStep) : Nat := ((blockWord c.block 6).extractLsb' 0 32).toNat
/-- Bytes of an element, and elements of a full frame. -/
def CollStep.size (c : CollStep) : Nat := if c.dt = 1 then 2 else 4
def CollStep.perFrame (c : CollStep) : Nat := 8192 / c.size
def CollStep.frames (c : CollStep) : Nat := (c.count + c.perFrame - 1) / c.perFrame
/-- Elements of frame i. -/
def CollStep.elements (c : CollStep) (i : Nat) : Nat := min c.count ((i + 1) * c.perFrame) - min c.count (i * c.perFrame)
/-- Elements completed so far. -/
def CollStep.completed (c : CollStep) : Nat := c.finished.foldl (fun n i => n + c.elements i) 0

def State.setColl (s : State) (c : CollStep) : State := { s with colls := s.colls.map fun x => if x.id = c.id then c else x }
def State.coll (s : State) (id : Nat) : Option CollStep := s.colls.find? (·.id = id)

/-- A number of microseconds in the oscillator's units of 0.4 ns, which pass at one rate in every state (R310). -/
def microseconds (n : Nat) : Nat := n * 2500

/-! ### Groups (R311, R313) -/

def State.group (s : State) (vif : Nat) (grp : BitVec 32) : Option Group := s.groups.find? fun g => g.vif == vif && g.grp == grp
def State.setGroup (s : State) (g : Group) : State :=
  { s with groups := s.groups.map fun x => if x.vif = g.vif && x.grp = g.grp then g else x }

/-! ### The end of a step (R179, R316) -/

/-- A step's trace record at its engine's die buffer. -/
def State.traceColl (s : State) (c : CollStep) (event low : Nat) : State :=
  s.traceDie c.die c.vif c.sig (s.spineAnywhere c.sig).region event 3 (low % 2 ^ 52 + c.number % 4096 * 2 ^ 52)

/-- A receive or reduce that has completed is remembered in its group, whose peer may still retransmit to it. -/
def State.keepEnded (s : State) (c : CollStep) (status : Nat) : State :=
  { s with groups := s.groups.map fun g =>
      if g.vif = c.vif && g.grp = c.grp && status = 0 && c.op ≠ 0 then { g with ended := g.ended ++ [c] } else g }

/-- A step ends: its status is written, its record emitted, its CDONE raised, and its handle freed. -/
def State.endColl (s : State) (id status : Nat) : State :=
  match s.coll id with
  | none => s
  | some c =>
    let stat := blockWord c.block 2
    let s :=
      if stat = 0 then s
      else
        match s.writeVirtual c.vif stat 8 status with
        | .ok s => s
        | .error _ => s.completionFailed c.vif 6 c.sig 1 stat
    let s := s.traceColl c 0x0011 (c.completed + status * 2 ^ 32)
    let s := s.completionAdd c.vif 6 c.sig (blockWord c.block 1)
    let s := { s with colls := s.colls.filter (·.id ≠ id) }.keepEnded c status
    if (s.ctx c.sig c.ctx).kind == .coll && (s.ctx c.sig c.ctx).step == id then s.setCtx c.sig c.ctx Ctx.free else s

/-- The frame counter of a group in a generation: it goes on where it stood, so that no value is used twice in a generation (R313; log 15, DESIGN
CHOICE). -/
def Group.counterFor (g : Group) (ggen : BitVec 32) : Nat :=
  if g.ggen = ggen then g.counter else ((g.spent.find? (·.1 = ggen)).map (·.2)).getD 0

/-- What the frame counters of the generations other than one have reached. -/
def Group.spentAt (g : Group) (ggen : BitVec 32) : List (BitVec 32 × Nat) := ((g.ggen, g.counter) :: g.spent).filter (·.1 ≠ ggen)

/-- The group in its next generation. -/
def Group.advanced (g : Group) : Group :=
  { g with ggen := g.ggen + 1, counter := g.counterFor (g.ggen + 1), spent := g.spentAt (g.ggen + 1) }

/-- Every step in progress on a group ends GROUP_STALE. -/
def State.staleGroup (s : State) (vif : Nat) (grp : BitVec 32) : State :=
  ((s.colls.filter fun c => c.started && c.vif == vif && c.grp == grp).map (·.id)).foldl (fun s id => s.endColl id 2) s

/-! ### Frames (R313) -/

/-- The 32-byte header; the spec gives its size and not its layout (log 15, DESIGN CHOICE). -/
def frameHeader (f : Frame) : List Byte :=
  let kind := match f.kind with | .grant => 0 | .data => 1 | .ack => 2
  bytesOf 1 kind ++ bytesOf 1 f.dt.toNat ++ bytesOf 4 f.grp.toNat ++ bytesOf 4 f.ggen.toNat ++ bytesOf 2 f.sender.toNat
    ++ bytesOf 2 f.dest.toNat ++ bytesOf 6 f.counter.toNat ++ bytesOf 4 f.step ++ bytesOf 4 f.index ++ bytesOf 4 f.count.toNat

/-- GGEN ‖ sender rank ‖ frame counter. -/
def frameNonce (f : Frame) : List Byte := bytesOf 4 f.ggen.toNat ++ bytesOf 2 f.sender.toNat ++ bytesOf 6 f.counter.toNat

def frameTag (f : Frame) (key : BitVec 256) : BitVec 128 := gcmTag (bytesOf 32 key.toNat) (frameNonce f) (frameHeader f) f.bytes
def frameCrypt (f : Frame) (key : BitVec 256) : List Byte := gcmCrypt (bytesOf 32 key.toNat) (frameNonce f) f.bytes

/-- Whether a step's frames find a port that is up (R394). -/
def State.portFor (s : State) (c : CollStep) : Bool :=
  match c.port with
  | some e => s.platform.ethUp.getLsbD e
  | none => s.platform.ethUp != 0

/-- The UDP port of collective frames (R313, R341). -/
def Platform.udpPort (p : Platform) : BitVec 16 := p.ethcfg.extractLsb' 32 16

/-- A step sends a frame to its peer's addresses: it takes the group's next counter; one whose counter would wrap ends the group's steps instead
(R311, R313). -/
def State.sendFrame (s : State) (c : CollStep) (g : Group) (kind : FrameKind) (index : Nat) (plain : List Byte) : State × Option Frame :=
  if 2 ^ 48 ≤ g.counter + 1 then (s.staleGroup g.vif g.grp, none)
  else if !s.portFor c then (s, none)
  else
    match g.members[c.peer]? with
    | none => (s, none)
    | some m =>
    let f : Frame :=
      { kind, port := s.platform.udpPort, address := m.address, mac := m.mac, grp := g.grp, ggen := g.ggen
        sender := BitVec.ofNat 16 g.rank, dest := BitVec.ofNat 16 c.peer
        counter := BitVec.ofNat 48 g.counter, step := c.pairIndex, index, count := BitVec.ofNat 32 c.count, dt := BitVec.ofNat 2 c.dt
        bytes := plain, tag := 0, fcs := true }
    let f := { f with bytes := frameCrypt f g.key }
    let f := { f with tag := frameTag f g.key }
    ({ s.setGroup { g with counter := g.counter + 1 } with sentFrames := f :: s.sentFrames }, some f)

/-- A frame with a bad FCS is dropped and counted, whatever it was sent as (R309). -/
def State.dropBadFcs (s : State) : State := { s with platform := { s.platform with badFcs := s.platform.badFcs + 1 } }

/-- The group that a frame names, if it authenticates there under the current generation; otherwise it is discarded and counted. What comes to
another port is no frame. -/
def State.authenticate (s : State) (f : Frame) : State × Option Group :=
  if !f.fcs then (s.dropBadFcs, none)
  else if f.port ≠ s.platform.udpPort then (s, none)
  else
  match s.groups.find? fun g => g.grp == f.grp && g.rank == f.dest.toNat && f.tag == frameTag f g.key with
  | some g => if f.ggen = g.ggen then (s, some g) else (s.setGroup { g with discarded := g.discarded + 1 }, none)
  | none =>
    ({ s with groups := s.groups.map fun g => if g.grp = f.grp && g.rank = f.dest.toNat then { g with discarded := g.discarded + 1 } else g },
      none)

/-- The step of a group that a frame belongs to: a send for grants and acknowledgements, a receive or reduce for data (R314). -/
def State.stepFor (s : State) (g : Group) (f : Frame) (send : Bool) : Option CollStep :=
  s.colls.find? fun c =>
    c.started && c.vif == g.vif && c.grp == g.grp && c.peer == f.sender.toNat && c.pairIndex == f.step && (c.op == 0) == send

/-- The completed receive or reduce that a data frame belongs to. -/
def Group.endedFor (g : Group) (f : Frame) : Option CollStep := g.ended.find? fun c => c.peer == f.sender.toNat && c.pairIndex == f.step

def CollStep.matches (c : CollStep) (f : Frame) : Bool := f.count.toNat == c.count && f.dt.toNat == c.dt

def State.discardFrame (s : State) (g : Group) : State := s.setGroup { g with discarded := g.discarded + 1 }

/-! ### The local buffer (R179) -/

/-- The status that a failed access to LADDR ends a step with. -/
def CopyFault.status : CopyFault → Nat
  | .check f => if f.code = 0x0A then 3 else 4
  | .retired _ => 3

/-- n bytes at a byte offset of the local buffer, as a number. -/
def State.localRead (s : State) (c : CollStep) (off n : Nat) : Except CopyFault Nat :=
  (List.range ((n + 63) / 64)).foldl (fun (acc : Except CopyFault Nat) i =>
    match acc with
    | .error f => .error f
    | .ok x =>
      match s.copyRead c.die c.vif (blockWord c.block 0 + BitVec.ofNat 64 (off + 64 * i)) c.lkey with
      | .error f => .error f
      | .ok (_, v) => .ok (x + v.toNat % 2 ^ (8 * min 64 (n - 64 * i)) * 2 ^ (512 * i))) (.ok 0)

/-- Store n bytes; all units are checked before any counts. -/
def State.localWrite (s : State) (c : CollStep) (off n data : Nat) : Except CopyFault State :=
  (List.range ((n + 63) / 64)).foldl (fun (acc : Except CopyFault State) i =>
    match acc with
    | .error f => .error f
    | .ok s =>
      let va := blockWord c.block 0 + BitVec.ofNat 64 (off + 64 * i)
      let mask : Vec := BitVec.ofNat 512 (2 ^ (8 * min 64 (n - 64 * i)) - 1)
      match s.copyAccess c.die c.vif va c.lkey [.wr] with
      | .error f => .error f
      | .ok (s, pa, k) =>
        if mask ≠ -1 && s.poisonedUnits.contains (pa / 64) then .error (.check ⟨0x18, 4⟩)
        else .ok (s.putUnit k pa (va.toNat / 64) (BitVec.ofNat 512 (data / 2 ^ (512 * i))) mask)) (.ok s)

/-- One reduced element: sums round by the captured mode with SR as RNE; maxima and minima as FMAX and FMIN (R122, R179). -/
def reduceElement (op dt : Nat) (mode : BitVec 8) (a b : Nat) : Nat :=
  if dt = 2 then
    (match op with
     | 2 => (a + b) % 2 ^ 32
     | 3 => if sint a 32 ≤ sint b 32 then b else a
     | _ => if sint a 32 ≤ sint b 32 then a else b)
  else
    let f := if dt = 0 then fp32 else bf16
    match op with
    | 2 =>
      let drm := (mode.extractLsb' 4 3).toNat
      let drm := if drm = 4 then 0 else drm
      convertTo f ⟨drm, 0, capturedOvf mode⟩ (FVal.sum drm [readFormat f a, readFormat f b])
    | 3 => floatMinMax (floatFormat f) true a b
    | _ => floatMinMax (floatFormat f) false a b

/-- The elements of a frame reduced into the local ones. -/
def CollStep.reduce (c : CollStep) (elements mine incoming : Nat) : Nat :=
  if c.op = 1 then incoming
  else
    let w := 8 * c.size
    (List.range elements).foldl (fun acc i =>
      acc + reduceElement c.op c.dt c.mode (bitsOf mine (w * i) w) (bitsOf incoming (w * i) w) * 2 ^ (w * i)) 0

/-! ### Sending (R314) -/

/-- Frame i leaves a send: LADDR is read as it leaves; a local fault ends the step. During a debug stop the engine sends nothing (R322). -/
def State.sendData (s : State) (id i : Nat) : State :=
  match if s.debugger.stopped then none else s.coll id with
  | none => s
  | some c =>
    match s.group c.vif c.grp with
    | none => s
    | some g =>
      let n := c.elements i * c.size
      match s.localRead c (8192 * i) n with
      | .error f => s.endColl id f.status
      | .ok x =>
        match s.sendFrame c g .data i (bytesOf n x) with
        | (s, none) => s
        | (s, some f) =>
          match s.coll id with
          | none => s
          | some c => s.setColl { c with sent := c.sent.filter (·.frame.index ≠ i) ++ [{ frame := f, sentAt := s.clock.oscillator }] }

/-- A send transmits every frame it holds allowance for. -/
def State.pumpSend (s : State) (id : Nat) : State :=
  match s.coll id with
  | none => s
  | some c =>
    let n := min c.allowance c.frames
    let s := (List.range (n - c.nextFrame)).foldl (fun s k => s.sendData id (c.nextFrame + k)) s
    match s.coll id with
    | none => s
    | some c => s.setColl { c with nextFrame := max c.nextFrame n }

/-- A send is granted its frames. -/
def State.granted (s : State) (c : CollStep) (f : Frame) : State :=
  (s.setColl { c with allowance := max c.allowance f.index, lastFrame := s.clock.oscillator }).pumpSend c.id

/-! ### The events of a step -/

/-- The place of a step among those of its ordered pair, and its group once it has taken it (R314): a grant that came before a send goes with the
send's place. -/
def Group.takePlace (g : Group) (c : CollStep) : Nat × Group :=
  if c.op = 0 then
    let k := g.sends.get 0 c.peer
    (k, { g with
      sends := g.sends.set 0 c.peer (k + 1)
      grants := g.grants.filter fun f => !(f.sender.toNat == c.peer && f.step == k) })
  else
    let k := g.receives.get 0 c.peer
    (k, { g with receives := g.receives.set 0 c.peer (k + 1) })

/-- A step enters the matching of R314: a receive or reduce grants its peer all its frames; a send takes a grant that came before it. -/
def State.beginMatching (s : State) (c : CollStep) (g : Group) : State :=
  let (k, after) := g.takePlace c
  let c := { c with pairIndex := k }
  let s := (s.setGroup after).setColl c
  if c.op = 0 then
    match g.grants.find? fun f => f.sender.toNat == c.peer && f.step == k with
    | some f => if c.matches f then s.granted c f else s
    | none => s
  else (s.sendFrame c after .grant c.frames []).1

/-- Whether a step issued earlier is to be taken first: one of the same signature, or of the same ordered pair of ranks (R314, R326;
log 85, DEDUCED). -/
def State.stepWaits (s : State) (c : CollStep) : Bool :=
  s.colls.any fun x => !x.started && decide (x.id < c.id) &&
    (x.sig == c.sig || (x.vif == c.vif && x.grp == c.grp && x.peer == c.peer && (x.op == 0) == (c.op == 0)))

/-- COLL_STEP_START (R179, R314, R316, R326): the engine takes a step from its handle once the spine's earlier stores are performed, and not
during a debug stop (R322). -/
def execCollStepStart (step : Nat) (s : State) : Host.Outcome State Fault Refusal :=
  match s.coll step with
  | none => .next s
  | some c =>
    if c.started || s.forkOpen c.sig (s.ctx c.sig c.ctx).fork || s.stepWaits c || s.debugger.stopped then .next s
    else
      let g := s.group c.vif c.grp
      -- a step of a group that is not formed has no number of the spec's
      let number := match g with | some g => g.steps | none => Config.choice s.free
      let c := { c with started := true, number, lastFrame := s.clock.oscillator }
      let s := { s with free := s.free + 1 }.setColl c
      let s := match g with | some g => s.setGroup { g with steps := g.steps + 1 } | none => s
      let s := s.traceColl c 0x0010 (c.grp.toNat + c.peer * 2 ^ 32 + c.op * 2 ^ 48)
      if c.count = 0 then .next (s.endColl step 0)
      else
        match s.group c.vif c.grp with
        | none => .next (s.endColl step 2)
        | some g =>
          let (slot, gen, kw) := keyFields c.lkey
          if g.ggen ≠ c.ggen then .next (s.endColl step 2)
          else if !s.keyValid c.vif slot gen kw then .next ((s.setGroup (g.takePlace c).2).endColl step 3)
          else .next (s.beginMatching c g)

/-- COLL_GRANT_RECEIVE (R314). -/
def execCollGrantReceive (frame : Frame) (s : State) : Host.Outcome State Fault Refusal :=
  match s.authenticate frame with
  | (s, none) => .next s
  | (s, some g) =>
    match s.stepFor g frame true with
    | some c => .next (if c.matches frame then s.granted c frame else s.discardFrame g)
    | none =>
      if g.sends.get 0 frame.sender.toNat ≤ frame.step then .next (s.setGroup { g with grants := g.grants ++ [frame] })
      else .next s

/-- A data frame's elements are written or reduced into the local buffer; the last one completes the step. -/
def State.landFrame (s : State) (c : CollStep) (g : Group) (frame : Frame) : State :=
  let n := c.elements frame.index * c.size
  let incoming := natOf (frameCrypt frame g.key)
  let off := 8192 * frame.index
  let written : Except CopyFault State :=
    if c.op = 1 then s.localWrite c off n (incoming % 2 ^ (8 * n))
    else
      match s.localRead c off n with
      | .error f => .error f
      | .ok mine => s.localWrite c off n (c.reduce (c.elements frame.index) mine incoming)
  match written with
  | .error f => s.endColl c.id f.status
  | .ok s => s.setColl { c with finished := c.finished ++ [frame.index], lastFrame := s.clock.oscillator }

/-- COLL_DATA_FRAME_RECEIVE (R314): each element counts once; a frame that comes again is acknowledged again. -/
def execCollDataFrameReceive (frame : Frame) (s : State) : Host.Outcome State Fault Refusal :=
  match s.authenticate frame with
  | (s, none) => .next s
  | (s, some g) =>
    match s.stepFor g frame false with
    | none =>
      match g.endedFor frame with
      | some c => .next (if c.matches frame then (s.sendFrame c g .ack frame.index []).1 else s.discardFrame g)
      | none => .next s
    | some c =>
      if !c.matches frame || c.frames ≤ frame.index || frame.bytes.length ≠ c.elements frame.index * c.size then .next (s.discardFrame g)
      else
        let s := if c.finished.contains frame.index then s.setColl { c with lastFrame := s.clock.oscillator } else s.landFrame c g frame
        match s.coll c.id, s.group c.vif c.grp with
        | some c, some g =>
          let (s, _) := s.sendFrame c g .ack frame.index []
          .next (if c.finished.length = c.frames then s.endColl c.id 0 else s)
        | _, _ => .next s

/-- COLL_ACK_RECEIVE (R314): the send completes with its last acknowledgement. -/
def execCollAckReceive (frame : Frame) (s : State) : Host.Outcome State Fault Refusal :=
  match s.authenticate frame with
  | (s, none) => .next s
  | (s, some g) =>
    match s.stepFor g frame true with
    | none => .next s
    | some c =>
      if !c.matches frame then .next (s.discardFrame g)
      else
      let fresh := c.sent.any fun f => f.frame.index == frame.index
      let c := { c with
        lastFrame := s.clock.oscillator, sent := c.sent.filter (·.frame.index ≠ frame.index)
        finished := if fresh then c.finished ++ [frame.index] else c.finished }
      let s := s.setColl c
      .next (if c.finished.length = c.frames then s.endColl c.id 0 else s)

/-- COLL_RETRANSMIT (R314): frames unacknowledged for 20 µs are sent again, each under a counter of its own; frames that found no port before
are sent now. -/
def execCollRetransmit (step : Nat) (s : State) : Host.Outcome State Fault Refusal :=
  match s.coll step with
  | none => .next s
  | some c =>
    let due := (c.sent.filter fun f => f.sentAt + microseconds 20 ≤ s.clock.oscillator).map (·.frame.index)
    let unsent := (List.range c.nextFrame).filter fun i => !c.finished.contains i && !c.sent.any fun f => f.frame.index == i
    .next ((due ++ unsent).foldl (fun s i => s.sendData step i) s)

/-- COLL_STEP_TIMEOUT (R314): no authenticated frame of the peer for TMO; the group's generation advances before the status is written. A
debug stop pauses the timer (R324). -/
def execCollStepTimeout (step : Nat) (s : State) : Host.Outcome State Fault Refusal :=
  match s.coll step with
  | none => .next s
  | some c =>
    match s.group c.vif c.grp with
    | none => .next s
    | some g =>
      let tmo := if c.tmo = 0 then g.timeout else c.tmo
      if !c.started || s.debugger.stopped || s.clock.oscillator < c.lastFrame + microseconds tmo then .next s
      else .next (((s.setGroup g.advanced).endColl step 1).staleGroup c.vif c.grp)

/-- ETHERNET_PORT_DOWN (R394): steps bound to the port send nothing further; the others use a port that is up. -/
def execEthernetPortDown (port : Nat) (s : State) : Host.Outcome State Fault Refusal :=
  .next { s with platform := { s.platform with ethUp := s.platform.ethUp &&& ~~~(BitVec.ofNat 8 (2 ^ port)) } }

/-! ### Precision time (R309, R310) -/

/-- The port chosen for precision time. -/
def Platform.ptpPort (p : Platform) : Nat := (p.ethcfg.extractLsb' 16 3).toNat

/-- PTP_MESSAGE_RECEIVE (R309, R310): SYNC follows the measured offset. One-step and two-step messages do the same: a two-step one counts when its
Follow_Up has come. (One whose FCS is bad is no message any more: it comes as a frame that is dropped.) -/
def execPtpMessageReceive (port : Nat) (offset : Int) (s : State) : Host.Outcome State Fault Refusal :=
  .next (if s.platform.ptpPort = port then
    { s with clock := { s.clock with heard := true, missed := 0, synced := offset.natAbs < 1000 } } else s)

/-- A rate within a bound, in ppm. -/
def clampPpm (bound x : Int) : Int := max (-bound) (min bound x)

/-- SERVO_CORRECTION (R310): once after a sync interval with messages; a forward correction is a step, made as the wall cycle ends, and a backward
one is absorbed slowly. -/
def execServoCorrection (phase ratePpm : Int) (s : State) : Host.Outcome State Fault Refusal :=
  if !s.clock.correctable then .next s
  else
    let units := 5000000 * phase.natAbs
    let c := { s.clock with ratePpm := clampPpm 1000 ratePpm, correctable := false }
    .next { s with clock := if 0 ≤ phase then { c with step := c.step + units } else { c with backlog := c.backlog + units } }

/-- SYNC_LOSS (R310): a sync interval has passed; after 16 in a row without a message SYNC is 0. -/
def execSyncLoss (s : State) : Host.Outcome State Fault Refusal :=
  let c := s.clock
  let missed := if c.heard then 0 else c.missed + 1
  .next { s with clock := { c with heard := false, correctable := c.heard, missed, synced := c.synced && missed < 16 } }

/-- What the clock of the chosen port sends, the latest first: a Delay_Req as time receiver; as time transmitter a Sync in two steps, the Sync and its
Follow_Up, an Announce or a Delay_Resp (R309). Where the best master clock algorithm is permitted, the role that it gives, and which message is due,
are open: both rest on what the peers announce. (log 92, DESIGN CHOICE) -/
def Platform.ptpMessages (p : Platform) (port choice : Nat) : List (Nat × Nat) :=
  if p.ethcfg.getLsbD 19 && choice % 2 == 1 then
    (match choice / 2 % 3 with | 0 => [(port, 2), (port, 1)] | 1 => [(port, 3)] | _ => [(port, 4)])
  else [(port, 0)]

/-- PRECISION_TIME_MESSAGE_SEND (R309). -/
def execPrecisionTimeMessageSend (port : Nat) (s : State) : Host.Outcome State Fault Refusal :=
  .next (if s.platform.ptpPort = port && s.platform.ethUp.getLsbD port then
    { s with ptpSent := s.platform.ptpMessages port (Config.choice s.free) ++ s.ptpSent, free := s.free + 1 } else s)

end Sys2Proof.Machine
end

