-- ==== Sys2Proof/Machine/Fabric.lean ====
section
/-!
DEFINITION. Events of a running signature: issue and fetch (R18), landings (R20, R22, R201, R233), waits and holds (R23, R24, R158, R180),
freeze waves (R41) and fault stops (R352), sweeps and seams (R46, R61, R65).
-/

namespace Sys2Proof.Machine

/-! ### Issue and fetch -/

/-- SPINE_EMIT_WORD (R18): one word slot in each cycle in which the signature runs. -/
def execSpineEmitWord (sig : Nat) (s : State) : Host.Outcome State Fault Refusal :=
  if !s.runs sig then .next s
  else
    .next (match (s.spineOf sig).phase with
      | .fetch => s.emitNext sig
      | _ => s.spineOut sig)

/-- FETCH_BLOCK_ARRIVES (R18, R141): a block that passes the fetch checks is opened under the world key. -/
def execFetchBlockArrives (sig block : Nat) (s : State) : Host.Outcome State Fault Refusal :=
  let g := s.sig sig
  let die := dieOf g.row0 g.col0
  let va : Word := BitVec.ofNat 64 (64 * block)
  let placed := g.status == .running || g.status == .draining
  match s.translatePages (some die) g.vif va [.x], s.worldMaterial g.vif with
  | .ok pa, .ok k =>
    if !placed || s.poisonedUnits.contains (pa / 64) then .next s
    else
      let s :=
        match s.tlbHit die g.vif va.toNat, s.walk g.vif va.toNat with
        | none, .ok l => s.fillTlb die g.vif va.toNat l
        | _, _ => s
      let p := s.spineOf sig
      .next (s.setSpineOf sig { p with
        fetched := (block, s.getUnit k pa block) :: p.fetched.filter fun b => b.1 != block
        wanted := p.wanted.filter fun b => b != block })
  | _, _ => .next s

/-! ### Landings -/

/-- RESULT_LANDS (R201, R225): the results due in an element at T land, and then its matrix unit makes the tile reads due. -/
def execResultLands (sig row col : Nat) (s : State) : Host.Outcome State Fault Refusal :=
  if !s.runs sig then .next s
  else
    let t := (s.sig sig).time
    .next (s.setElementOf sig row col (((s.elementOf sig row col).landDue t).readTiles t))

/-- VOTE_RESULT_DELIVERED (R22, R223): results due at T are written to vt in issue order. -/
def execVoteResultDelivered (sig : Nat) (s : State) : Host.Outcome State Fault Refusal :=
  let g := s.sig sig
  if !s.runs sig then .next s
  else
    let due := g.votes.filter fun v => v.due ≤ g.time
    let s := due.foldl (fun s v => s.setSpineOf sig { s.spineOf sig with vt := v.value }) s
    .next (s.setSig sig { s.sig sig with votes := g.votes.filter fun v => g.time < v.due })

/-- The neighbour a direction leads to, and the side it names there. -/
def Dir.to (d : Dir) (row col : Nat) : Nat × Nat × Dir :=
  match d with
  | .east => (row, col + 1, .west)
  | .west => (row, col - 1, .east)
  | .south => (row + 1, col, .north)
  | .north => (row - 1, col, .south)

/-- ROUTE_VALUE_LANDS (R20, R233): the values an element sent that are due at T enter its neighbours' port views. -/
def execRouteValueLands (sig row col : Nat) (s : State) : Host.Outcome State Fault Refusal :=
  if !s.runs sig then .next s
  else
    let t := (s.sig sig).time
    let e := s.elementOf sig row col
    let due := e.delay.filter fun x => x.leaves ≤ t
    let s := s.setElementOf sig row col { e with delay := e.delay.filter fun x => t < x.leaves }
    .next (due.foldl (fun s x =>
      let (r, c, side) := x.out.to row col
      let there := s.elementOf sig r c
      s.setElementOf sig r c { there with ports := there.ports ++ [⟨side, x.word, x.sent, x.value⟩] }) s)

/-! ### Waits and holds -/

/-- WAIT_CONDITION_CHECK (R23, R24, R26): whether some element asserts hold in this wall cycle; a condition found false waits no more. The elements
of a signature that starts check nothing yet. -/
def execWaitConditionCheck (sig : Nat) (s : State) : Host.Outcome State Fault Refusal :=
  let g := s.sig sig
  if g.status == .starting then .next s
  else
  let open_ := (s.checkedWords sig (!s.runs sig)).filter fun (w, r, c) => !g.passed.contains (w.n, r, c)
  let (wait, pass) := open_.partition fun (w, r, c) => s.waits sig w r c
  let alive := g.passed.filter fun (n, r, c) => g.time ≤ n + g.delay r c
  .next (s.setSig sig { g with
    passed := alive ++ pass.map fun (w, r, c) => (w.n, r, c)
    asserted := ((!wait.isEmpty) :: g.asserted).take 12 })

/-- HOLD_FREEZE (R24): hold was asserted 12 cycles ago. -/
def execHoldFreeze (sig : Nat) (s : State) : Host.Outcome State Fault Refusal :=
  let g := s.sig sig
  .next (if g.asserted.getD 11 false then s.setSig sig { g with held := true } else s)

/-- HOLD_RELEASE (R24): hold was not asserted 12 cycles ago. -/
def execHoldRelease (sig : Nat) (s : State) : Host.Outcome State Fault Refusal :=
  let g := s.sig sig
  .next (if g.asserted.getD 11 false then s else s.setSig sig { g with held := false })

/-- SPINE_WAIT_SATISFIED (R158): in a cycle in which the signature runs, a slot that waits, or is to be performed again, is performed, and
then the rest of its word. -/
def execSpineWaitSatisfied (sig : Nat) (s : State) : Host.Outcome State Fault Refusal :=
  let at_ := match (s.spineOf sig).phase with | .slotA => true | .slotB => true | _ => false
  if s.runs sig && at_ && (s.spineOf sig).resumeAt ≤ s.cycle then
    .next { s with focus := { Focus.idle with sig, spine := true }, agenda := ([.spineSlot false, .spineSlot true] : List Task) ++ s.agenda }
  else .next s

/-- WAITC_POLL (R180): a waiting WAITC or BWAIT rereads its location. -/
def execWaitcPoll (sig : Nat) (s : State) : Host.Outcome State Fault Refusal :=
  let p := s.spineOf sig
  match p.poll with
  | some ea =>
    if s.runs sig && p.waiting && p.answer.isNone && !s.reading sig && !s.portFull sig then
      .next (((s.setSpineOf sig { p with progress := 1 }).emptyReadAhead sig).issueSpine sig ea .read)
    else .next s
  | none => .next s

/-! ### Freeze waves and fault stops -/

/-- Whether a wave raises cap.INTR as it strikes: pre-emptions, moves and debug stops do (R191, R385). -/
def WaveCause.interrupts : WaveCause → Bool
  | .preempt => true | .move => true | .debug => true | .service => false | .causal => false

/-- FREEZE_WAVE_EFFECT (R41, R68, R158): the waves that are due take effect, each with its trace record. That of a debug stop lets a restore complete
first (R395). -/
def execFreezeWaveEffect (sig : Nat) (s : State) : Host.Outcome State Fault Refusal :=
  let g := s.sig sig
  let restoring := g.status == .starting && !g.image.isEmpty
  let due (w : Wave) : Bool := !w.inForce && !w.parked && w.from_ ≤ s.cycle && w.cause != .causal && !(restoring && w.cause == .debug)
  let struck := g.waves.filter due
  if struck.isEmpty || s.advancing sig || s.controllerOwes sig then .next s
  else
    let s := s.setSig sig { g with waves := g.waves.map fun w => if due w then { w with inForce := true, from_ := s.cycle } else w }
    .next (struck.foldl (fun s w =>
      (if w.cause.interrupts then s.setSpineOf sig (s.spineOf sig).interrupted else s).traceSig sig 0x0003 1 w.cause.code) s)

/-- FAULT_STOP_FREEZE (R352, R374): the stop takes effect, once no advance is under way. -/
def execFaultStopFreeze (sig : Nat) (s : State) : Host.Outcome State Fault Refusal :=
  match (s.sig sig).stop with
  | some st => .next (if st.inForce || s.cycle < st.from_ || s.advancing sig then s else s.beginStop sig st.notes)
  | none => .next s

/-- FAULT_STOP_RESUME (R352, R363): 12 cycles after the last answer the stop is lifted; its trace record counts the frozen cycles. -/
def execFaultStopResume (sig : Nat) (s : State) : Host.Outcome State Fault Refusal :=
  match (s.sig sig).stop with
  | some st =>
    match st.lifts with
    | some t =>
      if t ≤ s.cycle then .next ((s.setSig sig { s.sig sig with stop := none }).traceSig sig 0x0004 1 (4 + (s.cycle - st.from_) * 16))
      else .next s
    | none => .next s
  | none => .next s

/-! ### Sweeps and seams -/

/-- Whether the drain and any sweep before a seam are done, so that the advance is due in this cycle. -/
def State.seamReady (s : State) (sig : Nat) : Bool :=
  match (s.spineOf sig).phase with
  | .seam first 0 => s.runs sig && !s.wraps sig && s.seamDrained sig first
  | _ => false

/-- Freeze waves requested before an advance is made take effect in the cycle after it, before the seam word (R68). -/
def State.hastenFreezes (s : State) (sig : Nat) : State :=
  let g := s.sig sig
  s.setSig sig { g with waves := g.waves.map fun w => if w.inForce || w.parked then w else { w with from_ := min w.from_ (s.cycle + 1) } }

/-- The advance is made: the seam word is the next one emitted. -/
def State.passSeam (s : State) (sig : Nat) : State :=
  let s := s.advanceGenerations sig
  (s.setSpineOf sig { s.spineOf sig with phase := .fetch, seamRequest := none }).hastenFreezes sig

/-- The target plane of a PLSW in a folio, once it is loaded. -/
def State.switchPlane (s : State) (sig : Nat) (cfg : BitVec 16) (rc : Nat × Nat) : Option Nat :=
  ((s.folio rc.1 rc.2).planeWith (s.sig sig).vif (s.sig sig).code cfg.toNat [.ready, .active]).map (·.1)

/-- Whether every folio holds the target plane: after a restore the switch waits for the loads of R42. -/
def State.switchReady (s : State) (sig : Nat) (cfg : BitVec 16) : Bool := (s.sig sig).folios.all fun rc => (s.switchPlane sig cfg rc).isSome

/-- A pending switch's configuration is loaded again into the folios that have lost it. -/
def State.pumpSwitch (s : State) (sig : Nat) (cfg : BitVec 16) : State :=
  let g := s.sig sig
  (List.range (g.ht * g.wd)).foldl (fun s p =>
    if (s.switchPlane sig cfg (g.place p)).isSome then s else s.loadFolio sig cfg.toNat p) s

/-- SEAM_PLANE_SWITCH (R42, R46, R61): after this cycle's idle word, every folio activates its target plane as every generation advances. -/
def execSeamPlaneSwitch (sig : Nat) (s : State) : Host.Outcome State Fault Refusal :=
  let g := s.sig sig
  match (s.spineOf sig).seamRequest with
  | some (.plsw cfg) =>
    if !s.seamReady sig then .next s
    else if !s.switchReady sig cfg then .next (s.pumpSwitch sig cfg)
    else
      let s := g.folios.foldl (fun s rc =>
        match s.switchPlane sig cfg rc with
        | some k => s.setFolio rc.1 rc.2 ((s.folio rc.1 rc.2).activate k s.cycle)
        | none => s) s
      .next (s.passSeam sig)
  | _ => .next s

/-- SEAM_GENERATION_ADVANCE (R61): as a plane switch, but no plane is activated. -/
def execSeamGenerationAdvance (sig : Nat) (s : State) : Host.Outcome State Fault Refusal :=
  match (s.spineOf sig).seamRequest with
  | some .genadv => if s.seamReady sig then .next (s.passSeam sig) else .next s
  | _ => .next s

end Sys2Proof.Machine
end

