-- ==== Sys2Proof/Machine/Verify.lean ====
section
/-!
DEFINITION. The load-time verifier (R56): the paths of an image's control flow, one element role at a time, with the registers written so
far, the results still pending, the distances of matrix words and route values, and the ring descriptors in force.
-/

namespace Sys2Proof.Machine

/-! ### What a slot reads and writes -/

/-- A register of an element: v i is i, a i is 28 + i, s i is 36 + i, k i is 52 + i, b i is 60 + i, ring descriptor L is 68 + L. -/
abbrev RegCode := Nat

/-- Ring descriptors as the path has set them: level, base, size, rotation count. -/
abbrev VRings := List (Nat × Nat × Nat × Nat)

/-- What a slot reads at E, which tiles it reads at E + 3, what it writes with which latency, and the ring it sets. -/
structure Uses where
  reads : List RegCode
  tiles : List RegCode
  writes : List (RegCode × Nat)
  ring : Option (Nat × Nat × Nat)
  deriving DecidableEq, Repr

def Uses.nothing : Uses := ⟨[], [], [], Option.none⟩

/-- v register i; port views are no registers. -/
def codeV (i : Nat) : List RegCode := if i < 28 then [i] else []
def codeA (i : Nat) : List RegCode := [28 + i]
def codeS (i : Nat) : List RegCode := [36 + i]
def codeK (i : Nat) : List RegCode := if i = 0 then [] else [52 + i]
def codeB (i : Nat) : List RegCode := [60 + i]

/-- The register a field under ring control names on a path. -/
def VRings.name (rs : VRings) (level field : Nat) : Nat :=
  match rs.find? fun r => r.1 = level with
  | some (_, b, n, i) => if b ≤ field && field < b + n then b + (field - b + i) % n else field
  | none => field

/-- The ring descriptor an rx field reads, where it renames a destination field or source fields that the slot has (R54, R55). -/
def rxRing (rx : BitVec 4) (dest sources : Bool) : List RegCode :=
  if (dest && rx.getLsbD 0) || (sources && rx.getLsbD 1) then [68 + (rx.extractLsb' 2 2).toNat] else []

def srcV (rs : VRings) (rx : BitVec 4) (f : BitVec 5) : List RegCode :=
  codeV (if rx.getLsbD 1 then VRings.name rs (rx.extractLsb' 2 2).toNat f.toNat else f.toNat)

def dstV (rs : VRings) (rx : BitVec 4) (f : BitVec 5) : List RegCode :=
  codeV (if rx.getLsbD 0 then VRings.name rs (rx.extractLsb' 2 2).toNat f.toNat else f.toNat)

def lands (latency : Nat) (cs : List RegCode) : List (RegCode × Nat) := cs.map fun c => (c, latency)

/-- An A-V instruction; `dest` says that its result is a vector, which rx may rename. -/
def usesAV (rs : VRings) (f : AV) (latency : Nat) (vb vc : Bool) (dest : Bool := true) : Uses :=
  { reads := srcV rs f.rx f.va ++ (if vb then srcV rs f.rx f.vb else []) ++ (if vc then srcV rs f.rx f.vc else [])
      ++ codeK f.kp.toNat ++ rxRing f.rx dest true
    tiles := [], writes := lands latency (dstV rs f.rx f.vd), ring := Option.none }

/-- A comparison: vd names a predicate. -/
def usesCompare (rs : VRings) (f : AV) : Uses :=
  { usesAV rs f 1 true false false with writes := lands 1 (codeK f.vd.toNat) }

def usesAI (f : AI) (latency : Nat) (va : Bool) : Uses :=
  { reads := (if va then codeV f.va.toNat else []) ++ codeK f.kp.toNat, tiles := [], writes := lands latency (codeV f.vd.toNat)
    ring := Option.none }

def usesAS (f : AS) (latency : Nat) (sa sb : Bool) : Uses :=
  { reads := (if sa then codeS f.sa.toNat else []) ++ (if sb then codeS f.sb.toNat else []), tiles := []
    writes := lands latency (codeS f.sd.toNat), ring := Option.none }

def usesAK (f : AK) (kb : Bool) : Uses :=
  { reads := codeK f.ka.toNat ++ (if kb then codeK f.kb.toNat else []), tiles := [], writes := lands 1 (codeK f.kd.toNat)
    ring := Option.none }

/-- Slot A (R201, R225). -/
def usesA (rs : VRings) : Instr → Uses
  | .vadd f | .vsub f | .vand f | .vor f | .vxor f | .vshl f | .vshr f | .vsra f | .vmin f | .vmax f | .vsel f => usesAV rs f 1 true false
  | .vabs f | .vclz f | .vpopc f | .fabs f | .fneg f | .vrot f | .vbcst f => usesAV rs f 1 false false
  | .vmul f | .vmulh f => usesAV rs f 2 true false
  | .vmad f => usesAV rs f 2 true true
  | .vcmp f | .fcmp f => usesCompare rs f
  | .vaddi f | .vandi f | .vshli f | .vshri f => usesAI f 1 true
  | .vmuli f => usesAI f 2 true
  | .vmovi f => usesAI f 1 false
  | .fmuli f => usesAI f 4 true
  | .fadd f | .fsub f | .fmul f | .fscl f => usesAV rs f 4 true false
  | .ffma f => usesAV rs f 4 true true
  | .fmin f | .fmax f | .vins f | .vext f => usesAV rs f 1 true false
  | .frcp f | .frsq f | .fexp2 f | .flog2 f | .ftanh f => usesAV rs f 8 false false
  | .fcvt f | .frndi f => usesAV rs f 2 false false
  | .vshuf f => usesAV rs f 2 true true
  | .vred f | .vscan f => usesAV rs f 4 false false
  | .mma f =>
    { reads := srcV rs f.rx f.va ++ srcV rs f.rx f.vb ++ rxRing f.rx false true, tiles := if f.ov = 1 then [] else codeA f.ad.toNat
      writes := lands 4 (codeA f.ad.toNat), ring := Option.none }
  | .mmas f =>
    { reads := srcV rs f.rx f.va ++ srcV rs f.rx f.vb ++ srcV rs f.rx f.vc ++ rxRing f.rx false true
      tiles := if f.ov = 1 then [] else codeA f.ad.toNat, writes := lands 4 (codeA f.ad.toNat), ring := Option.none }
  | .mdrn f =>
    { reads := (if f.sub.getLsbD 4 then srcV rs f.rx f.vb else []) ++ rxRing f.rx false (f.sub.getLsbD 4), tiles := codeA f.ad.toNat
      writes := lands 4 (codeV f.va.toNat), ring := Option.none }
  | .mdrq f =>
    { reads := (if f.sub.getLsbD 4 then srcV rs f.rx f.vb else []) ++ rxRing f.rx false (f.sub.getLsbD 4)
      tiles := (List.range 4).flatMap fun i => codeA (f.ad.toNat + i)
      writes := lands 4 (codeV f.va.toNat ++ codeV (f.va.toNat + 1) ++ codeV f.vc.toNat), ring := Option.none }
  | .mzero f => { Uses.nothing with writes := lands 1 (codeA f.ad.toNat) }
  | .mldr f => { Uses.nothing with reads := srcV rs f.rx f.va ++ rxRing f.rx false true, writes := lands 1 (codeA f.ad.toNat) }
  | .mtrn f => { Uses.nothing with reads := codeA f.va.toNat, writes := lands 1 (codeA f.ad.toNat) }
  | .sadd f | .ssub f | .sand f | .sor f | .sxor f | .sshl f | .sshr f | .sslt f => usesAS f 1 true true
  | .smul f => usesAS f 2 true true
  | .saddi f => usesAS f 1 true false
  | .smovi f | .elid f => usesAS f 1 false false
  | .kand f | .kor f | .kxor f => usesAK f true
  | .knot f => usesAK f false
  | .kmov f =>
    { reads := (match (f.sub.extractLsb' 0 2).toNat with
        | 0 => codeK f.ka.toNat
        | 1 => codeV f.va.toNat
        | _ => codeS f.sa.toNat)
      tiles := [], writes := lands 1 (codeK f.kd.toNat), ring := Option.none }
  | .kpopc f => { Uses.nothing with reads := codeK f.ka.toNat, writes := lands 1 (codeS f.sa.toNat) }
  | .vote f => { Uses.nothing with reads := codeK f.ka.toNat }
  | _ => Uses.nothing

/-- The scalar base of a B-L slot. -/
def padBase (f : BL) : List RegCode := if f.sub.getLsbD 0 then [] else codeS f.sb.toNat

/-- Slot B. -/
def usesB (rs : VRings) : Instr → Uses
  | .ld f | .ldx f =>
    { Uses.nothing with reads := padBase f ++ codeK f.kp.toNat ++ rxRing f.rx true false, writes := lands 2 (dstV rs f.rx f.vr) }
  | .ldb f =>
    { Uses.nothing with
      reads := padBase f ++ codeB f.bf.toNat ++ codeK f.kp.toNat ++ rxRing f.rx true false, writes := lands 2 (dstV rs f.rx f.vr) }
  | .st f | .stx f => { Uses.nothing with reads := padBase f ++ codeK f.kp.toNat ++ rxRing f.rx false true ++ srcV rs f.rx f.vr }
  | .stb f => { Uses.nothing with reads := padBase f ++ codeB f.bf.toNat ++ codeK f.kp.toNat ++ rxRing f.rx false true ++ srcV rs f.rx f.vr }
  | .lds f => { Uses.nothing with reads := padBase f, writes := lands 2 (codeS f.vr.toNat) }
  | .sts f => { Uses.nothing with reads := padBase f ++ codeS f.vr.toNat }
  | .satom f =>
    let w := if f.sz == 3 then 2 else 1
    let n := if (f.sub.extractLsb' 2 4).toNat = 9 then 2 * w else w
    { Uses.nothing with
      reads := padBase f ++ (List.range n).flatMap fun i => codeS (f.vr.toNat + i)
      writes := lands 2 ((List.range w).flatMap fun i => codeS (f.vr.toNat + i)) }
  | .bdecl f => { Uses.nothing with writes := lands 1 (codeB f.b.toNat) }
  | .bstateFull f | .bstateEmpty f => { Uses.nothing with reads := codeB f.b.toNat, writes := lands 1 (codeB f.b.toNat) }
  | .bqry f =>
    { Uses.nothing with reads := codeB f.b.toNat, writes := lands 1 (codeS f.sb.toNat ++ codeS (f.sb.toNat + 1)) }
  | .rt f =>
    let uses (code : Nat) : Bool := f.outs.any fun o => (o.extractLsb' 4 4).toNat = code
    { Uses.nothing with reads := (if uses 5 then codeV f.lv.toNat else []) ++ if uses 6 then codeV f.lw.toNat else [] }
  | .vmov f => { Uses.nothing with reads := codeV (f.n.extractLsb' 0 5).toNat, writes := lands 1 (codeV f.vr.toNat) }
  | .smov f =>
    { Uses.nothing with
      reads := (match (f.sub.extractLsb' 0 2).toNat with
        | 0 => codeV f.vr.toNat
        | 3 => codeS (f.n.extractLsb' 0 4).toNat
        | _ => [])
      writes := lands 1 (codeS f.sb.toNat) }
  | .vfroms f => { Uses.nothing with reads := codeS f.sb.toNat, writes := lands 1 (codeV f.vr.toNat) }
  | .ringset f =>
    { Uses.nothing with
      writes := lands 1 [68 + f.st.toNat], ring := some (f.st.toNat, (f.n.extractLsb' 0 5).toNat, (f.n.extractLsb' 5 5).toNat) }
  | .egrVector f => { Uses.nothing with reads := codeV f.vr.toNat }
  | .egrBuffer f => { Uses.nothing with reads := codeB f.b.toNat }
  | .cntRdlo f | .cntRdhi f | .cntHlo f | .cntHhi f => { Uses.nothing with writes := lands 1 (codeS f.sb.toNat) }
  | _ => Uses.nothing

/-! ### A path -/

/-- Where a path stands and what it has made. Counts run in word slots. -/
structure VPath where
  /-- index of the word to be issued -/
  pc : Nat
  ret : List Nat
  /-- active levels: level, start and end -/
  levels : List (Nat × Nat × Nat)
  rings : VRings
  /-- a bit for every register written -/
  written : Nat
  /-- results that have not landed, with the slots to go -/
  recent : List (RegCode × Nat)
  /-- slots since the last matrix word of a role, while fewer than 4 -/
  matrix : List (Nat × Nat)
  /-- values put on a north (true) or south link: slots to their arrival word -/
  puts : List (Bool × Int)
  /-- slots since the last VOTE, and since the last fabric word, as far as waits ask for them -/
  sinceVote : Option Nat
  sinceFabric : Nat
  /-- an advance is requested for the next seam -/
  seam : Bool
  deriving DecidableEq, Repr

def VPath.start : VPath :=
  { pc := 0, ret := [], levels := [], rings := [], written := 0, recent := [], matrix := [], puts := [], sinceVote := Option.none
    sinceFabric := 0, seam := false }

/-- The image as the verifier reads it. -/
structure VImage where
  words : List SchedWord
  ht : Nat
  wd : Nat
  deriving DecidableEq, Repr

def VImage.word (m : VImage) (i : Nat) : SchedWord := m.words.getD i 0

/-- Whether the fetch block of word i is a pool block: it begins with a marker word (R139). -/
def VImage.pool (m : VImage) (i : Nat) : Bool := i < m.words.length && m.word (i / 4 * 4) == SchedWord.marker

/-- The span without die boundaries, and E − I at the south-east corner without them (R19, R22). -/
def VImage.span (m : VImage) : Nat := (16 * m.ht - 1) + (16 * m.wd - 1)

/-- Slots pass. -/
def VPath.elapse (m : VImage) (k : Nat) (p : VPath) : VPath :=
  { p with
    recent := (p.recent.filter fun x => k < x.2).map fun x => (x.1, x.2 - k)
    matrix := (p.matrix.filter fun x => x.2 + k < 4).map fun x => (x.1, x.2 + k)
    puts := (p.puts.filter fun x => (k : Int) ≤ x.2 + 1).map fun x => (x.1, x.2 - k)
    sinceVote := p.sinceVote.map fun x => min (x + k) (2 * m.span + 32)
    sinceFabric := min (p.sinceFabric + k) (m.span + 16) }

/-- The spine drains the signature: nothing is pending after it (R46, R183). -/
def VPath.drain (m : VImage) (p : VPath) : VPath :=
  { p.elapse m (m.span + 16 - p.sinceFabric) with recent := [], matrix := [], puts := [] }

/-- A word's LE advances the ring of its level (R54). -/
def VRings.advance (rs : VRings) (le : Nat) : VRings :=
  if le = 0 then rs else rs.map fun (l, b, n, i) => if l = le - 1 then (l, b, n, (i + 1) % n) else (l, b, n, i)

def VPath.isWritten (p : VPath) (c : RegCode) : Bool := p.written.testBit c

def VPath.write (p : VPath) (c : RegCode) (latency : Nat) : VPath :=
  { p with written := p.written ||| 2 ^ c, recent := (c, latency) :: p.recent.filter fun x => x.1 ≠ c }

/-- The slots a pending result of a register still takes. -/
def VPath.togo (p : VPath) (c : RegCode) : Nat :=
  match p.recent.find? fun x => x.1 = c with
  | some (_, k) => k
  | none => 0

/-- Slots since the last matrix word of a role, if fewer than 4. -/
def VPath.matrixOf (p : VPath) (role : Nat) : Option Nat := (p.matrix.find? fun x => x.1 = role).map (·.2)

/-! ### A fabric word -/

/-- The north and south outputs of an RT in use, with their delays. -/
def linkPuts : Instr → List (Bool × Int)
  | .rt f =>
    let out (north : Bool) (o : BitVec 8) : List (Bool × Int) :=
      if o.extractLsb' 4 4 = 0 then [] else [(north, ((o.extractLsb' 0 4).toNat : Int))]
    out false f.s ++ out true f.n
  | _ => []

/-- Checks 1, 2, 3, 6 and 7 of a word that the role executes. -/
def VPath.failing (p : VPath) (role : Nat) (h : Header) (a b : Instr) : List Nat :=
  let ua := usesA p.rings a
  let ub := usesB p.rings b
  let reads := codeK h.gk.toNat ++ ua.reads ++ ub.reads
  let apart (x y : Int) : Bool := x - y ≤ -2 || 2 ≤ x - y
  (if (reads ++ ua.tiles).all p.isWritten then [] else [1])
    ++ (if reads.all (fun c => p.togo c = 0) && ua.tiles.all (fun c => p.togo c ≤ 3) then [] else [2])
    ++ (if spacedInstr a && !h.h && (p.matrixOf role).isSome then [3] else [])
    ++ (if (reads.filter fun c => 68 ≤ c).all p.isWritten then [] else [6])
    ++ (if (linkPuts b).all fun x => p.puts.all fun y => x.1 != y.1 || apart x.2 y.2 then [] else [7])

/-- The effects of the slots of a word that the role executes. -/
def VPath.perform (p : VPath) (a b : Instr) : VPath :=
  let ua := usesA p.rings a
  let ub := usesB p.rings b
  let p := (ua.writes ++ ub.writes).foldl (fun p w => p.write w.1 w.2) p
  { p with puts := p.puts ++ linkPuts b }

/-- A fabric word (R18, R23): spaced if H asks for it, and then met by the role. -/
def VPath.fabric (m : VImage) (role : Nat) (p : VPath) (h : Header) (a b : Instr) : List Nat × VPath :=
  let gap := (headerRoles h).foldl (fun g ρ => match p.matrixOf ρ with | some d => max g (4 - d) | none => g) 0
  let p := if h.h && spacedInstr a then p.elapse m gap else p
  let runs := h.role.getLsbD role
  let fails := if runs then p.failing role h a b else []
  let q := if runs then p.perform a b else p
  let rings := VRings.advance q.rings h.le.toNat
  let rings : VRings :=
    match (if runs then (usesB p.rings b).ring else none) with
    | some (l, base, size) => (l, base, size, 0) :: rings.filter fun r => r.1 ≠ l
    | none => rings
  let matrix := if spacedInstr a then (headerRoles h).map (fun ρ => (ρ, 0)) ++ q.matrix.filter fun x => !h.role.getLsbD x.1 else q.matrix
  let vote := match a with | .vote _ => true | _ => false
  let q : VPath := { q with rings, matrix, sinceVote := if vote then some 0 else q.sinceVote, sinceFabric := 0 }
  (fails, q.elapse m 1)

/-! ### A spine word -/

/-- The further slots that an instruction of a spine word costs where it does not transfer control (R157, R166, R183). -/
def VPath.spineSlot (m : VImage) (p : VPath) : Instr → VPath
  | .div _ | .divu _ | .rem _ | .remu _ => p.elapse m 7
  | .waitv _ =>
    match p.sinceVote with
    | some d => p.elapse m (2 * m.span + 32 - d)
    | none => p
  | .bar f => if f.scope = 2 && f.gp = 0 && f.gc = 0 && f.disp = 0 then p.drain m else p
  | .genadv _ => { p with seam := true }
  | .plsw _ => { p with seam := true }
  | _ => p

/-- The pool addresses a slot reads that are fixed in the word: the first byte, by code offset, and the number of bytes (R173, R175). -/
def poolReads (block : Nat) : Instr → List (Int × Nat)
  | .ldlit f => if f.gb = 0 then [((64 * block : Nat) + f.off.toInt, 2 ^ f.sz.toNat)] else []
  | .strm f | .cpy f | .coll f | .launch f => if f.sub.getLsbD 0 then [((64 * block : Nat) + f.disp.toInt, 64)] else []
  | _ => []

/-- Whether the blocks of a pool read all carry markers (check 4). -/
def VImage.pooled (m : VImage) (x : Int × Nat) : Bool :=
  let first := x.1 / 64
  let inBlock := (64 - x.1 % 64).toNat
  let more := if x.2 ≤ inBlock then 0 else (x.2 - inBlock + 47) / 48
  (List.range (more + 1)).all fun i => 0 ≤ first && m.pool (4 * (first.toNat + i))

/-- The index of a branch target, from the index of its word (R132). -/
def branchIndex (i : Nat) (disp : BitVec 35) : Int := ((i / 4 : Nat) + disp.toInt) * 4

/-- Where control may go from a spine word: the checks its targets fail, and each continuation with its pc and stacks set. -/
def VPath.control (m : VImage) (p : VPath) (b : Instr) : List Nat × List VPath :=
  let go (p : VPath) (t : Int) : List VPath := if 0 ≤ t then [({ p with pc := t.toNat } : VPath).elapse m 2] else []
  let landsIn (t : Int) : List Nat := if 0 ≤ t && m.pool t.toNat then [5] else []
  let next : List VPath := [{ p with pc := p.pc + 1 }]
  match b with
  | .br f => (landsIn (branchIndex p.pc f.disp), go p (branchIndex p.pc f.disp))
  | .brc f => (landsIn (branchIndex p.pc f.disp), go p (branchIndex p.pc f.disp) ++ next)
  | .call f =>
    let t := branchIndex p.pc f.disp
    (landsIn t, if p.ret.length < 16 then go { p with ret := (p.pc + 1) :: p.ret } t else [])
  | .ret _ =>
    match p.ret with
    | r :: rest => ([], go { p with ret := rest } r)
    | [] => ([], [])
  | .bri _ =>
    ([], ((List.range (m.words.length / 4)).filter fun k => !m.pool (4 * k)).flatMap fun k => go p ((4 * k : Nat) : Int))
  | .loop f =>
    let l := f.lvl.toNat
    let last := p.pc + f.last.toNat
    let others := p.levels.filter fun x => x.1 ≠ l
    (landsIn ((p.pc + 1 : Nat) : Int),
      if others.any fun x => x.2.2 = last then [] else next.map fun q => { q with levels := (l, p.pc + 1, last) :: others })
  | .loopx f =>
    match p.levels.find? fun x => x.1 = f.lvl.toNat with
    | some (l, _, last) => ([], go { p with levels := p.levels.filter fun x => x.1 ≠ l } ((last + 1 : Nat) : Int))
    | none => ([], next)
  | .endLaunch _ => ([], [])
  | _ => ([], next)

/-- At the end word of an active level: the loop goes round, or is over (R163). -/
def VPath.atEnd (p : VPath) (at_ : Nat) (q : VPath) : List VPath :=
  match p.levels.find? fun x => x.2.2 = at_ with
  | none => [q]
  | some (l, start, _) => [{ q with pc := start }, { q with pc := at_ + 1, levels := q.levels.filter fun x => x.1 ≠ l }]

/-- A spine word: its slots, its own idle slot with its LE, and where it leads. -/
def VPath.spineWord (m : VImage) (p : VPath) (h : Header) (a b : Instr) : List Nat × List VPath :=
  let fails := if ((poolReads (p.pc / 4) a) ++ poolReads (p.pc / 4) b).all m.pooled then [] else [4]
  let q := VPath.spineSlot m (VPath.spineSlot m p a) b
  let q := { q with rings := VRings.advance q.rings h.le.toNat }.elapse m 1
  let (targets, qs) := VPath.control m q b
  (fails ++ targets, if h.le = 0 then qs else qs.flatMap fun x => p.atEnd p.pc x)

/-! ### Steps of a path -/

/-- A RINGSET with N or B + N out of range (check 6), which the decoder rejects. -/
def ringsetBad (w : SchedWord) : Bool :=
  let b := SchedWord.slotB w
  let f := BD.ofSlot b
  let base := (f.n.extractLsb' 0 5).toNat
  let n := (f.n.extractLsb' 5 5).toNat
  !w.getLsbD 127 && slotOp b == 0x32 && (n < 2 || 28 < n || 28 < base + n)

/-- Whether a word breaks the loop rules on this path (R163). -/
def VPath.breach (p : VPath) (w : SchedWord) : Bool :=
  let h := SchedWord.header w
  let op := (slotOp (SchedWord.slotB w)).toNat
  match p.levels.find? fun x => x.2.2 = p.pc with
  | some (l, _, _) => h.le.toNat != l + 1 || (h.spine && 1 ≤ op && op ≤ 9)
  | none => h.le != 0

/-- One word of a path: the checks it fails, and the paths that go on. A word that faults at decode ends its path. -/
def VPath.step (m : VImage) (role : Nat) (p : VPath) : List Nat × List VPath :=
  if m.words.length ≤ p.pc then ([], [])
  else
    let w := m.word p.pc
    match decodeWord w with
    | .marker => ([], [])
    | .illegal _ _ => (if ringsetBad w then [6] else [], [])
    | .word h a b =>
      if p.breach w then ([], [])
      else
        let p := if h.seam && p.seam then { p.drain m with seam := false } else p
        if h.spine then VPath.spineWord m p h a b
        else
          let (fails, q) := VPath.fabric m role p h a b
          (fails, p.atEnd p.pc { q with pc := p.pc + 1 })

/-- The earlier of two failures: by word, then by check. -/
def earlierFailure (x : Option (Nat × Nat)) (y : Nat × Nat) : Option (Nat × Nat) :=
  match x with
  | none => some y
  | some z => if y.1 < z.1 ∨ (y.1 = z.1 ∧ y.2 < z.2) then some y else some z

/-- Follow every path from a list of them; a path state already met is not followed again. -/
def explore (m : VImage) (role : Nat) : Nat → List VPath → List VPath → Option (Nat × Nat) → Option (Nat × Nat)
  | 0, _, _, found => found
  | _ + 1, [], _, found => found
  | fuel + 1, p :: work, seen, found =>
    if seen.contains p then explore m role fuel work seen found
    else
      let (fails, next) := p.step m role
      explore m role fuel (next ++ work) (p :: seen) (fails.foldl (fun f c => earlierFailure f (p.pc, c)) found)

/-- A marker word that is not the first of its block, outside the payload of a pool block (check 4). -/
def VImage.strayMarkers (m : VImage) : List (Nat × Nat) :=
  ((List.range m.words.length).filter fun i => i % 4 ≠ 0 && m.word i == SchedWord.marker && !m.pool i).map fun i => (i, 4)

/-- The first failing word and its check, over all roles (log 17, DEDUCED). -/
def VImage.verify (m : VImage) : Option (Nat × Nat) :=
  let found := (List.range 4).foldl (fun f role => explore m role (2 ^ 64) [VPath.start] [] f) none
  m.strayMarkers.foldl earlierFailure found

end Sys2Proof.Machine
end

