-- ==== Sys2Proof/Machine/Images.lean ====
section
/-!
DEFINITION. Registration of program images (R308): the block, its checks in order, the digest, and deregistration.
-/

namespace Sys2Proof.Machine

/-! ### The registration block -/

/-- The image a block describes. -/
def imageOfBlock (lo : Vec) : Image :=
  { code := recordWord lo 0, clen := recordWord lo 1, cfg := recordWord lo 2, shape := recordWord lo 3, digest := 0, registered := true }

/-- Whether the fields and the shape of a block are in range and its reserved bytes zero (RCODE 8); STATUS and DIGEST are the device's. -/
def imageBlockOk (lo hi : Vec) : Bool :=
  let i := imageOfBlock lo
  let (ht, wd, ncfg) := i.shape_
  i.code.toNat % 64 == 0 && i.code.toNat < 2 ^ 56 && i.clen.toNat % 64 == 0 && 64 ≤ i.clen.toNat && i.clen.toNat ≤ 2 ^ 24
    && i.cfg.toNat % 64 == 0 && 1 ≤ ht && ht ≤ 12 && 1 ≤ wd && wd ≤ 24 && 1 ≤ ncfg
    && (i.shape &&& ~~~0xFF1F0F) == 0 && recordWord lo 5 == 0 && recordWord lo 6 == 0 && recordWord lo 7 == 0
    && recordWord hi 6 == 0 && recordWord hi 7 == 0

/-- The units of an image's code: each must be readable and permit fetch (R308). -/
def State.readCode (s : State) (vif : Nat) (va : Word) : Nat → Except CheckFault (List Vec)
  | 0 => .ok []
  | n + 1 =>
    match s.translatePages none vif va [.rd, .x], s.readUnit vif va, State.readCode s vif (va + 64) n with
    | .error e, _, _ => .error e
    | _, .error e, _ => .error e
    | _, _, .error e => .error e
    | .ok _, .ok u, .ok us => .ok (u :: us)

/-- The four words of a unit. -/
def wordsOfUnit (u : Vec) : List SchedWord := (List.range 4).map fun k => u.extractLsb' (128 * k) 128

/-- STATUS of a registration: RCODE, the failing byte offset, REFUSED and DONE. -/
def imageStatus (rcode offset : Nat) : Nat := rcode + offset % 2 ^ 32 * 2 ^ 24 + (if rcode = 0 then 0 else 2 ^ 62) + 2 ^ 63

/-- What a readable block gives: RCODE, the failing offset, and the digest once everything has been read. (log 61, DEDUCED) -/
def State.judgeImage (s : State) (vif : Nat) (lo hi : Vec) : Nat × Nat × Option (BitVec 384) :=
  let i := imageOfBlock lo
  let (ht, wd, ncfg) := i.shape_
  let f := s.iface vif
  if !imageBlockOk lo hi then (8, 0, none)
  else
    match s.readCode vif i.code (i.clen.toNat / 64), s.readUnits vif i.cfg (ncfg * ht * wd) with
    | .ok code, .ok records =>
      let digest := digestBits (sha384 ((code ++ records).flatMap fun u => bytesOf 64 u.toNat))
      if (f.image i.code).isSome then (10, 0, some digest)
      else if 4096 ≤ (f.images.filter (·.registered)).length then (11, 0, some digest)
      else
        match VImage.verify { words := code.flatMap wordsOfUnit, ht, wd } with
        | none => (0, 0, some digest)
        | some (w, c) => (c, 16 * w, some digest)
    | _, _ => (9, 0, none)

/-- A registration or formation block that cannot be used (R308, R311): a register-access record names it. -/
def State.blockUnusable (s : State) (vif offset : Nat) (addr : Word) : State :=
  s.report vif { FaultInfo.report 0x22 3 offset 0 with addr := addr.toNat }

/-- The image joins its interface's registered images. -/
def State.addImage (s : State) (vif : Nat) (i : Image) : State :=
  let f := s.iface vif
  s.setIface vif { f with images := f.images.filter (fun j => j.code != i.code) ++ [i] }

/-- The result of a registration: DIGEST, then STATUS, and then the image is registered if nothing failed. -/
def State.finishImage (s : State) (vif : Nat) (addr : Word) (i : Image) (rcode offset : Nat) (digest : Option (BitVec 384)) : State :=
  let s1 := match digest with
    | some d => s.writeVirtual vif (addr + 0x40) 48 d.toNat
    | none => .ok s
  match s1 with
  | .error _ => s.blockUnusable vif 0x10B0 addr
  | .ok s1 =>
    match s1.writeVirtual vif (addr + 0x20) 8 (imageStatus rcode offset) with
    | .error _ => s1.blockUnusable vif 0x10B0 addr
    | .ok s2 => if rcode = 0 then s2.addImage vif { i with digest := digest.getD 0 } else s2

/-- A write of IMGREG. -/
def State.registerImage (s : State) (vif : Nat) (addr : Word) : State :=
  match s.readUnit vif addr, s.readUnit vif (addr + 64) with
  | .ok lo, .ok hi =>
    if addr.toNat % 128 ≠ 0 then s.blockUnusable vif 0x10B0 addr
    else
      let (rcode, offset, digest) := s.judgeImage vif lo hi
      s.finishImage vif addr (imageOfBlock lo) rcode offset digest
  | _, _ => s.blockUnusable vif 0x10B0 addr

/-- IMGREG (R56, R308). -/
def execImgreg (vif : Nat) (addr : Word) (s : State) : Host.Outcome State Fault Refusal :=
  .next (if s.serving then s.registerImage vif addr else s)

/-- A write of IMGDEL: the image is no longer registered, and stays as long as something names it. -/
def State.deregisterImage (s : State) (vif : Nat) (code : Word) : State :=
  let f := s.iface vif
  let images := f.images.map fun i => if i.code = code then { i with registered := false } else i
  (s.setIface vif { f with images, imgdel := code }).pruneImages vif

/-- IMGDEL (R308). -/
def execImgdel (vif : Nat) (code : Word) (s : State) : Host.Outcome State Fault Refusal :=
  .next (if s.serving then s.deregisterImage vif code else s)

/-- What a read of IMGDEL returns: the placed signatures, saved images and queued records that name the image last written. -/
def State.imageUses (s : State) (vif : Nat) : Nat :=
  let f := s.iface vif
  (s.sigs.filter fun x => x.2.vif == vif && x.2.code == f.imgdel).length
    + (f.queue.filter fun q => q.saved.isNone && recordWord q.record 0 == f.imgdel).length

end Sys2Proof.Machine
end

