-- ==== Sys2Proof/Machine/Formation.lean ====
section
/-!
DEFINITION. What software asks of the controllers through registers: forming collective groups (R311, R312), exporting a journal (R293, R306),
forcing a revert (R287), privileged proposals (R304), and the world key of an interface (R91, R377).
-/

namespace Sys2Proof.Machine

/-! ### Groups (R311, R312) -/

/-- Whether the fields of a formation block are in range and its reserved bits zero (status 2). -/
def formationOk (lo : Vec) : Bool :=
  let nmem := ((recordWord lo 2).extractLsb' 0 17).toNat
  let rank := ((recordWord lo 2).extractLsb' 32 16).toNat
  (recordWord lo 0).extractLsb' 32 32 == 0 && (recordWord lo 1).extractLsb' 32 32 == 0 && (recordWord lo 2 &&& ~~~0x0000FFFF0001FFFF) == 0
    && (recordWord lo 3).extractLsb' 32 32 == 0 && (recordWord lo 3).extractLsb' 0 32 != 0 && 1 ≤ nmem && nmem ≤ 65536 && rank < nmem
    && recordWord lo 5 == 0 && recordWord lo 6 == 0 && recordWord lo 7 == 0

/-- The member of a table entry, given as its two units, if the rest of the entry is zero. -/
def memberOf (lo hi : Vec) : Option Member :=
  let digest : BitVec 384 := BitVec.ofNat 384 ((lo.toNat / 2 ^ 256 % 2 ^ 256) + hi.toNat % 2 ^ 128 * 2 ^ 256)
  if (recordWord lo 2).extractLsb' 48 16 != 0 || recordWord lo 3 != 0 || hi.toNat / 2 ^ 128 != 0 then none
  else some { address := lo.extractLsb' 0 128, mac := (recordWord lo 2).extractLsb' 0 48, digest }

/-- The members of a table's units. -/
def membersOf : List Vec → Option (List Member)
  | lo :: hi :: rest =>
    match memberOf lo hi, membersOf rest with
    | some m, some ms => some (m :: ms)
    | _, _ => none
  | _ => some []

/-- The first 80 bytes of every entry, in rank order. -/
def memberBytes : List Vec → List Byte
  | lo :: hi :: rest => bytesOf 64 lo.toNat ++ (bytesOf 64 hi.toNat).take 16 ++ memberBytes rest
  | _ => []

/-- The device's measurement digest: of its 16 measurement registers in order. -/
def Platform.ownDigest (p : Platform) : BitVec 384 :=
  digestBits (sha384 ((List.range 16).flatMap fun i => digestBytes (p.measurements.get 0 i)))

/-- The group key (R312): "zwiost-grp", GRP and GGEN make the info. -/
def groupKey (gsec : List Byte) (entries : List Vec) (grp ggen : BitVec 32) : BitVec 256 :=
  let info : List Byte := [0x7A, 0x77, 0x69, 0x6F, 0x73, 0x74, 0x2D, 0x67, 0x72, 0x70] ++ bytesOf 4 grp.toNat ++ bytesOf 4 ggen.toNat
  BitVec.ofNat 256 (natOf (hkdfSha384 gsec (sha384 (memberBytes entries)) info 32))

/-- The group a readable formation block asks for, or the status that refuses it; without a carve-out there is no slot (R343). One that replaces
another goes on with its frame counters (R313). (log 62, DEDUCED) -/
def State.judgeGroup (s : State) (vif : Nat) (lo hi : Vec) : Nat ⊕ Group :=
  let grp : BitVec 32 := (recordWord lo 0).extractLsb' 0 32
  let ggen : BitVec 32 := (recordWord lo 1).extractLsb' 0 32
  let nmem := ((recordWord lo 2).extractLsb' 0 17).toNat
  let rank := ((recordWord lo 2).extractLsb' 32 16).toNat
  if !formationOk lo then .inl 2
  else
    match s.readUnits vif (recordWord lo 4) (2 * nmem) with
    | .error _ => .inl 4
    | .ok entries =>
      match membersOf entries with
      | none => .inl 2
      | some members =>
        let own := (members[rank]?).map (·.digest)
        let others := s.groups.filter fun g => !(g.vif == vif && g.grp == grp)
        if own != some s.platform.ownDigest then .inl 1
        else if !s.keysServed || 64 ≤ others.length || 16 ≤ (others.filter fun g => g.vif == vif).length then .inl 3
        else
          .inr { vif, grp, ggen, rank, members, timeout := ((recordWord lo 3).extractLsb' 0 32).toNat
                 key := groupKey ((bytesOf 64 hi.toNat).take 48) entries grp ggen, counter := ((s.group vif grp).map (·.counterFor ggen)).getD 0
                 spent := ((s.group vif grp).map (·.spentAt ggen)).getD [], steps := 0, sends := [], receives := [], grants := [], ended := [], discarded := 0 }

/-- A group is formed; one of the same number is replaced, and its steps end GROUP_STALE. -/
def State.addGroup (s : State) (g : Group) : State :=
  let s := s.staleGroup g.vif g.grp
  { s with groups := s.groups.filter (fun x => !(x.vif == g.vif && x.grp == g.grp)) ++ [g] }

/-- A write of GFORM. -/
def State.formGroup (s : State) (vif : Nat) (addr : Word) : State :=
  match s.readUnit vif addr, s.readUnit vif (addr + 64) with
  | .ok lo, .ok hi =>
    let made := if addr.toNat % 128 ≠ 0 then .inl 2 else s.judgeGroup vif lo hi
    let status := match made with | .inl c => c | .inr _ => 0
    if addr.toNat % 128 ≠ 0 then s.blockUnusable vif 0x10A0 addr
    else
      match s.writeVirtual vif (addr + 0x70) 8 status with
      | .error _ => s.blockUnusable vif 0x10A0 addr
      | .ok s =>
        match made with
        | .inr g => s.addGroup g
        | .inl _ => s
  | _, _ => s.blockUnusable vif 0x10A0 addr

/-- GFORM (R311, R312). -/
def execGform (vif : Nat) (addr : Word) (s : State) : Host.Outcome State Fault Refusal :=
  .next (if s.serving then s.formGroup vif addr else s)

/-! ### Exports (R293, R306) -/

/-- Half-word i of a pair of words of a request block. -/
def requestHalf (b : Vec) (k i : Nat) : Nat := ((recordWord b (k + i / 4)).extractLsb' (16 * (i % 4)) 16).toNat

/-- The signatures a request names that the interface has, in the order named; their places are their logical numbers. -/
def State.exportSigs (s : State) (vif : Nat) (b : Vec) : List Nat :=
  (((List.range 8).map fun i => requestHalf b 2 i).filter fun n => n ≠ 0 && s.sigs.any fun x => x.1 == n && x.2.vif == vif).eraseDups

def exportRanges (b : Vec) : List Nat := ((List.range 8).map fun i => requestHalf b 4 i).filter (· ≠ 0xFFFF)

/-- The transactions of an export: SETTLED, of the named signatures and ranges, none of a signature that has ended, no compound revert, in number
order (R17, R293). (log 59, DEDUCED) -/
def State.exportTxs (s : State) (vif : Nat) (sigs ranges : List Nat) : List Tx :=
  s.journal.txs.filter fun t =>
    t.state == .settled && !t.rv && t.vif == vif && t.stage != orphanStage &&
      (match objKind t.object with
      | 0 => sigs.contains (objSig t.object)
      | 1 => sigs.contains (objSig t.object)
      | 2 => ranges.contains (objIdx t.object)
      | _ => false)

/-- A record with its logical signature number. -/
def exportRecord (sigs : List Nat) (t : Tx) : Vec :=
  if objKind t.object < 2 then
    withWord t.record 1 (objectWord (objKind t.object) (objVif t.object) (sigs.findIdx (· == objSig t.object)) (objIdx t.object)).toNat
  else t.record

/-- An entry of the signature table. -/
def State.exportEntry (s : State) (l n : Nat) : Vec :=
  let g := s.sig n
  let digest := match s.imageOf n with | some i => i.digest.toNat | none => 0
  BitVec.ofNat 512 (l + g.ht * 2 ^ 16 + g.wd * 2 ^ 24 + digest * 2 ^ 128)

/-- The units of an export. -/
def State.exportUnits (s : State) (vif : Nat) (b : Vec) : List Vec :=
  let sigs := s.exportSigs vif b
  let txs := s.exportTxs vif sigs (exportRanges b)
  let total := 64 + 64 * sigs.length + 128 * txs.length
  [blockOfWords [0x4A520001 + sigs.length * 2 ^ 32, txs.length, total, 0, 0, 0, 0, 0]]
    ++ (List.range sigs.length).map (fun l => s.exportEntry l (sigs.getD l 0))
    ++ txs.flatMap fun t => [exportRecord sigs t, t.afterBytes]

/-- Units are written one after another. -/
def State.writeUnits (s : State) (vif : Nat) (va : Word) : List Vec → Except CheckFault State
  | [] => .ok s
  | u :: us =>
    match s.writeVirtual vif va 64 u.toNat with
    | .error e => .error e
    | .ok s => State.writeUnits s vif (va + 64) us

/-- An export: what fits is written, and then STATUS. (log 63, DEDUCED) -/
def State.exportJournal (s : State) (vif : Nat) (addr : Word) : State :=
  if addr.toNat % 64 ≠ 0 then s
  else
    match s.readUnit vif addr with
    | .error _ => s
    | .ok b =>
      let units := s.exportUnits vif b
      let dst := recordWord b 0
      let fits := decide (64 * units.length ≤ (recordWord b 1).toNat) && dst.toNat % 64 == 0
      match (if fits then s.writeUnits vif dst units else .error ⟨0, 0⟩) with
      | .ok s1 => (s1.writeVirtual vif (addr + 0x30) 8 (64 * units.length + 2 ^ 63)).toOption.getD s1
      | .error _ => (s.writeVirtual vif (addr + 0x30) 8 (2 ^ 62 + 2 ^ 63)).toOption.getD s

/-- JEXP (R293, R306). -/
def execJexp (vif : Nat) (addr : Word) (s : State) : Host.Outcome State Fault Refusal :=
  .next (if s.serving then s.exportJournal vif addr else s)

/-! ### Reverts and proposals of privileged software (R287, R304) -/

/-- JREV (R287). -/
def execJrev (vif : Nat) (number : Word) (s : State) : Host.Outcome State Fault Refusal :=
  .next (if s.serving then s.forceRevert vif number.toNat else s)

/-- A write of JPRV: a proposal with its object in record form. -/
def State.proposePrivileged (s : State) (vif : Nat) (addr : Word) : State :=
  match s.proposeAt vif 2 0 addr id with
  | some (s, n) => s.setIface vif { s.iface vif with jprv := BitVec.ofNat 64 n }
  | none => s.setIface vif { s.iface vif with jprv := 0 }

/-- JPRV (R304). -/
def execJprv (vif : Nat) (addr : Word) (s : State) : Host.Outcome State Fault Refusal :=
  .next (if s.serving then s.proposePrivileged vif addr else s)

/-! ### World keys (R91, R377) -/

/-- WORLD_KEY_CREATE (R91): a fresh key of the security controller; an interface that has one keeps it. (log 65, DEDUCED) -/
def execWorldKeyCreate (vif : Nat) (s : State) : Host.Outcome State Fault Refusal :=
  let f := s.iface vif
  if !s.keysServed || f.worldKey.isSome then .next s
  else .next { s.setIface vif { f with worldKey := some (drawKey s.free) } with free := s.free + 1 }

/-- Whether an interface has a placed signature, a saved image or a queued launch. -/
def State.worldInUse (s : State) (vif : Nat) : Bool := (s.sigs.any fun x => x.2.vif == vif) || !(s.iface vif).queue.isEmpty

/-- WORLD_KEY_DESTROY (R377): it never retires while something of its world is left. (log 65, DEDUCED) -/
def execWorldKeyDestroy (vif : Nat) (s : State) : Host.Outcome State Fault Refusal :=
  .next (if s.worldInUse vif then s else s.setIface vif { s.iface vif with worldKey := none })

end Sys2Proof.Machine
end

