-- ==== Sys2Proof/Machine/Pad.lean ====
section
/-!
DEFINITION. Slot B: scratchpad, buffers, routes, egress and counters (R232 to R243), each performed in the element in focus.
-/

namespace Sys2Proof.Machine

/-- LDS (R236). -/
def execLds (f : BL) (s : State) : Host.Outcome State Fault Refusal := performSlot s (elemLds f)
/-- STS (R236). -/
def execSts (f : BL) (s : State) : Host.Outcome State Fault Refusal := performSlot s (elemSts f)
/-- SATOM (R238). -/
def execSatom (f : BL) (s : State) : Host.Outcome State Fault Refusal := performSlot s (elemSatom f)
/-- LDB (R237). -/
def execLdb (f : BL) (s : State) : Host.Outcome State Fault Refusal := performSlot s (elemLdb f)
/-- STB (R237). -/
def execStb (f : BL) (s : State) : Host.Outcome State Fault Refusal := performSlot s (elemStb f)
/-- BDECL (R239). -/
def execBdecl (f : BD) (s : State) : Host.Outcome State Fault Refusal := performSlot s (elemBdecl f)
/-- BSTATE_FULL (R239). -/
def execBstateFull (f : BD) (s : State) : Host.Outcome State Fault Refusal := performSlot s (elemBstateFull f)
/-- BSTATE_EMPTY (R239). -/
def execBstateEmpty (f : BD) (s : State) : Host.Outcome State Fault Refusal := performSlot s (elemBstateEmpty f)
/-- BQRY (R239). -/
def execBqry (f : BD) (s : State) : Host.Outcome State Fault Refusal := performSlot s (elemBqry f)
/-- RT (R232). -/
def execRt (f : BT) (s : State) : Host.Outcome State Fault Refusal := performSlot s (elemRt f)
/-- VMOV (R240). -/
def execVmov (f : BD) (s : State) : Host.Outcome State Fault Refusal := performSlot s (elemVmov f)
/-- SMOV (R240). -/
def execSmov (f : BD) (s : State) : Host.Outcome State Fault Refusal := performSlot s (elemSmov f)
/-- RINGSET (R241). -/
def execRingset (f : BD) (s : State) : Host.Outcome State Fault Refusal := performSlot s (elemRingset f)
/-- VFROMS (R240). -/
def execVfroms (f : BD) (s : State) : Host.Outcome State Fault Refusal := performSlot s (elemVfroms f)
/-- CNT_SEL (R243). -/
def execCntSel (f : BD) (s : State) : Host.Outcome State Fault Refusal := performSlot s (elemCntSel f)
/-- CNT_RDLO (R243). -/
def execCntRdlo (f : BD) (s : State) : Host.Outcome State Fault Refusal := performSlot s (elemCntRdlo f)
/-- CNT_RDHI (R243). -/
def execCntRdhi (f : BD) (s : State) : Host.Outcome State Fault Refusal := performSlot s (elemCntRdhi f)
/-- CNT_CLR (R243). -/
def execCntClr (f : BD) (s : State) : Host.Outcome State Fault Refusal := performSlot s (elemCntClr f)
/-- CNT_HLO (R243). -/
def execCntHlo (f : BD) (s : State) : Host.Outcome State Fault Refusal := performSlot s (elemCntHlo f)
/-- CNT_HHI (R243). -/
def execCntHhi (f : BD) (s : State) : Host.Outcome State Fault Refusal := performSlot s (elemCntHhi f)
/-- LD (R235). -/
def execLd (f : BL) (s : State) : Host.Outcome State Fault Refusal := performSlot s (elemLoad true f)
/-- LDX (R235). -/
def execLdx (f : BL) (s : State) : Host.Outcome State Fault Refusal := performSlot s (elemLoad false f)
/-- ST (R235). -/
def execSt (f : BL) (s : State) : Host.Outcome State Fault Refusal := performSlot s (elemStore true f)
/-- STX (R235). -/
def execStx (f : BL) (s : State) : Host.Outcome State Fault Refusal := performSlot s (elemStore false f)

/-! ### Egress hand-over (R242) -/

/-- The stream on handle h of the port of the folio that holds the element in focus. -/
def State.egressCtx (s : State) (h : Nat) : Nat :=
  ctxKey (s.sig s.focus.sig).wd (s.focus.row / 16) (s.focus.col / 16) h

/-- Why an EGR of a number of granules fails: 1 no stream, 2 wrong mode, 3 not in the window, 5 surplus, or 0 (R344). -/
def State.egressReason (s : State) (h granules : Nat) : Nat :=
  let c := s.ctx s.focus.sig (s.egressCtx h)
  let b := Block.ofVec c.block
  if c.kind ≠ .stream then 1
  else if b.loads then 2
  else
    match b.placeOf (s.focus.row % 16) (s.focus.col % 16) with
    | none => 3
    | some p => if dealt (b.runs * b.granules) b.places p < c.handed.get 0 p + granules then 5 else 0

/-- The granules count as handed over. -/
def State.handOver (s : State) (h granules : Nat) : State :=
  let key := s.egressCtx h
  let c := s.ctx s.focus.sig key
  match (Block.ofVec c.block).placeOf (s.focus.row % 16) (s.focus.col % 16) with
  | none => s
  | some p => s.setCtx s.focus.sig key { c with handed := c.handed.set 0 p (c.handed.get 0 p + granules) }

/-- The handle an EGR names. -/
def egressHandle (f : BD) : Nat := (f.n.extractLsb' 0 4).toNat

/-- EGR_VECTOR (R242). -/
def execEgrVector (f : BD) (s : State) : Host.Outcome State Fault Refusal :=
  let h := egressHandle f
  .next (s.perform (fun env => do elemEgrVector f (s.egressReason h) env; pure (guardZero env))
    fun done s => if done then s.handOver h 1 else s)

/-- EGR_BUFFER (R242). -/
def execEgrBuffer (f : BD) (s : State) : Host.Outcome State Fault Refusal :=
  let h := egressHandle f
  let act (env : ElemEnv) : EM Nat := do
    let d := BufferDesc.ofWord ((← get).b.get (Tagged.zero 64) f.b.toNat).data
    elemEgrBuffer f (s.egressReason h) env
    pure (if guardZero env then d.cnt else 0)
  .next (s.perform act fun n s => s.handOver h n)

end Sys2Proof.Machine
end

