-- ==== Sys2Proof/Machine/Registers.lean ====
section
/-!
DEFINITION. The register apertures of the host link (R303, R304, R341, R342, R351): who may read and write each register, what a read returns and
a write does; the dune map (R39); and the debugger's access to elements and spines (R67, R320, R323).
-/

namespace Sys2Proof.Machine

/-! ### The dune map (R39) -/

/-- The entry of a device folio; `viewer` is the interface that looks, which learns nothing of another's signature (R304). -/
def State.duneEntry (s : State) (row col : Nat) (viewer : Option Nat) : BitVec 256 :=
  let f := s.folio row col
  let sig := f.placed - 1
  let vif := (s.sig sig).vif
  let known := f.placed != 0 && (match viewer with | some v => v == vif | none => true)
  let valid (k : Nat) : Bool := (f.plane k).state == .ready || (f.plane k).state == .active
  let plval := (List.range 4).foldl (fun n k => n + if valid k then 2 ^ k else 0) 0
  let actpl := match f.active with | some (k, _) => k | none => 0
  BitVec.ofNat 256 (f.busy.toNat + f.held.toNat * 2 ^ 64 + f.idle.toNat * 2 ^ 128 + (if known then sig % 2 ^ 16 else 0) * 2 ^ 192
    + (if known then vif % 64 else 0) * 2 ^ 208 + (if f.placed = 0 then 0 else 2 ^ 214) + (if f.gated then 2 ^ 215 else 0)
    + actpl % 4 * 2 ^ 216 + plval * 2 ^ 218)

/-- Word w of an interface's view: its partition's folios in partition order. -/
def State.duneView (s : State) (vif w : Nat) : Word :=
  let (pr, pc, ph, pw) := (s.iface vif).policy.partition
  let i := w / 4
  if i < ph * pw then (s.duneEntry (pr + i / pw) (pc + i % pw) (some vif)).extractLsb' (64 * (w % 4)) 64 else 0

/-- Word w of the full map. -/
def State.duneFull (s : State) (w : Nat) : Word := (s.duneEntry (w / 4 / 24) (w / 4 % 24) none).extractLsb' (64 * (w % 4)) 64

/-! ### The debugger (R67, R323) -/

/-- DSEL's fields: device element row and column, kind, and index. -/
structure DebugTarget where
  row : Nat
  col : Nat
  kind : Nat
  index : Nat
  deriving DecidableEq, Repr

def DebugTarget.ofWord (w : Word) : DebugTarget :=
  ⟨(w.extractLsb' 0 8).toNat, (w.extractLsb' 8 9).toNat, (w.extractLsb' 20 4).toNat, (w.extractLsb' 24 11).toNat⟩

/-- A stored item as a debugger sees it: value, stored generation, poison. -/
structure DebugItem where
  value : Tile
  gen : Gen
  poison : Bool
  deriving DecidableEq, Repr

/-- The item of an element that a kind and index name. -/
def Element.debugItem (e : Element) (kind i : Nat) : Option DebugItem :=
  let of {w : Nat} (r : Tagged w) : Option DebugItem := some ⟨r.data.setWidth 2048, r.gen, r.poison⟩
  if kind = 5 then (if i < 1536 then of (e.pad.get (Tagged.zero 512) i) else none)
  else if !isRegister kind i then none
  else
    match kind with
    | 0 => let r := e.v.get VReg.zero i; some ⟨r.data.setWidth 2048, r.gen, r.poison⟩
    | 1 => let r := e.a.get AReg.zero i; some ⟨r.data, r.gen, r.poison⟩
    | 2 => of (e.s.get (Tagged.zero 32) i)
    | 3 => of (e.k.get (Tagged.zero 64) i)
    | 4 => of (e.b.get (Tagged.zero 64) i)
    | _ => of (e.ring.get (Tagged.zero 16) i)

/-- The bits of a buffer descriptor that are not reserved (R59). -/
def descriptorBits : Word := 0x1FFFFFFFFFF

/-- An element after a debugger's write of an item: whole, under the current generation (R63, R67). The tags of a v register and the kind of a
tile come from DSEL bits 39:36, 40 and 41 (log 18, DEDUCED). -/
def Element.debugWrite (e : Element) (gen : Gen) (sel : Word) (kind i : Nat) (x : Tile) : Element :=
  match kind with
  | 0 => e.land gen (.v i (x.setWidth 512) (-1) (sel.extractLsb' 36 4) (sel.getLsbD 40))
  | 1 => e.land gen (.a i x (-1) (sel.getLsbD 41))
  | 2 => e.land gen (.s i (x.setWidth 32))
  | 3 => e.land gen (.k i (x.setWidth 64) (-1))
  | 4 => { e with b := e.b.set (Tagged.zero 64) i ⟨x.setWidth 64 &&& descriptorBits, gen, false⟩ }
  | 5 => { e with pad := e.pad.set (Tagged.zero 512) i ⟨x.setWidth 512, gen, false⟩ }
  | _ => e.land gen (.ring i (x.setWidth 16 &&& 0x7FFF))

/-- The numbers of the spine control registers (R196). -/
def spineCsrs : List Nat :=
  [0, 1, 2, 3, 4, 5, 0x10, 0x20, 0x30, 0x40, 0x41, 0x50, 0x51, 0x52, 0x53, 0x58, 0x60, 0x61, 0x62, 0x70, 0x71, 0x80]

/-- A control register of the spine of a folio that a signature holds, as it stands now. -/
def State.spineCsr (s : State) (sig row col n : Nat) : Word :=
  let s := s.setSig sig { s.sig sig with row0 := row, col0 := col }
  let s := s.setSpineOf sig { s.spineOf sig with before := s.sources sig }
  { s with focus := { Focus.idle with sig } }.controlRegister n

/-- The debug access is refused: no data moves. -/
def State.debugRefused (s : State) : State := { s with debugger := { s.debugger with dstat := 2 ^ 32 } }

/-- DSTAT of an access that is made. -/
def debugStatus (stored current : Gen) : Word := stored.setWidth 64 ||| (current.setWidth 64 <<< 16)

/-- Whether the debugger may reach an element: the device is stopped, and the world of the folio's active plane has authorised it. -/
def State.debugAllowed (s : State) (t : DebugTarget) : Bool :=
  s.debugger.stopped && decide (t.row < 192) && decide (t.col < 384) &&
    (match (s.folio (t.row / 16) (t.col / 16)).active with
    | some (_, p) => (match p.owner with | some v => (s.iface v).dbg.getLsbD 0 | none => false)
    | none => false)

/-- A debugger read (R67, R369): a poisoned item refuses it, stale or not. -/
def State.debugRead (s : State) (sel : Word) : State :=
  let t := DebugTarget.ofWord sel
  let f := s.folio (t.row / 16) (t.col / 16)
  let done (x : Tile) (gen : Gen) : State := { s with debugger := { s.debugger with data := x, dstat := debugStatus gen f.gen } }
  if !s.debugAllowed t then s.debugRefused
  else if t.kind = 7 then
    (if t.index < 32 then done ((if t.index = 0 then 0 else f.spine.g.get 0 t.index).setWidth 2048) f.gen else s.debugRefused)
  else if t.kind = 8 then
    (if spineCsrs.contains t.index then done ((s.spineCsr (f.placed - 1) (t.row / 16) (t.col / 16) t.index).setWidth 2048) f.gen
      else s.debugRefused)
  else
    match (s.element t.row t.col).debugItem t.kind t.index with
    | some i => if i.poison then s.debugRefused else done i.value i.gen
    | none => s.debugRefused

/-- A debugger write (R67); of the control registers only fab.MODE and bar.PH can be written (R196). -/
def State.debugWrite (s : State) (sel : Word) : State :=
  let t := DebugTarget.ofWord sel
  let f := s.folio (t.row / 16) (t.col / 16)
  let x : Word := s.debugger.data.setWidth 64
  let done (s : State) : State := { s with debugger := { s.debugger with dstat := debugStatus f.gen f.gen } }
  let spine (p : Spine) : State := done (s.setFolio (t.row / 16) (t.col / 16) { f with spine := p })
  if !s.debugAllowed t then s.debugRefused
  else if t.kind = 7 then (if t.index < 32 then spine (f.spine.setG t.index x) else s.debugRefused)
  else if t.kind = 8 then
    (if t.index = 0x10 && (x.extractLsb' 4 3).toNat < 5 then spine { f.spine with mode := x.extractLsb' 0 8 }
      else if t.index = 0x30 then spine { f.spine with barPh := x } else s.debugRefused)
  else
    match (s.element t.row t.col).debugItem t.kind t.index with
    | some _ => done (s.setElement t.row t.col ((s.element t.row t.col).debugWrite f.gen sel t.kind t.index s.debugger.data))
    | none => s.debugRefused

/-- A write of DSEL (R323): bit 63 says which way the data goes; the register keeps every bit written, those of no field among them. (log 80,
DESIGN CHOICE) -/
def State.debugAccess (s : State) (sel : Word) : State :=
  let s : State := { s with debugger := { s.debugger with dsel := sel } }
  if sel.getLsbD 63 then s.debugWrite sel else s.debugRead sel

/-- DSEL_READ (R323). -/
def execDselRead (_vif : Nat) (sel : Word) (s : State) : Host.Outcome State Fault Refusal :=
  .next (if s.serving then s.debugAccess (sel &&& 0x7FFFFFFFFFFFFFFF) else s)

/-- DSEL_WRITE (R323). -/
def execDselWrite (_vif : Nat) (sel : Word) (s : State) : Host.Outcome State Fault Refusal :=
  .next (if s.serving then s.debugAccess (sel ||| 0x8000000000000000) else s)

/-! ### Access of the registers of an interface (R303, R304) -/

/-- What an aperture allows at a register: nothing, reading, writing, or both. -/
inductive RegAccess where
  | closed | ro | wo | rw
  deriving DecidableEq, Repr

/-- Registers at an offset that both apertures, or the privileged one alone, open (R304, R323, R351). -/
def regAccess (priv : Bool) (off : Nat) : RegAccess :=
  let own (a : RegAccess) : RegAccess := if priv then a else .closed
  let set : RegAccess := if priv then .rw else .ro
  if off % 8 ≠ 0 then .closed
  else if off < 0x1000 then .wo
  else if 0x1050 ≤ off && off < 0x1090 then set
  else if 0x2000 ≤ off && off < 0x4800 then .ro
  else if 0x5000 ≤ off && off < 0x6000 then .wo
  else if 0x7040 ≤ off && off < 0x7140 then own .rw
  else
    match off with
    | 0x1000 => .rw
    | 0x1008 => .rw
    | 0x1010 => set
    | 0x1018 => own .rw
    | 0x1020 => own .rw
    | 0x1028 => set
    | 0x1030 => set
    | 0x1038 => .wo
    | 0x1040 => set
    | 0x1048 => set
    | 0x1090 => own .rw
    | 0x1098 => own .rw
    | 0x10A0 => own .wo
    | 0x10A8 => .wo
    | 0x10B0 => own .wo
    | 0x10B8 => own .rw
    | 0x6000 => .ro
    | 0x6008 => .ro
    | 0x7000 => own .rw
    | 0x7008 => own .ro
    | _ => .closed

/-- DBG as it reads (R320). (log 60, DEDUCED) -/
def State.debugControl (s : State) (vif : Nat) : Word :=
  BitVec.ofNat 64 (((s.iface vif).dbg.extractLsb' 0 2).toNat + s.debugger.code % 2 ^ 16 * 2 ^ 32 + s.debugger.cause % 4 * 2 ^ 48
    + (if s.debugger.stopped then 2 ^ 50 else 0))

/-- What a readable register of an interface returns. -/
def State.regValue (s : State) (vif off : Nat) : Word :=
  let f := s.iface vif
  if 0x1050 ≤ off && off < 0x1090 then f.watch.get 0 ((off - 0x1050) / 8)
  else if 0x2000 ≤ off && off < 0x4800 then s.duneView vif ((off - 0x2000) / 8)
  else if 0x7040 ≤ off && off < 0x7140 then s.debugger.data.extractLsb' (8 * (off - 0x7040)) 64
  else
    match off with
    | 0x1000 => f.ictl
    | 0x1008 => f.iaddr
    | 0x1010 => f.farea
    | 0x1018 => f.troot
    | 0x1020 => f.rtab
    | 0x1028 => f.darea
    | 0x1030 => f.jctl
    | 0x1040 => f.conf
    | 0x1048 => s.debugControl vif
    | 0x1090 => f.jrev
    | 0x1098 => f.jprv
    | 0x10B8 => BitVec.ofNat 64 (s.imageUses vif)
    | 0x6000 => BitVec.ofNat 64 s.ns
    | 0x6008 => BitVec.ofNat 64 (s.nsFraction + (if s.clock.synced then 2 ^ 16 else 0))
    | 0x7000 => s.debugger.dsel
    | 0x7008 => s.debugger.dstat
    | _ => 0

/-- FRESP (R351): the record's number and the action; any other write is recorded, as is one with bits 63:52 not zero. (log 80, DESIGN CHOICE) -/
def execAnswer (vif : Nat) (x : Word) (s : State) : Host.Outcome State Fault Refusal :=
  let seq := (x.extractLsb' 0 48).toNat
  if (x.extractLsb' 52 12).toNat ≠ 0 then .next (s.registerFault vif 0x10A8)
  else
    match (x.extractLsb' 48 4).toNat with
    | 0 => execFrespAbort vif seq s
    | 1 => execFrespResume vif seq s
    | 2 => execFrespRetry vif seq s
    | _ => .next (s.registerFault vif 0x10A8)

/-- Every range entry of an interface is another one: no addressing format of the old ones is kept (R288). -/
def State.dropAddressing (s : State) (vif : Nat) : State :=
  { s with journal := { s.journal with addressing := s.journal.addressing.filter fun x => x.1 != vif } }

/-- DBG is written: AUTH and ARM are kept, and RESUME ends a stop (R320). -/
def State.writeDebugControl (s : State) (vif : Nat) (x : Word) : State :=
  let s := s.setIface vif { s.iface vif with dbg := x &&& 3 }
  if x.getLsbD 2 then s.debugResume else s

/-- A write to a writable register of an interface: its own behaviour, or its bits that are not reserved. (log 64, DEDUCED) -/
def State.regStore (s : State) (vif off : Nat) (x : Word) : Host.Outcome State Fault Refusal :=
  let f := s.iface vif
  let put (f : Iface) : Host.Outcome State Fault Refusal := .next (s.setIface vif f)
  if off < 0x1000 then execLaunchWindowWrite vif off 8 (x.setWidth 512) s
  else if 0x5000 ≤ off && off < 0x6000 then execDmaWindowWrite true vif (off - 0x5000) 8 (x.setWidth 512) s
  else if 0x1050 ≤ off && off < 0x1090 then
    let k := (off - 0x1050) / 8
    put { f with watch := f.watch.set 0 k (if k % 2 = 0 then x &&& 0x00FFFFFFFFFFFFC7 else x) }
  else if 0x7040 ≤ off && off < 0x7140 then
    let at_ := 8 * (off - 0x7040)
    .next { s with debugger := { s.debugger with data := (s.debugger.data &&& ~~~(0xFFFFFFFFFFFFFFFF#2048 <<< at_)) ||| (x.setWidth 2048 <<< at_) } }
  else
    match off with
    | 0x1000 => put { f with ictl := x &&& 0x1FFFF }
    | 0x1008 => put { f with iaddr := x &&& 0x0003FFFFFFFFFFF8 }
    | 0x1010 => put { f with farea := x &&& 0x00FFFFFFFFFFF01F }
    | 0x1018 => put { f with troot := x &&& 0x0007FFFFFFF00000 }
    | 0x1020 => .next ((s.setIface vif { f with rtab := x &&& 0x0007FFFFFFC00000 }).dropAddressing vif)
    | 0x1028 => put { f with darea := x &&& 0x00FFFFFFFFC00000 }
    | 0x1030 => put { f with jctl := x &&& 0xF }
    | 0x1038 => .next (s.exportJournal vif x)
    | 0x1040 => put { f with conf := x &&& 0xFFFFF0001 }
    | 0x1048 => .next (s.writeDebugControl vif x)
    | 0x1090 => .next (s.forceRevert vif x.toNat)
    | 0x1098 => .next (s.proposePrivileged vif x)
    | 0x10A0 => .next (s.formGroup vif x)
    | 0x10A8 => execAnswer vif x s
    | 0x10B0 => .next (s.registerImage vif x)
    | 0x10B8 => .next (s.deregisterImage vif x)
    | 0x7000 => .next (s.debugAccess x)
    | _ => .next s

/-! ### The device management registers (R341, R342) -/

/-- SVC (R342). -/
def State.svc (s : State) : Word :=
  let p := s.platform
  BitVec.ofNat 64 (p.service % 8 + p.fail % 2 ^ 8 * 2 ^ 8 + (if p.cwait then 2 ^ 18 else 0) + (if p.thermal = 0 then 0 else 2 ^ 19))

/-- Word w of the measurement registers, 48 bytes each. -/
def Platform.measWord (p : Platform) (w : Nat) : Word := (p.measurements.get 0 (w / 6)).extractLsb' (64 * (w % 6)) 64

/-- Word w of the trace window: the records from the read index on, and zero at or beyond the write index (R343). -/
def Platform.ringWord (p : Platform) (w : Nat) : Word :=
  let i := w / 4
  if i < (p.tringWrite - p.tringRead).toNat then (p.ring.get 0 ((p.tringRead.toNat + i) % 2 ^ 23)).extractLsb' (64 * (w % 4)) 64 else 0

/-- ETHCFG as it reads. -/
def Platform.ethControl (p : Platform) : Word := p.ethcfg ||| p.ethMode.setWidth 64 ||| (p.ethUp.setWidth 64 <<< 8)

/-- What a management register returns, by its offset from 0x40_0000; an unassigned one reads zero. -/
def State.mgmtValue (s : State) (off : Nat) : Word :=
  let p := s.platform
  if off % 8 ≠ 0 then 0
  else if 0x1000 ≤ off && off < 0x3400 then s.duneFull ((off - 0x1000) / 8)
  else if 0x4000 ≤ off && off < 0x4300 then p.measWord ((off - 0x4000) / 8)
  else if 0x5000 ≤ off && off < 0x6000 then p.ringWord ((off - 0x5000) / 8)
  else
    match off with
    | 0x00 => 0x0001_0009_5A39 ||| (Config.stepping.setWidth 64 <<< 48)
    | 0x08 => Config.serial
    | 0x10 => p.fwver
    | 0x18 => s.svc
    | 0x20 => p.temp
    | 0x28 => p.power
    | 0x30 => p.mcap
    | 0x38 => p.carve
    | 0x40 => p.ecarve
    | 0x48 => if s.tlbinv.isSome then 1 else 0
    | 0x50 => p.tringRead.setWidth 64 ||| (p.tringWrite.setWidth 64 <<< 32)
    | 0x58 => p.ethControl
    | 0x60 => if p.pgate then 1 else 0
    | _ => 0

/-- A write of TLBINV (R73, R341); reserved bits are ignored (R5; log 64, DEDUCED). -/
def State.writeTlbinv (s : State) (x : Word) : State :=
  let vif := (x.extractLsb' 0 6).toNat
  let addr := (x.extractLsb' 16 40).toNat * 2 ^ 16
  match (x.extractLsb' 6 2).toNat with
  | 0 => s.invalidate fun _ => true
  | 1 => s.invalidate fun e => e.vif == vif
  | 2 => s.invalidate fun e => e.vif == vif && e.overlaps addr
  | _ => s.invalidate fun e => e.overlaps addr

/-- A write to a management register; one to an unassigned or read-only offset is discarded. -/
def State.mgmtStore (s : State) (off : Nat) (x : Word) : Host.Outcome State Fault Refusal :=
  let p := s.platform
  match off with
  | 0x30 => execMcapWrite x s
  | 0x38 => execCarveWrite x s
  | 0x40 => execEcarveWrite x s
  | 0x48 => .next (s.writeTlbinv x)
  | 0x50 => execTringWrite x s
  | 0x58 => .next { s with platform := { p with ethMode := x.extractLsb' 0 8, ethcfg := x &&& 0x0000FFFF000F0000 } }
  | 0x60 => .next { s with platform := { p with pgate := x.getLsbD 0 } }
  | _ => .next s

/-! ### The two operations (R303) -/

/-- Where the management registers begin in the privileged aperture (R341). -/
def mgmtBase : Nat := 0x400000

/-- A read of an interface's register: a closed one reads zero and is recorded; a write-only one reads zero. -/
def State.readInterface (s : State) (priv : Bool) (vif off : Nat) : State :=
  match regAccess priv off with
  | .closed => { s.registerFault vif off with readValue := 0 }
  | .wo => { s with readValue := 0 }
  | _ => { s with readValue := s.regValue vif off }

/-- REGISTER_READ (R303): SVC answers in every state, and everything else while the module serves. -/
def execRegisterRead (priv : Bool) (offset : Nat) (s : State) : Host.Outcome State Fault Refusal :=
  if priv && decide (mgmtBase ≤ offset) then
    .next (if s.serving || offset = mgmtBase + 0x18 then { s with readValue := s.mgmtValue (offset - mgmtBase) } else s)
  else if !s.serving || mgmtBase ≤ offset then .next s
  else .next (s.readInterface priv (offset / 0x10000) (offset % 0x10000))

/-- REGISTER_WRITE (R303): a write to a closed or read-only register is discarded and recorded. -/
def execRegisterWrite (priv : Bool) (offset : Nat) (value : Word) (s : State) : Host.Outcome State Fault Refusal :=
  if !s.serving then .next s
  else if mgmtBase ≤ offset then (if priv then s.mgmtStore (offset - mgmtBase) value else .next s)
  else
    let vif := offset / 0x10000
    let off := offset % 0x10000
    match regAccess priv off with
    | .closed => .next (s.registerFault vif off)
    | .ro => .next (s.registerFault vif off)
    | _ => s.regStore vif off value

end Sys2Proof.Machine
end

