-- ==== Sys2Proof/Machine/Scalar.lean ====
section
/-!
DEFINITION. Slot A, matrix, scalar and predicate instructions (R219 to R231): each performs its operation in the element in focus.
-/

namespace Sys2Proof.Machine

/-- MMA (R228). -/
def execMma (f : AM) (s : State) : Host.Outcome State Fault Refusal := performSlot s (elemMma f)
/-- MMAS (R228). -/
def execMmas (f : AM) (s : State) : Host.Outcome State Fault Refusal := performSlot s (elemMmas f)
/-- MZERO (R229). -/
def execMzero (f : AM) (s : State) : Host.Outcome State Fault Refusal := performSlot s (elemMzero f)
/-- MDRN (R230). -/
def execMdrn (f : AM) (s : State) : Host.Outcome State Fault Refusal := performSlot s (elemMdrn f)
/-- MDRQ (R231). -/
def execMdrq (f : AM) (s : State) : Host.Outcome State Fault Refusal := performSlot s (elemMdrq f)
/-- MLDR (R229). -/
def execMldr (f : AM) (s : State) : Host.Outcome State Fault Refusal := performSlot s (elemMldr f)
/-- MTRN (R229). -/
def execMtrn (f : AM) (s : State) : Host.Outcome State Fault Refusal := performSlot s (elemMtrn f)
/-- SADD (R220). -/
def execSadd (f : AS) (s : State) : Host.Outcome State Fault Refusal := performSlot s (elemSadd f)
/-- SSUB (R220). -/
def execSsub (f : AS) (s : State) : Host.Outcome State Fault Refusal := performSlot s (elemSsub f)
/-- SMUL (R220). -/
def execSmul (f : AS) (s : State) : Host.Outcome State Fault Refusal := performSlot s (elemSmul f)
/-- SAND (R220). -/
def execSand (f : AS) (s : State) : Host.Outcome State Fault Refusal := performSlot s (elemSand f)
/-- SOR (R220). -/
def execSor (f : AS) (s : State) : Host.Outcome State Fault Refusal := performSlot s (elemSor f)
/-- SXOR (R220). -/
def execSxor (f : AS) (s : State) : Host.Outcome State Fault Refusal := performSlot s (elemSxor f)
/-- SSHL (R220). -/
def execSshl (f : AS) (s : State) : Host.Outcome State Fault Refusal := performSlot s (elemSshl f)
/-- SSHR (R220). -/
def execSshr (f : AS) (s : State) : Host.Outcome State Fault Refusal := performSlot s (elemSshr f)
/-- SMOVI (R220). -/
def execSmovi (f : AS) (s : State) : Host.Outcome State Fault Refusal := performSlot s (elemSmovi f)
/-- SSLT (R220). -/
def execSslt (f : AS) (s : State) : Host.Outcome State Fault Refusal := performSlot s (elemSslt f)
/-- SADDI (R220). -/
def execSaddi (f : AS) (s : State) : Host.Outcome State Fault Refusal := performSlot s (elemSaddi f)
/-- KAND (R222). -/
def execKand (f : AK) (s : State) : Host.Outcome State Fault Refusal := performSlot s (elemKand f)
/-- KOR (R222). -/
def execKor (f : AK) (s : State) : Host.Outcome State Fault Refusal := performSlot s (elemKor f)
/-- KXOR (R222). -/
def execKxor (f : AK) (s : State) : Host.Outcome State Fault Refusal := performSlot s (elemKxor f)
/-- KNOT (R222). -/
def execKnot (f : AK) (s : State) : Host.Outcome State Fault Refusal := performSlot s (elemKnot f)
/-- KMOV (R222). -/
def execKmov (f : AK) (s : State) : Host.Outcome State Fault Refusal := performSlot s (elemKmov f)
/-- KPOPC (R222). -/
def execKpopc (f : AK) (s : State) : Host.Outcome State Fault Refusal := performSlot s (elemKpopc f)
/-- ELID (R221). -/
def execElid (f : AS) (s : State) : Host.Outcome State Fault Refusal := performSlot s (elemElid f)
/-- VOTE (R223): the element's contribution goes to the reduction when the word is left. -/
def execVote (f : AK) (s : State) : Host.Outcome State Fault Refusal :=
  .next (s.perform (elemVote f) fun x s => { s with focus := { s.focus with vote := x } })

end Sys2Proof.Machine
end

