-- ==== Sys2Proof/Machine/SpineAlu.lean ====
section
/-!
DEFINITION. Spine integer and immediate instructions (R167 to R170), and NOP (R134).
-/

namespace Sys2Proof.Machine

/-- NOP (R134): in a slot of a spine word the slot is done; an element does nothing. -/
def execNop (s : State) : Host.Outcome State Fault Refusal := .next (if s.focus.spine then s.slotDone else s)

/-! ### Integer instructions on registers (R167, R168) -/

/-- G[gd] := f(G[ga], G[gb]). -/
def aluRegisters (f : SG) (s : State) (op : Word → Word → Word) : Host.Outcome State Fault Refusal :=
  spineResult s f.gd (op (s.readG f.ga) (s.readG f.gb))

/-- Signed quotient and remainder (R168). -/
def signedDivide (a b : Word) : Word × Word :=
  if b = 0 then (-1, a)
  else if a.toInt = -(2 ^ 63) ∧ b.toInt = -1 then (a, 0)
  else
    let q := BitVec.ofInt 64 (a.toInt.tdiv b.toInt)
    (q, a - q * b)

/-- Unsigned quotient and remainder (R168). -/
def unsignedDivide (a b : Word) : Word × Word :=
  if b = 0 then (-1, a)
  else
    let q := BitVec.ofNat 64 (a.toNat / b.toNat)
    (q, a - q * b)

/-- A division costs 7 further idle slots, of its word, which its slots' costs add up to (R157). -/
def divideResult (f : SG) (s : State) (op : Word → Word → Word) : Host.Outcome State Fault Refusal :=
  let s := s.setHere { s.here with idles := s.here.idles + 7 }
  aluRegisters f s op

/-- 1 for a true comparison (R167). -/
def truthWord (b : Bool) : Word := if b then 1 else 0

/-- ADD (R167). -/
def execAdd (f : SG) (s : State) : Host.Outcome State Fault Refusal :=
  aluRegisters f s fun a b => a + b
/-- SUB (R167). -/
def execSub (f : SG) (s : State) : Host.Outcome State Fault Refusal :=
  aluRegisters f s fun a b => a - b
/-- MUL (R167). -/
def execMul (f : SG) (s : State) : Host.Outcome State Fault Refusal :=
  aluRegisters f s fun a b => a * b
/-- MULH (R167). -/
def execMulh (f : SG) (s : State) : Host.Outcome State Fault Refusal :=
  aluRegisters f s fun a b => BitVec.ofInt 64 (a.toInt * b.toInt / 2 ^ 64)
/-- MULHU (R167). -/
def execMulhu (f : SG) (s : State) : Host.Outcome State Fault Refusal :=
  aluRegisters f s fun a b => BitVec.ofNat 64 (a.toNat * b.toNat / 2 ^ 64)
/-- DIV (R168). -/
def execDiv (f : SG) (s : State) : Host.Outcome State Fault Refusal :=
  divideResult f s fun a b => (signedDivide a b).1
/-- DIVU (R168). -/
def execDivu (f : SG) (s : State) : Host.Outcome State Fault Refusal :=
  divideResult f s fun a b => (unsignedDivide a b).1
/-- REM (R168). -/
def execRem (f : SG) (s : State) : Host.Outcome State Fault Refusal :=
  divideResult f s fun a b => (signedDivide a b).2
/-- REMU (R168). -/
def execRemu (f : SG) (s : State) : Host.Outcome State Fault Refusal :=
  divideResult f s fun a b => (unsignedDivide a b).2
/-- AND (R167). -/
def execAnd (f : SG) (s : State) : Host.Outcome State Fault Refusal :=
  aluRegisters f s fun a b => a &&& b
/-- OR (R167). -/
def execOr (f : SG) (s : State) : Host.Outcome State Fault Refusal :=
  aluRegisters f s fun a b => a ||| b
/-- XOR (R167). -/
def execXor (f : SG) (s : State) : Host.Outcome State Fault Refusal :=
  aluRegisters f s fun a b => a ^^^ b
/-- SHL (R167). -/
def execShl (f : SG) (s : State) : Host.Outcome State Fault Refusal :=
  aluRegisters f s fun a b => a <<< (b.toNat % 64)
/-- SHR (R167). -/
def execShr (f : SG) (s : State) : Host.Outcome State Fault Refusal :=
  aluRegisters f s fun a b => a >>> (b.toNat % 64)
/-- SRA (R167). -/
def execSra (f : SG) (s : State) : Host.Outcome State Fault Refusal :=
  aluRegisters f s fun a b => a.sshiftRight (b.toNat % 64)
/-- MIN (R167). -/
def execMin (f : SG) (s : State) : Host.Outcome State Fault Refusal :=
  aluRegisters f s fun a b => if a.toInt ≤ b.toInt then a else b
/-- MAX (R167). -/
def execMax (f : SG) (s : State) : Host.Outcome State Fault Refusal :=
  aluRegisters f s fun a b => if a.toInt ≤ b.toInt then b else a
/-- MINU (R167). -/
def execMinu (f : SG) (s : State) : Host.Outcome State Fault Refusal :=
  aluRegisters f s fun a b => if a.toNat ≤ b.toNat then a else b
/-- MAXU (R167). -/
def execMaxu (f : SG) (s : State) : Host.Outcome State Fault Refusal :=
  aluRegisters f s fun a b => if a.toNat ≤ b.toNat then b else a
/-- SLT (R167). -/
def execSlt (f : SG) (s : State) : Host.Outcome State Fault Refusal :=
  aluRegisters f s fun a b => truthWord (a.slt b)
/-- SLTU (R167). -/
def execSltu (f : SG) (s : State) : Host.Outcome State Fault Refusal :=
  aluRegisters f s fun a b => truthWord (a.ult b)

/-! ### The remaining register instructions (R169) -/

/-- Count of leading zero bits; 64 for zero. -/
def leadingZeroBits (a : Word) : Nat := ((List.range 64).find? fun i => a.getLsbD (63 - i)).getD 64

/-- Count of one bits. -/
def onesCount (a : Word) : Nat := (List.range 64).countP fun i => a.getLsbD i

/-- pos and len of EXT and INS. -/
def fieldPos (f : SG) : Nat := (f.sub.extractLsb' 27 6).toNat
def fieldLen (f : SG) : Nat := (f.sub.extractLsb' 21 6).toNat + 1

/-- The low `len` bits set. -/
def lowMask (len : Nat) : Word := BitVec.ofNat 64 (2 ^ len - 1)

/-- a[pos+len−1:pos], extended by zeros or by its top bit. -/
def extractField (a : Word) (pos len : Nat) (sx : Bool) : Word :=
  let x := (a >>> pos) &&& lowMask len
  if sx && x.getLsbD (len - 1) then x ||| ~~~lowMask len else x

/-- SEL (R169). -/
def execSel (f : SG) (s : State) : Host.Outcome State Fault Refusal :=
  spineResult s f.gd (if s.readG (f.sub.extractLsb' 28 5) ≠ 0 then s.readG f.ga else s.readG f.gb)
/-- CLZ (R169). -/
def execClz (f : SG) (s : State) : Host.Outcome State Fault Refusal :=
  spineResult s f.gd (BitVec.ofNat 64 (leadingZeroBits (s.readG f.ga)))
/-- POPC (R169). -/
def execPopc (f : SG) (s : State) : Host.Outcome State Fault Refusal :=
  spineResult s f.gd (BitVec.ofNat 64 (onesCount (s.readG f.ga)))
/-- EXT (R169). -/
def execExt (f : SG) (s : State) : Host.Outcome State Fault Refusal :=
  spineResult s f.gd (extractField (s.readG f.ga) (fieldPos f) (fieldLen f) (f.sub.getLsbD 20))
/-- INS (R169): the value of gd is read as a source, from before slot A. -/
def execIns (f : SG) (s : State) : Host.Outcome State Fault Refusal :=
  let mask := lowMask (fieldLen f) <<< fieldPos f
  spineResult s f.gd ((s.readG f.gd &&& ~~~mask) ||| ((s.readG f.ga <<< fieldPos f) &&& mask))

/-! ### Immediate instructions (R170) -/

/-- G[gd] := f(G[ga]). -/
def aluImmediate (f : SI) (s : State) (op : Word → Word) : Host.Outcome State Fault Refusal :=
  spineResult s f.gd (op (s.readG f.ga))

/-- ADDI (R170). -/
def execAddi (f : SI) (s : State) : Host.Outcome State Fault Refusal :=
  aluImmediate f s fun a => a + f.imm.signExtend 64
/-- ANDI (R170). -/
def execAndi (f : SI) (s : State) : Host.Outcome State Fault Refusal :=
  aluImmediate f s fun a => a &&& f.imm.signExtend 64
/-- ORI (R170). -/
def execOri (f : SI) (s : State) : Host.Outcome State Fault Refusal :=
  aluImmediate f s fun a => a ||| f.imm.setWidth 64
/-- XORI (R170). -/
def execXori (f : SI) (s : State) : Host.Outcome State Fault Refusal :=
  aluImmediate f s fun a => a ^^^ f.imm.setWidth 64
/-- SHLI (R170). -/
def execShli (f : SI) (s : State) : Host.Outcome State Fault Refusal :=
  aluImmediate f s fun a => a <<< (f.imm.extractLsb' 0 6).toNat
/-- SHRI (R170). -/
def execShri (f : SI) (s : State) : Host.Outcome State Fault Refusal :=
  aluImmediate f s fun a => a >>> (f.imm.extractLsb' 0 6).toNat
/-- SRAI (R170). -/
def execSrai (f : SI) (s : State) : Host.Outcome State Fault Refusal :=
  aluImmediate f s fun a => a.sshiftRight (f.imm.extractLsb' 0 6).toNat
/-- MOVI (R170). -/
def execMovi (f : SI) (s : State) : Host.Outcome State Fault Refusal :=
  aluImmediate f s fun _ => f.imm.signExtend 64
/-- MOVHI (R170). -/
def execMovhi (f : SI) (s : State) : Host.Outcome State Fault Refusal :=
  aluImmediate f s fun a => f.imm ++ a.extractLsb' 0 32
/-- SLTI (R170). -/
def execSlti (f : SI) (s : State) : Host.Outcome State Fault Refusal :=
  aluImmediate f s fun a => truthWord (a.slt (f.imm.signExtend 64))

end Sys2Proof.Machine
end

