-- ==== Sys2Proof/Machine/Vector.lean ====
section
/-!
DEFINITION. Slot A, vector instructions (R202 to R218): each performs its operation in the element in focus.
-/

namespace Sys2Proof.Machine

/-- VADD (R204). -/
def execVadd (f : AV) (s : State) : Host.Outcome State Fault Refusal := performSlot s (elemVadd f)
/-- VSUB (R204). -/
def execVsub (f : AV) (s : State) : Host.Outcome State Fault Refusal := performSlot s (elemVsub f)
/-- VMUL (R204). -/
def execVmul (f : AV) (s : State) : Host.Outcome State Fault Refusal := performSlot s (elemVmul f)
/-- VMULH (R204). -/
def execVmulh (f : AV) (s : State) : Host.Outcome State Fault Refusal := performSlot s (elemVmulh f)
/-- VMAD (R204). -/
def execVmad (f : AV) (s : State) : Host.Outcome State Fault Refusal := performSlot s (elemVmad f)
/-- VAND (R204). -/
def execVand (f : AV) (s : State) : Host.Outcome State Fault Refusal := performSlot s (elemVand f)
/-- VOR (R204). -/
def execVor (f : AV) (s : State) : Host.Outcome State Fault Refusal := performSlot s (elemVor f)
/-- VXOR (R204). -/
def execVxor (f : AV) (s : State) : Host.Outcome State Fault Refusal := performSlot s (elemVxor f)
/-- VSHL (R204). -/
def execVshl (f : AV) (s : State) : Host.Outcome State Fault Refusal := performSlot s (elemVshl f)
/-- VSHR (R204). -/
def execVshr (f : AV) (s : State) : Host.Outcome State Fault Refusal := performSlot s (elemVshr f)
/-- VSRA (R204). -/
def execVsra (f : AV) (s : State) : Host.Outcome State Fault Refusal := performSlot s (elemVsra f)
/-- VMIN (R204). -/
def execVmin (f : AV) (s : State) : Host.Outcome State Fault Refusal := performSlot s (elemVmin f)
/-- VMAX (R204). -/
def execVmax (f : AV) (s : State) : Host.Outcome State Fault Refusal := performSlot s (elemVmax f)
/-- VABS (R204). -/
def execVabs (f : AV) (s : State) : Host.Outcome State Fault Refusal := performSlot s (elemVabs f)
/-- VCMP (R207). -/
def execVcmp (f : AV) (s : State) : Host.Outcome State Fault Refusal := performSlot s (elemVcmp f)
/-- VSEL (R208). -/
def execVsel (f : AV) (s : State) : Host.Outcome State Fault Refusal := performSlot s (elemVsel f)
/-- VCLZ (R204). -/
def execVclz (f : AV) (s : State) : Host.Outcome State Fault Refusal := performSlot s (elemVclz f)
/-- VPOPC (R204). -/
def execVpopc (f : AV) (s : State) : Host.Outcome State Fault Refusal := performSlot s (elemVpopc f)
/-- VADDI (R206). -/
def execVaddi (f : AI) (s : State) : Host.Outcome State Fault Refusal := performSlot s (elemVaddi f)
/-- VMULI (R206). -/
def execVmuli (f : AI) (s : State) : Host.Outcome State Fault Refusal := performSlot s (elemVmuli f)
/-- VANDI (R206). -/
def execVandi (f : AI) (s : State) : Host.Outcome State Fault Refusal := performSlot s (elemVandi f)
/-- VSHLI (R206). -/
def execVshli (f : AI) (s : State) : Host.Outcome State Fault Refusal := performSlot s (elemVshli f)
/-- VSHRI (R206). -/
def execVshri (f : AI) (s : State) : Host.Outcome State Fault Refusal := performSlot s (elemVshri f)
/-- VMOVI (R206). -/
def execVmovi (f : AI) (s : State) : Host.Outcome State Fault Refusal := performSlot s (elemVmovi f)
/-- FADD (R209). -/
def execFadd (f : AV) (s : State) : Host.Outcome State Fault Refusal := performSlot s (elemFadd f)
/-- FSUB (R209). -/
def execFsub (f : AV) (s : State) : Host.Outcome State Fault Refusal := performSlot s (elemFsub f)
/-- FMUL (R209). -/
def execFmul (f : AV) (s : State) : Host.Outcome State Fault Refusal := performSlot s (elemFmul f)
/-- FFMA (R209). -/
def execFfma (f : AV) (s : State) : Host.Outcome State Fault Refusal := performSlot s (elemFfma f)
/-- FMIN (R210). -/
def execFmin (f : AV) (s : State) : Host.Outcome State Fault Refusal := performSlot s (elemFmin f)
/-- FMAX (R210). -/
def execFmax (f : AV) (s : State) : Host.Outcome State Fault Refusal := performSlot s (elemFmax f)
/-- FABS (R210). -/
def execFabs (f : AV) (s : State) : Host.Outcome State Fault Refusal := performSlot s (elemFabs f)
/-- FNEG (R210). -/
def execFneg (f : AV) (s : State) : Host.Outcome State Fault Refusal := performSlot s (elemFneg f)
/-- FCMP (R213). -/
def execFcmp (f : AV) (s : State) : Host.Outcome State Fault Refusal := performSlot s (elemFcmp f)
/-- FRCP (R211). -/
def execFrcp (f : AV) (s : State) : Host.Outcome State Fault Refusal := performSlot s (elemSpecial .rcp f)
/-- FRSQ (R211). -/
def execFrsq (f : AV) (s : State) : Host.Outcome State Fault Refusal := performSlot s (elemSpecial .rsq f)
/-- FEXP2 (R211). -/
def execFexp2 (f : AV) (s : State) : Host.Outcome State Fault Refusal := performSlot s (elemSpecial .exp2 f)
/-- FLOG2 (R211). -/
def execFlog2 (f : AV) (s : State) : Host.Outcome State Fault Refusal := performSlot s (elemSpecial .log2 f)
/-- FTANH (R211). -/
def execFtanh (f : AV) (s : State) : Host.Outcome State Fault Refusal := performSlot s (elemSpecial .tanh f)
/-- FCVT (R212). -/
def execFcvt (f : AV) (s : State) : Host.Outcome State Fault Refusal := performSlot s (elemFcvt f)
/-- FRNDI (R214). -/
def execFrndi (f : AV) (s : State) : Host.Outcome State Fault Refusal := performSlot s (elemFrndi f)
/-- FSCL (R209). -/
def execFscl (f : AV) (s : State) : Host.Outcome State Fault Refusal := performSlot s (elemFscl f)
/-- FMULI (R209). -/
def execFmuli (f : AI) (s : State) : Host.Outcome State Fault Refusal := performSlot s (elemFmuli f)
/-- VRED (R216). -/
def execVred (f : AV) (s : State) : Host.Outcome State Fault Refusal := performSlot s (elemVred f)
/-- VSHUF (R217). -/
def execVshuf (f : AV) (s : State) : Host.Outcome State Fault Refusal := performSlot s (elemVshuf f)
/-- VROT (R218). -/
def execVrot (f : AV) (s : State) : Host.Outcome State Fault Refusal := performSlot s (elemVrot f)
/-- VBCST (R218). -/
def execVbcst (f : AV) (s : State) : Host.Outcome State Fault Refusal := performSlot s (elemVbcst f)
/-- VINS (R218). -/
def execVins (f : AV) (s : State) : Host.Outcome State Fault Refusal := performSlot s (elemVins f)
/-- VEXT (R218). -/
def execVext (f : AV) (s : State) : Host.Outcome State Fault Refusal := performSlot s (elemVext f)
/-- VSCAN (R216). -/
def execVscan (f : AV) (s : State) : Host.Outcome State Fault Refusal := performSlot s (elemVscan f)

end Sys2Proof.Machine
end

