-- ==== Sys2Proof/Machine/Dispatch.lean ====
section
/-!
DEFINITION. Which meaning each instruction and operation has: one arm per constructor of `Instr`.
-/

namespace Sys2Proof.Machine

/-- The effect of one instruction or operation on the machine. -/
def exec (i : Instr) (s : State) : Host.Outcome State Fault Refusal :=
  match i with
  | .nop => Sys2Proof.Machine.execNop s
  | .br f => Sys2Proof.Machine.execBr f s
  | .brc f => Sys2Proof.Machine.execBrc f s
  | .call f => Sys2Proof.Machine.execCall f s
  | .ret f => Sys2Proof.Machine.execRet f s
  | .loop f => Sys2Proof.Machine.execLoop f s
  | .loopx f => Sys2Proof.Machine.execLoopx f s
  | .endLaunch f => Sys2Proof.Machine.execEndLaunch f s
  | .waitv f => Sys2Proof.Machine.execWaitv f s
  | .bri f => Sys2Proof.Machine.execBri f s
  | .add f => Sys2Proof.Machine.execAdd f s
  | .sub f => Sys2Proof.Machine.execSub f s
  | .mul f => Sys2Proof.Machine.execMul f s
  | .mulh f => Sys2Proof.Machine.execMulh f s
  | .mulhu f => Sys2Proof.Machine.execMulhu f s
  | .div f => Sys2Proof.Machine.execDiv f s
  | .divu f => Sys2Proof.Machine.execDivu f s
  | .rem f => Sys2Proof.Machine.execRem f s
  | .remu f => Sys2Proof.Machine.execRemu f s
  | .and f => Sys2Proof.Machine.execAnd f s
  | .or f => Sys2Proof.Machine.execOr f s
  | .xor f => Sys2Proof.Machine.execXor f s
  | .shl f => Sys2Proof.Machine.execShl f s
  | .shr f => Sys2Proof.Machine.execShr f s
  | .sra f => Sys2Proof.Machine.execSra f s
  | .min f => Sys2Proof.Machine.execMin f s
  | .max f => Sys2Proof.Machine.execMax f s
  | .minu f => Sys2Proof.Machine.execMinu f s
  | .maxu f => Sys2Proof.Machine.execMaxu f s
  | .slt f => Sys2Proof.Machine.execSlt f s
  | .sltu f => Sys2Proof.Machine.execSltu f s
  | .sel f => Sys2Proof.Machine.execSel f s
  | .clz f => Sys2Proof.Machine.execClz f s
  | .popc f => Sys2Proof.Machine.execPopc f s
  | .ext f => Sys2Proof.Machine.execExt f s
  | .ins f => Sys2Proof.Machine.execIns f s
  | .addi f => Sys2Proof.Machine.execAddi f s
  | .andi f => Sys2Proof.Machine.execAndi f s
  | .ori f => Sys2Proof.Machine.execOri f s
  | .xori f => Sys2Proof.Machine.execXori f s
  | .shli f => Sys2Proof.Machine.execShli f s
  | .shri f => Sys2Proof.Machine.execShri f s
  | .srai f => Sys2Proof.Machine.execSrai f s
  | .movi f => Sys2Proof.Machine.execMovi f s
  | .movhi f => Sys2Proof.Machine.execMovhi f s
  | .slti f => Sys2Proof.Machine.execSlti f s
  | .ldg f => Sys2Proof.Machine.execLdg f s
  | .stg f => Sys2Proof.Machine.execStg f s
  | .atom f => Sys2Proof.Machine.execAtom f s
  | .ldlit f => Sys2Proof.Machine.execLdlit f s
  | .fence f => Sys2Proof.Machine.execFence f s
  | .strm f => Sys2Proof.Machine.execStrm f s
  | .swait f => Sys2Proof.Machine.execSwait f s
  | .cpy f => Sys2Proof.Machine.execCpy f s
  | .coll f => Sys2Proof.Machine.execColl f s
  | .waitc f => Sys2Proof.Machine.execWaitc f s
  | .signal f => Sys2Proof.Machine.execSignal f s
  | .bar f => Sys2Proof.Machine.execBar f s
  | .arrv f => Sys2Proof.Machine.execArrv f s
  | .bwait f => Sys2Proof.Machine.execBwait f s
  | .launch f => Sys2Proof.Machine.execLaunch f s
  | .fbc f => Sys2Proof.Machine.execFbc f s
  | .setm f => Sys2Proof.Machine.execSetm f s
  | .cfgld f => Sys2Proof.Machine.execCfgld f s
  | .plsw f => Sys2Proof.Machine.execPlsw f s
  | .enter f => Sys2Proof.Machine.execEnter f s
  | .leave f => Sys2Proof.Machine.execLeave f s
  | .trace f => Sys2Proof.Machine.execTrace f s
  | .prog f => Sys2Proof.Machine.execProg f s
  | .rdcyc f => Sys2Proof.Machine.execRdcyc f s
  | .rdtime f => Sys2Proof.Machine.execRdtime f s
  | .cntrCfg f => Sys2Proof.Machine.execCntrCfg f s
  | .cntrStart f => Sys2Proof.Machine.execCntrStart f s
  | .cntrStop f => Sys2Proof.Machine.execCntrStop f s
  | .cntrRead f => Sys2Proof.Machine.execCntrRead f s
  | .bkpt f => Sys2Proof.Machine.execBkpt f s
  | .jsub f => Sys2Proof.Machine.execJsub f s
  | .junsub f => Sys2Proof.Machine.execJunsub f s
  | .jpin f => Sys2Proof.Machine.execJpin f s
  | .junpin f => Sys2Proof.Machine.execJunpin f s
  | .jprop f => Sys2Proof.Machine.execJprop f s
  | .jload f => Sys2Proof.Machine.execJload f s
  | .jread f => Sys2Proof.Machine.execJread f s
  | .jwait f => Sys2Proof.Machine.execJwait f s
  | .seqnew f => Sys2Proof.Machine.execSeqnew f s
  | .seqrot f => Sys2Proof.Machine.execSeqrot f s
  | .seqend f => Sys2Proof.Machine.execSeqend f s
  | .trap f => Sys2Proof.Machine.execTrap f s
  | .csrr f => Sys2Proof.Machine.execCsrr f s
  | .csrw f => Sys2Proof.Machine.execCsrw f s
  | .genadv f => Sys2Proof.Machine.execGenadv f s
  | .yield f => Sys2Proof.Machine.execYield f s
  | .vadd f => Sys2Proof.Machine.execVadd f s
  | .vsub f => Sys2Proof.Machine.execVsub f s
  | .vmul f => Sys2Proof.Machine.execVmul f s
  | .vmulh f => Sys2Proof.Machine.execVmulh f s
  | .vmad f => Sys2Proof.Machine.execVmad f s
  | .vand f => Sys2Proof.Machine.execVand f s
  | .vor f => Sys2Proof.Machine.execVor f s
  | .vxor f => Sys2Proof.Machine.execVxor f s
  | .vshl f => Sys2Proof.Machine.execVshl f s
  | .vshr f => Sys2Proof.Machine.execVshr f s
  | .vsra f => Sys2Proof.Machine.execVsra f s
  | .vmin f => Sys2Proof.Machine.execVmin f s
  | .vmax f => Sys2Proof.Machine.execVmax f s
  | .vabs f => Sys2Proof.Machine.execVabs f s
  | .vcmp f => Sys2Proof.Machine.execVcmp f s
  | .vsel f => Sys2Proof.Machine.execVsel f s
  | .vclz f => Sys2Proof.Machine.execVclz f s
  | .vpopc f => Sys2Proof.Machine.execVpopc f s
  | .vaddi f => Sys2Proof.Machine.execVaddi f s
  | .vmuli f => Sys2Proof.Machine.execVmuli f s
  | .vandi f => Sys2Proof.Machine.execVandi f s
  | .vshli f => Sys2Proof.Machine.execVshli f s
  | .vshri f => Sys2Proof.Machine.execVshri f s
  | .vmovi f => Sys2Proof.Machine.execVmovi f s
  | .fadd f => Sys2Proof.Machine.execFadd f s
  | .fsub f => Sys2Proof.Machine.execFsub f s
  | .fmul f => Sys2Proof.Machine.execFmul f s
  | .ffma f => Sys2Proof.Machine.execFfma f s
  | .fmin f => Sys2Proof.Machine.execFmin f s
  | .fmax f => Sys2Proof.Machine.execFmax f s
  | .fabs f => Sys2Proof.Machine.execFabs f s
  | .fneg f => Sys2Proof.Machine.execFneg f s
  | .fcmp f => Sys2Proof.Machine.execFcmp f s
  | .frcp f => Sys2Proof.Machine.execFrcp f s
  | .frsq f => Sys2Proof.Machine.execFrsq f s
  | .fexp2 f => Sys2Proof.Machine.execFexp2 f s
  | .flog2 f => Sys2Proof.Machine.execFlog2 f s
  | .ftanh f => Sys2Proof.Machine.execFtanh f s
  | .fcvt f => Sys2Proof.Machine.execFcvt f s
  | .frndi f => Sys2Proof.Machine.execFrndi f s
  | .fscl f => Sys2Proof.Machine.execFscl f s
  | .fmuli f => Sys2Proof.Machine.execFmuli f s
  | .vred f => Sys2Proof.Machine.execVred f s
  | .vshuf f => Sys2Proof.Machine.execVshuf f s
  | .vrot f => Sys2Proof.Machine.execVrot f s
  | .vbcst f => Sys2Proof.Machine.execVbcst f s
  | .vins f => Sys2Proof.Machine.execVins f s
  | .vext f => Sys2Proof.Machine.execVext f s
  | .vscan f => Sys2Proof.Machine.execVscan f s
  | .mma f => Sys2Proof.Machine.execMma f s
  | .mmas f => Sys2Proof.Machine.execMmas f s
  | .mzero f => Sys2Proof.Machine.execMzero f s
  | .mdrn f => Sys2Proof.Machine.execMdrn f s
  | .mdrq f => Sys2Proof.Machine.execMdrq f s
  | .mldr f => Sys2Proof.Machine.execMldr f s
  | .mtrn f => Sys2Proof.Machine.execMtrn f s
  | .sadd f => Sys2Proof.Machine.execSadd f s
  | .ssub f => Sys2Proof.Machine.execSsub f s
  | .smul f => Sys2Proof.Machine.execSmul f s
  | .sand f => Sys2Proof.Machine.execSand f s
  | .sor f => Sys2Proof.Machine.execSor f s
  | .sxor f => Sys2Proof.Machine.execSxor f s
  | .sshl f => Sys2Proof.Machine.execSshl f s
  | .sshr f => Sys2Proof.Machine.execSshr f s
  | .smovi f => Sys2Proof.Machine.execSmovi f s
  | .sslt f => Sys2Proof.Machine.execSslt f s
  | .saddi f => Sys2Proof.Machine.execSaddi f s
  | .kand f => Sys2Proof.Machine.execKand f s
  | .kor f => Sys2Proof.Machine.execKor f s
  | .kxor f => Sys2Proof.Machine.execKxor f s
  | .knot f => Sys2Proof.Machine.execKnot f s
  | .kmov f => Sys2Proof.Machine.execKmov f s
  | .kpopc f => Sys2Proof.Machine.execKpopc f s
  | .vote f => Sys2Proof.Machine.execVote f s
  | .elid f => Sys2Proof.Machine.execElid f s
  | .ld f => Sys2Proof.Machine.execLd f s
  | .st f => Sys2Proof.Machine.execSt f s
  | .lds f => Sys2Proof.Machine.execLds f s
  | .sts f => Sys2Proof.Machine.execSts f s
  | .ldx f => Sys2Proof.Machine.execLdx f s
  | .stx f => Sys2Proof.Machine.execStx f s
  | .ldb f => Sys2Proof.Machine.execLdb f s
  | .stb f => Sys2Proof.Machine.execStb f s
  | .satom f => Sys2Proof.Machine.execSatom f s
  | .bdecl f => Sys2Proof.Machine.execBdecl f s
  | .bstateFull f => Sys2Proof.Machine.execBstateFull f s
  | .bstateEmpty f => Sys2Proof.Machine.execBstateEmpty f s
  | .bqry f => Sys2Proof.Machine.execBqry f s
  | .rt f => Sys2Proof.Machine.execRt f s
  | .vmov f => Sys2Proof.Machine.execVmov f s
  | .smov f => Sys2Proof.Machine.execSmov f s
  | .ringset f => Sys2Proof.Machine.execRingset f s
  | .vfroms f => Sys2Proof.Machine.execVfroms f s
  | .egrVector f => Sys2Proof.Machine.execEgrVector f s
  | .egrBuffer f => Sys2Proof.Machine.execEgrBuffer f s
  | .cntSel f => Sys2Proof.Machine.execCntSel f s
  | .cntRdlo f => Sys2Proof.Machine.execCntRdlo f s
  | .cntRdhi f => Sys2Proof.Machine.execCntRdhi f s
  | .cntClr f => Sys2Proof.Machine.execCntClr f s
  | .cntHlo f => Sys2Proof.Machine.execCntHlo f s
  | .cntHhi f => Sys2Proof.Machine.execCntHhi f s
  | .spineEmitWord sig => Sys2Proof.Machine.execSpineEmitWord sig s
  | .fetchBlockArrives sig block => Sys2Proof.Machine.execFetchBlockArrives sig block s
  | .resultLands sig row col => Sys2Proof.Machine.execResultLands sig row col s
  | .voteResultDelivered sig => Sys2Proof.Machine.execVoteResultDelivered sig s
  | .routeValueLands sig row col => Sys2Proof.Machine.execRouteValueLands sig row col s
  | .waitConditionCheck sig => Sys2Proof.Machine.execWaitConditionCheck sig s
  | .holdFreeze sig => Sys2Proof.Machine.execHoldFreeze sig s
  | .holdRelease sig => Sys2Proof.Machine.execHoldRelease sig s
  | .spineWaitSatisfied sig => Sys2Proof.Machine.execSpineWaitSatisfied sig s
  | .waitcPoll sig => Sys2Proof.Machine.execWaitcPoll sig s
  | .launchWindowWrite vif offset size record => Sys2Proof.Machine.execLaunchWindowWrite vif offset size record s
  | .cwaitPoll vif => Sys2Proof.Machine.execCwaitPoll vif s
  | .priorityAging vif => Sys2Proof.Machine.execPriorityAging vif s
  | .candidateBecomesBlocking vif => Sys2Proof.Machine.execCandidateBecomesBlocking vif s
  | .binderyStep => Sys2Proof.Machine.execBinderyStep s
  | .freezeWaveEffect sig => Sys2Proof.Machine.execFreezeWaveEffect sig s
  | .imageSave sig => Sys2Proof.Machine.execImageSave sig s
  | .imageRestore sig row col => Sys2Proof.Machine.execImageRestore sig row col s
  | .wrapSweep sig => Sys2Proof.Machine.execWrapSweep sig s
  | .seamPlaneSwitch sig => Sys2Proof.Machine.execSeamPlaneSwitch sig s
  | .seamGenerationAdvance sig => Sys2Proof.Machine.execSeamGenerationAdvance sig s
  | .launchComplete sig => Sys2Proof.Machine.execLaunchComplete sig s
  | .interruptWindowExpiry vif => Sys2Proof.Machine.execInterruptWindowExpiry vif s
  | .planeLoadComplete folio plane => Sys2Proof.Machine.execPlaneLoadComplete folio plane s
  | .planeLoadError folio plane => Sys2Proof.Machine.execPlaneLoadError folio plane s
  | .streamRequestIssue sig ctx => Sys2Proof.Machine.execStreamRequestIssue sig ctx s
  | .tlbWalkComplete request => Sys2Proof.Machine.execTlbWalkComplete request s
  | .keyCacheUnwrap request => Sys2Proof.Machine.execKeyCacheUnwrap request s
  | .homeApplyRequest request => Sys2Proof.Machine.execHomeApplyRequest request s
  | .requestReply request => Sys2Proof.Machine.execRequestReply request s
  | .fillHalfLands sig ctx => Sys2Proof.Machine.execFillHalfLands sig ctx s
  | .deferredVoid sig ctx => Sys2Proof.Machine.execDeferredVoid sig ctx s
  | .egressGranuleTaken sig row col => Sys2Proof.Machine.execEgressGranuleTaken sig row col s
  | .streamComplete sig ctx => Sys2Proof.Machine.execStreamComplete sig ctx s
  | .readAheadExpiry sig => Sys2Proof.Machine.execReadAheadExpiry sig s
  | .tlbinvAll => Sys2Proof.Machine.execTlbinvAll s
  | .tlbinvInterface vif => Sys2Proof.Machine.execTlbinvInterface vif s
  | .tlbinvPage vif addr => Sys2Proof.Machine.execTlbinvPage vif addr s
  | .tlbinvPageAll addr => Sys2Proof.Machine.execTlbinvPageAll addr s
  | .tlbinvComplete => Sys2Proof.Machine.execTlbinvComplete s
  | .cpyUnitTransfer copy => Sys2Proof.Machine.execCpyUnitTransfer copy s
  | .dmaWindowWrite priv vif offset size block => Sys2Proof.Machine.execDmaWindowWrite priv vif offset size block s
  | .dataImageCopy vif block => Sys2Proof.Machine.execDataImageCopy vif block s
  | .dmaCopyStart => Sys2Proof.Machine.execDmaCopyStart s
  | .collStepStart step => Sys2Proof.Machine.execCollStepStart step s
  | .collGrantReceive frame => Sys2Proof.Machine.execCollGrantReceive frame s
  | .collDataFrameReceive frame => Sys2Proof.Machine.execCollDataFrameReceive frame s
  | .collAckReceive frame => Sys2Proof.Machine.execCollAckReceive frame s
  | .collRetransmit step => Sys2Proof.Machine.execCollRetransmit step s
  | .collStepTimeout step => Sys2Proof.Machine.execCollStepTimeout step s
  | .ethernetPortDown port => Sys2Proof.Machine.execEthernetPortDown port s
  | .ptpMessageReceive port offset => Sys2Proof.Machine.execPtpMessageReceive port offset s
  | .servoCorrection phase ratePpm => Sys2Proof.Machine.execServoCorrection phase ratePpm s
  | .syncLoss => Sys2Proof.Machine.execSyncLoss s
  | .gform vif addr => Sys2Proof.Machine.execGform vif addr s
  | .imgreg vif addr => Sys2Proof.Machine.execImgreg vif addr s
  | .imgdel vif code => Sys2Proof.Machine.execImgdel vif code s
  | .jexp vif addr => Sys2Proof.Machine.execJexp vif addr s
  | .jrev vif number => Sys2Proof.Machine.execJrev vif number s
  | .jprv vif addr => Sys2Proof.Machine.execJprv vif addr s
  | .frespAbort vif seq => Sys2Proof.Machine.execFrespAbort vif seq s
  | .frespResume vif seq => Sys2Proof.Machine.execFrespResume vif seq s
  | .frespRetry vif seq => Sys2Proof.Machine.execFrespRetry vif seq s
  | .dbgResume vif => Sys2Proof.Machine.execDbgResume vif s
  | .dselRead vif sel => Sys2Proof.Machine.execDselRead vif sel s
  | .dselWrite vif sel => Sys2Proof.Machine.execDselWrite vif sel s
  | .tringWrite value => Sys2Proof.Machine.execTringWrite value s
  | .mcapWrite value => Sys2Proof.Machine.execMcapWrite value s
  | .carveWrite value => Sys2Proof.Machine.execCarveWrite value s
  | .ecarveWrite value => Sys2Proof.Machine.execEcarveWrite value s
  | .registerWrite priv offset value => Sys2Proof.Machine.execRegisterWrite priv offset value s
  | .debugStop vif cause code => Sys2Proof.Machine.execDebugStop vif cause code s
  | .faultStopFreeze sig => Sys2Proof.Machine.execFaultStopFreeze sig s
  | .faultStopResume sig => Sys2Proof.Machine.execFaultStopResume sig s
  | .launchEndByFault sig => Sys2Proof.Machine.execLaunchEndByFault sig s
  | .uncorrectableError place => Sys2Proof.Machine.execUncorrectableError place s
  | .engineProposal vif proposal after => Sys2Proof.Machine.execEngineProposal vif proposal after s
  | .transactionApply number => Sys2Proof.Machine.execTransactionApply number s
  | .fmtApply number => Sys2Proof.Machine.execFmtApply number s
  | .trialStart number => Sys2Proof.Machine.execTrialStart number s
  | .trialWindowEnd number => Sys2Proof.Machine.execTrialWindowEnd number s
  | .trialTimeout number => Sys2Proof.Machine.execTrialTimeout number s
  | .proposalValidityExpiry number => Sys2Proof.Machine.execProposalValidityExpiry number s
  | .compoundRevertUndo number => Sys2Proof.Machine.execCompoundRevertUndo number s
  | .causalTrial sig region fraction wlog => Sys2Proof.Machine.execCausalTrial sig region fraction wlog s
  | .causalDelay sig => Sys2Proof.Machine.execCausalDelay sig s
  | .rstNDeassert => Sys2Proof.Machine.execRstNDeassert s
  | .rstNAssert => Sys2Proof.Machine.execRstNAssert s
  | .verifyComponent order bytes keyX keyY sigR sigS => Sys2Proof.Machine.execVerifyComponent order bytes keyX keyY sigR sigS s
  | .earlyTrainingComplete => Sys2Proof.Machine.execEarlyTrainingComplete s
  | .fullServiceTransition => Sys2Proof.Machine.execFullServiceTransition s
  | .trainingFailure service die => Sys2Proof.Machine.execTrainingFailure service die s
  | .ethernetTrainingFailure port => Sys2Proof.Machine.execEthernetTrainingFailure port s
  | .getVersion path => Sys2Proof.Machine.execGetVersion path s
  | .getCapabilities path => Sys2Proof.Machine.execGetCapabilities path s
  | .negotiateAlgorithms path asym hash => Sys2Proof.Machine.execNegotiateAlgorithms path asym hash s
  | .getDigests path => Sys2Proof.Machine.execGetDigests path s
  | .getCertificate path slot => Sys2Proof.Machine.execGetCertificate path slot s
  | .challenge path slot summary nonce => Sys2Proof.Machine.execChallenge path slot summary nonce s
  | .getMeasurements path index nonce => Sys2Proof.Machine.execGetMeasurements path index nonce s
  | .unsupportedRequest path code => Sys2Proof.Machine.execUnsupportedRequest path code s
  | .powerEnforcementWindow => Sys2Proof.Machine.execPowerEnforcementWindow s
  | .folioPowerGate folio => Sys2Proof.Machine.execFolioPowerGate folio s
  | .folioUngateComplete folio => Sys2Proof.Machine.execFolioUngateComplete folio s
  | .thermalEmergencyCap temp die => Sys2Proof.Machine.execThermalEmergencyCap temp die s
  | .thermalShareLimit temp die => Sys2Proof.Machine.execThermalShareLimit temp die s
  | .thermalHalt temp die => Sys2Proof.Machine.execThermalHalt temp die s
  | .thermalRelease temp die => Sys2Proof.Machine.execThermalRelease temp die s
  | .traceStageDrain die => Sys2Proof.Machine.execTraceStageDrain die s
  | .traceRingCopy die => Sys2Proof.Machine.execTraceRingCopy die s
  | .registerRead priv offset => Sys2Proof.Machine.execRegisterRead priv offset s
  | .worldKeyCreate vif => Sys2Proof.Machine.execWorldKeyCreate vif s
  | .worldKeyDestroy vif => Sys2Proof.Machine.execWorldKeyDestroy vif s
  | .precisionTimeMessageSend port => Sys2Proof.Machine.execPrecisionTimeMessageSend port s

end Sys2Proof.Machine
end

