-- ==== Sys2Proof/Machine/Schedule.lean ====
section
/-!
DEFINITION. A wall cycle as a list of micro-operations (log 1, DESIGN CHOICE): what each one does, which ones a cycle holds and in what order, and what the
end of a cycle counts (R15, R25, R39, R40, R283, R296, R310, R339).
-/

namespace Sys2Proof.Machine

/-! ### Micro-operations -/

/-- The instruction in a slot of the fabric word in focus is performed. -/
def State.runElemSlot (s : State) (slotB : Bool) : Host.Outcome State Fault Refusal :=
  match s.focus.slot slotB with
  | .instr i => exec i (s.beginSlot slotB)
  | .illegal _ => .fault .undecodedSlot

/-- What a slot of the spine word being performed holds. -/
def Spine.slot (p : Spine) (slotB : Bool) : SlotDecode :=
  decodeSlot .spine (if slotB then SchedWord.slotB p.ir else SchedWord.slotA p.ir)

/-- Whether the spine stands at a slot. -/
def Spine.atSlot (p : Spine) (slotB : Bool) : Bool :=
  match p.phase with
  | .slotA => !slotB
  | .slotB => slotB
  | _ => false

/-- The instruction in a slot of the spine word in focus is performed, if the spine stands at that slot. -/
def State.runSpineSlot (s : State) (slotB : Bool) : Host.Outcome State Fault Refusal :=
  let p := s.here
  if !p.atSlot slotB then .next s
  else
    match p.slot slotB with
    | .instr i => exec i { s with focus := { Focus.idle with sig := s.focus.sig, spine := true, slotB, word := p.ir } }
    | .illegal _ => .fault .undecodedSlot

/-- A host thread's store: the bytes at addresses that have a home, which on a stack is there in state 3 (R334). A range entry that it rewrites
loses its addressing format (R288). -/
def State.storeHost (s : State) (addr : Nat) (bytes : List Byte) : State :=
  let there (a : Nat) : Bool := match homeOf a with | some (.stack _) => s.platform.service == 3 | some .host => true | none => false
  let put (m : Memory) (i : Nat) (b : Byte) : Memory := if there (addr + i) then m.write (addr + i) b else m
  let memory := (bytes.zipIdx).foldl (fun m x => put m x.2 x.1) s.memory
  let whole (u : Nat) : Bool := addr ≤ 64 * u && 64 * u + 64 ≤ addr + bytes.length && there (64 * u)
  { s.rewriteRanges addr bytes.length with memory, poisonedUnits := s.poisonedUnits.filter fun u => !whole u }

/-- The region that a cycle counts in: the top of the stack, which an ENTER or LEAVE changes for the cycles after its word (R189). -/
def Spine.countedRegion (p : Spine) : Nat :=
  let stack :=
    match p.phase with
    | .slotA => p.before.region
    | .slotB => p.before.region
    | .leave => p.before.region
    | .faulted _ => p.before.region
    | _ => p.region
  match stack with
  | r :: _ => r.toNat
  | [] => 0

/-- Whether a wave that keeps a cycle out of what is measured is in force (R44, R283). -/
def Sig.unmeasured (g : Sig) : Bool := g.waves.any fun w => w.inForce && w.cause != .causal

/-- Whether only the wait conditions freeze a signature (R25). -/
def Sig.heldOnly (g : Sig) : Bool :=
  g.held && !g.waves.any (·.inForce) && !(match g.stop with | some st => st.inForce | none => false)

/-- A signature that stands on folios is clocked in this cycle; a cycle in which its words move begins a row of its history (R283). -/
def State.clockSig (s : State) (sig : Nat) : State :=
  let g := s.sig sig
  if g.status == .saved then s
  else
    let moves := s.runs sig
    let starts := g.status == .starting
    let region := (s.spineAnywhere sig).countedRegion
    let now : Clocked :=
      { sig, moves, held := g.heldOnly, starts, sweeps := starts && decide (0 < g.sweep), frozen := g.frozen, measured := !g.unmeasured, region }
    let s : State := { s with clocked := s.clocked ++ [now] }
    if moves then s.setSig sig { g with history := (s.meterNow sig :: g.history).take (2 ^ 32 + 1) } else s

/-! ### The end of a wall cycle -/

/-- How a clocked signature spends the cycle: its words move; it is held and nothing else freezes it (R24); or neither (R39). -/
inductive Spent where
  | busy | held | idle
  deriving DecidableEq, Repr

/-- How a folio spends the cycle of a signature that stood on it as the cycle began: one that starts is busy while the folio is powered and nothing
freezes it, and in its sweep (R39, R65, R339). -/
def Clocked.spent (x : Clocked) (gated : Bool) : Spent :=
  if x.starts then (if x.sweeps then .busy else if gated || x.frozen then .idle else .busy)
  else if x.moves then .busy
  else if x.held then .held
  else .idle

/-- T rises with every cycle in which the words move; words that every element has executed are forgotten. -/
def Sig.advanceTime (g : Sig) (moved : Bool) : Sig :=
  if moved then { g with time := g.time + 1, flight := g.flight.filter fun w => g.time ≤ w.n + g.lastDelay } else g

/-- The region counts of R40, at most 64 of them. -/
def countRegion (t : Tab RegionCount) (region cycle : Nat) (spent : Spent) : Tab RegionCount :=
  if spent = .idle then t
  else
    let old := t.get RegionCount.zero region
    let new : RegionCount :=
      { busy := if spent = .busy then old.busy + 1 else old.busy, held := if spent = .held then old.held + 1 else old.held, lastUse := cycle }
    let t := t.put region new
    let evict (t : Tab RegionCount) : Tab RegionCount :=
      if t.length ≤ 64 then t
      else
        let oldest := (t.filter fun x => x.1 ≠ 0 && x.1 ≠ region).foldl (fun (b : Option (Nat × RegionCount)) x =>
          match b with
          | none => some x
          | some y => if x.2.lastUse < y.2.lastUse then some x else b) none
        match oldest with
        | none => t
        | some (k, c) =>
          let zero := t.get RegionCount.zero 0
          (Tab.erase k t).put 0 { busy := zero.busy + c.busy, held := zero.held + c.held, lastUse := max zero.lastUse c.lastUse }
    evict (evict t)

/-- The counts of one clocked signature at the end of the cycle; its regions count the cycles of its lead spine's folio. -/
def State.closeSig (s : State) (x : Clocked) : State :=
  let sig := x.sig
  let g := s.sig sig
  if g.status == .saved then s
  else
    let spent := x.spent (s.folio g.row0 g.col0).gated
    let regions := countRegion g.regions x.region s.cycle spent
    if x.starts then s.setSig sig { g with regions }
    else if g.status == .starting then s
    else
      let s := if spent = .held then s.count sig 4 1 else s
      s.setSig sig { g.advanceTime x.moves with
        hold := if spent = .held then g.hold + 1 else g.hold
        measured := if x.measured then g.measured + 1 else g.measured
        regions }

/-- A causal trial counts the cycle: delays spent, and measured cycles outside its region (R296). -/
def State.closeCausal (s : State) : State :=
  let step (r : CausalRun) : CausalRun :=
    let g := s.sig r.sig
    let delayed := g.waves.any fun w => w.inForce && w.cause == .causal
    let inside := s.clocked.any fun x => x.sig == r.sig && x.region == r.region
    let measured := s.clocked.any fun x => x.sig == r.sig && !x.starts && x.measured
    { r with
      owed := if delayed then r.owed - 1 else r.owed
      outside := if r.delaying && measured && !inside then r.outside + 1 else r.outside }
  { s with journal := { s.journal with causal := s.journal.causal.map step } }

/-- How a folio spends the cycle (R39): as the signature does that stood on it as the cycle began; idle otherwise. -/
def State.folioSpent (s : State) (f : Folio) : Spent :=
  if f.placed = 0 then .idle
  else
    match s.clocked.find? fun x => x.sig + 1 == f.placed with
    | some x => x.spent f.gated
    | none => .idle

/-- The counts of one folio from module reset on: the dune map, and the cycles idle toward power gating (R39, R339). (log 67, DEDUCED) -/
def State.closeFolio (s : State) (k : Nat) : State :=
  let row := k / 24
  let col := k % 24
  let f := s.folio row col
  let spent := s.folioSpent f
  s.setFolio row col { f with
    busy := if spent = .busy then f.busy + 1 else f.busy
    held := if spent = .held then f.held + 1 else f.held
    idle := if spent = .idle then f.idle + 1 else f.idle
    idleFor := if f.placed = 0 && !f.gated && !s.journalHolds k then f.idleFor + 1 else 0 }

/-- Issue credit toward the next cycle in which an interface's words may move (R15; log 8, DESIGN CHOICE). -/
def State.closeCredit (s : State) : State :=
  (List.range 64).foldl (fun s v =>
    let f := s.iface v
    s.setIface v { f with credit := (f.credit + s.shareOf v) % 2 ^ 32 }) s

/-- The disciplined time over one fabric cycle: 0.4 ns, and 0.8 ns in state 2 (R310, R334). A backward correction slows it by at most
1,000 ppm; a forward one is a step at the end of its wall cycle. (log 66, DEDUCED) -/
def Clock.tick (c : Clock) (early : Bool) : Clock :=
  let scale : Nat := if early then 2 else 1
  let full := ((2000000 + 2 * c.ratePpm) * (scale : Int)).toNat
  let absorbed := min c.backlog (2000 * scale)
  { c with oscillator := c.oscillator + scale, time := c.time + (full - absorbed) + c.step, backlog := c.backlog - absorbed, step := 0 }

/-- Halves that landed in this cycle keep no store of the next one out (R58), and egress granules have held their row buses for one cycle more
(R87). -/
def State.clearLanded (s : State) : State :=
  { s with elements := Tab.mapItems Element.zero (fun e => { e with landed := [], bus := e.bus - 1 }) s.elements }

/-- The wall cycle ends. -/
def State.closeCycle (s : State) : State :=
  let s := (List.range 288).foldl State.closeFolio s
  let s := s.closeCausal
  let s : State := s.clocked.foldl State.closeSig s
  let s := s.closeCredit.clearLanded.retireOld
  { s with clock := s.clock.tick (s.platform.service == 2), cycle := s.cycle + 1, clocked := [] }

/-! ### One micro-operation -/

/-- The security controller serves the request at the head of its queue: an SPDM request, or the key operation that a spine waits for, whose slot
is performed, frozen or not (R96, R158, R333; log 85, DEDUCED). -/
def State.serveNext (s : State) : Host.Outcome State Fault Refusal :=
  match s.serviceQueue with
  | [] => .next s
  | .spdm i :: rest => exec i { s with serviceQueue := rest }
  | .key sig :: rest =>
    let s : State := { s with serviceQueue := rest, focus := { Focus.idle with sig, spine := true } }
    s.runSpineSlot (!s.here.atSlot false)

/-- Perform a micro-operation. -/
def runTask (t : Task) (s : State) : Host.Outcome State Fault Refusal :=
  match t with
  | .event i => exec i s
  | .elemWord sig row col => .next (s.meetWord sig row col)
  | .startSig sig => .next (s.clockSig sig)
  | .elemSlot slotB => s.runElemSlot slotB
  | .elemLeave => .next s.leaveElement
  | .spineSlot slotB => s.runSpineSlot slotB
  | .spineLeave => .next (s.spineOut s.focus.sig)
  | .enterSwitch r => .next (s.enterSwitch r)
  | .launchEnqueue sig => .next (s.enqueueLaunches sig)
  | .spdmArrives i => .next (if s.serving then { s with serviceQueue := s.serviceQueue ++ [.spdm i] } else s)
  | .serve => s.serveNext
  | .reissue sig => .next (s.reissueResolved sig (!s.runs sig))
  | .journalCopies => .next s.writeCopies
  | .hostStore addr bytes => .next (s.storeHost addr bytes)
  | .endCycle => .next s.closeCycle

/-! ### The micro-operations of a wall cycle -/

/-- An operation that a cycle may hold: always, or when its latency, which is open, has run out. -/
structure Prospect where
  latent : Bool
  task : Task
  deriving DecidableEq, Repr

def due (i : Instr) : Prospect := ⟨false, .event i⟩
def latent (i : Instr) : Prospect := ⟨true, .event i⟩

/-- The operations of a cycle, given where its free values start: of those with an open latency, the ones that occur now. -/
def layOut (free : Nat) : List Prospect → List Task
  | [] => []
  | p :: rest =>
    if p.latent then (if Config.occurs free then p.task :: layOut (free + 1) rest else layOut (free + 1) rest)
    else p.task :: layOut free rest

/-- Freezes and stops that begin or end with this cycle (R24, R41, R296, R352), before it is settled whether the signature's words move in it;
what its ports then issue again (R78, R383). -/
def State.freezeEvents (s : State) (sig : Nat) : List Prospect :=
  [due (.holdFreeze sig), due (.holdRelease sig), due (.freezeWaveEffect sig), due (.faultStopFreeze sig), due (.faultStopResume sig)]
  ++ (s.journal.causal.filter fun (r : CausalRun) => r.sig == sig).flatMap (fun (r : CausalRun) =>
    [due (.causalTrial r.sig r.region r.fraction r.wlog), due (.causalDelay r.sig)])
  ++ [⟨false, .startSig sig⟩]
  ++ (if (s.sig sig).reissue || s.requests.any (fun r => r.isResolved && r.source.owner.1 == sig) then [⟨false, .reissue sig⟩] else [])

/-- The journal's operations, by transaction number (R274, R281 to R289, R299). -/
def State.journalEvents (s : State) : List Prospect :=
  s.journal.txs.flatMap fun t =>
    [due (.trialStart t.num), due (.trialWindowEnd t.num), due (.trialTimeout t.num), due (.proposalValidityExpiry t.num),
     due (.transactionApply t.num), due (.fmtApply t.num)]
    ++ (s.journal.reverts.filter fun (r : CompoundRevert) => r.members.head? == some t.num).map fun r => due (.compoundRevertUndo r.num)

/-- Fill halves of a signature's contexts: at most four land on a folio in a cycle (R87). (log 77, DEDUCED) -/
def State.fillEvents (s : State) (sig : Nat) : List Prospect :=
  ((s.sig sig).ctxs.filter fun x => x.2.kind == .stream).flatMap fun x => List.replicate 4 (latent (.fillHalfLands sig x.1))

/-- Blocks of code that the spine's fetch may bring in (R18): the one the word at pc stands in, those it has asked for, and ahead of issue the
next one and the one a transfer leads to. (log 42, DEDUCED) -/
def Spine.fetchBlocks (p : Spine) : List Nat :=
  let at_ (a : Word) : Nat := a.toNat / 64
  let ahead := [at_ p.pc, at_ p.pc + 1] ++ (match p.target with | some t => [at_ t] | none => [])
  p.wanted ++ ahead.filter fun b => !p.wanted.contains b && !p.fetched.any fun f => f.1 == b

/-- Blocks of code that arrive before the spine emits its word slot. -/
def State.fetchEvents (s : State) (sig : Nat) : List Prospect :=
  (s.spineOf sig).fetchBlocks.map fun b => latent (.fetchBlockArrives sig b)

/-- Whether every word before the seam that a spine stands at has executed everywhere, so that a cycle may hold the advance. -/
def State.seamPassable (s : State) (sig : Nat) : Bool :=
  match (s.spineOf sig).phase with
  | .seam first _ => decide (first + (s.sig sig).lastDelay ≤ (s.sig sig).time)
  | _ => false

/-- What the elements and the spine of a signature do in a cycle: fills come before the words that meet the elements in it (R244), and in a cycle
that may hold an advance, when no word is left to meet one, after the advance (R68). -/
def State.sigEvents (s : State) (sig : Nat) : List Prospect :=
  let g := s.sig sig
  let busy := s.busyPlaces sig
  let fills := s.fillEvents sig
  let seam := s.seamPassable sig
  s.fetchEvents sig
  ++ (if seam then [] else fills)
  ++ (busy.filter fun rc => !(s.elementOf sig rc.1 rc.2).egress.isEmpty).map (fun rc => latent (.egressGranuleTaken sig rc.1 rc.2))
  ++ busy.map (fun rc => due (.resultLands sig rc.1 rc.2))
  ++ busy.map (fun rc => due (.routeValueLands sig rc.1 rc.2))
  ++ [due (.voteResultDelivered sig), due (.spineWaitSatisfied sig)]
  ++ (g.places.filter fun rc => (g.meets rc.1 rc.2).isSome).map (fun rc => ⟨false, .elemWord sig rc.1 rc.2⟩)
  ++ [due (.spineEmitWord sig), due (.wrapSweep sig), due (.seamPlaneSwitch sig), due (.seamGenerationAdvance sig)]
  ++ (if seam then fills else [])
  ++ [due (.waitConditionCheck sig)]

/-- Operations that come from outside the module, or whose moment its controllers choose freely. -/
def external : Instr → Bool
  | .launchWindowWrite .. | .dmaWindowWrite .. | .dataImageCopy .. | .tlbinvAll | .tlbinvInterface .. | .tlbinvPage .. | .tlbinvPageAll ..
  | .collGrantReceive .. | .collDataFrameReceive .. | .collAckReceive .. | .ethernetPortDown .. | .ptpMessageReceive .. | .servoCorrection ..
  | .syncLoss | .precisionTimeMessageSend .. | .gform .. | .imgreg .. | .imgdel .. | .jexp .. | .jrev .. | .jprv ..
  | .frespAbort .. | .frespResume .. | .frespRetry .. | .dbgResume .. | .dselRead .. | .dselWrite .. | .tringWrite .. | .mcapWrite ..
  | .carveWrite .. | .ecarveWrite .. | .registerWrite .. | .registerRead .. | .worldKeyCreate .. | .worldKeyDestroy ..
  | .uncorrectableError .. | .planeLoadError .. | .engineProposal .. | .causalTrial .. | .rstNDeassert | .rstNAssert | .verifyComponent ..
  | .earlyTrainingComplete | .fullServiceTransition | .trainingFailure .. | .ethernetTrainingFailure .. | .getVersion .. | .getCapabilities ..
  | .negotiateAlgorithms .. | .getDigests .. | .getCertificate .. | .challenge .. | .getMeasurements .. | .unsupportedRequest ..
  | .thermalEmergencyCap .. | .thermalShareLimit .. | .thermalHalt .. | .thermalRelease .. => true
  | _ => false

/-- Requests of SPDM, which wait for the security controller (R333). -/
def attestation : Instr → Bool
  | .getVersion .. | .getCapabilities .. | .negotiateAlgorithms .. | .getDigests .. | .getCertificate .. | .challenge .. | .getMeasurements ..
  | .unsupportedRequest .. => true
  | _ => false

/-- The inputs of a cycle that the running module takes; an attestation request enters the controller's queue. (log 70, DEDUCED) -/
def takenInputs (ts : List Task) : List Task :=
  (ts.filter fun t => match t with | .event i => external i | .hostStore .. => true | _ => false).map fun t =>
    match t with
    | .event i => if attestation i then .spdmArrives i else t
    | _ => t

/-- The inputs that a module in reset or HALTED takes (R330, R331): RST_N, and for a halted one register reads. (log 70, DEDUCED) -/
def haltedInputs (running : Bool) (ts : List Task) : List Task :=
  ts.filter fun t =>
    match t with
    | .event .rstNAssert => true
    | .event .rstNDeassert => true
    | .event (.registerRead ..) => running
    | _ => false

/-- The bindery, its queues and the folios (R32 to R45, R66, R339). -/
def State.binderyEvents (s : State) : List Prospect :=
  let queues := (s.ifaces.filter fun x => !x.2.queue.isEmpty).map (·.1)
  queues.flatMap (fun v => [due (.priorityAging v), due (.candidateBecomesBlocking v), ⟨s.cycle % 2 ^ 16 ≠ 0, .event (.cwaitPoll v)⟩])
  ++ (s.placedSigs.filter fun n => !(s.sig n).launches.isEmpty).map (fun n => ⟨false, .launchEnqueue n⟩)
  ++ [latent .binderyStep]
  ++ s.folios.flatMap (fun x =>
    [due (.folioPowerGate x.1), due (.folioUngateComplete x.1)]
    ++ (x.2.planes.filter fun p => p.2.state == .loading).map fun p => latent (.planeLoadComplete x.1 p.1))
  ++ (s.sigs.filter fun x => x.2.status == .saved && x.2.byFault).map (fun x => latent (.launchEndByFault x.1))
  ++ s.placedSigs.flatMap fun n =>
    let g := s.sig n
    [latent (.launchComplete n), latent (.launchEndByFault n), latent (.imageSave n), latent (.imageRestore n g.row0 g.col0)]

/-- Requests, streams and copies (R73, R81 to R90, R178, R305). -/
def State.memoryEvents (s : State) : List Prospect :=
  s.requests.flatMap (fun r =>
    [latent (.tlbWalkComplete r.id), latent (.keyCacheUnwrap r.id), ⟨true, .enterSwitch r.id⟩, latent (.homeApplyRequest r.id),
     latent (.requestReply r.id)])
  ++ s.placedSigs.flatMap (fun n =>
    ((s.sig n).ctxs.flatMap fun x =>
      [latent (.streamRequestIssue n x.1), latent (.streamComplete n x.1), latent (.deferredVoid n x.1),
       latent (.cpyUnitTransfer (.spineCopy n x.1))])
    ++ [due (.readAheadExpiry n), ⟨(s.sig n).time % 256 ≠ 0, .event (.waitcPoll n)⟩])
  ++ s.dma.map (fun (d : DmaCopy) => latent (.cpyUnitTransfer (.dmaCopy d.id)))
  ++ [latent .dmaCopyStart, latent .tlbinvComplete]

/-- Collectives, power, interrupts and trace (R38, R314, R317, R335, R338). -/
def State.platformEvents (s : State) : List Prospect :=
  s.colls.flatMap (fun (c : CollStep) => [latent (.collStepStart c.id), due (.collRetransmit c.id)])
  ++ (if s.cycle % 2 ^ 20 = 0 then [due .powerEnforcementWindow] else [])
  ++ (s.ifaces.filter fun x => x.2.irqEnds.isSome).map (fun x => due (.interruptWindowExpiry x.1))
  ++ (if s.platform.service = 2 ∧ (s.platform.trained ∨ s.platform.moving) then [due .fullServiceTransition] else [])
  ++ (List.range 9).flatMap (fun d => [due (.traceStageDrain d), latent (.traceRingCopy d)])

/-- The whole cycle: what begins and ends with it, the security controller, whose new SGEN the STRMs of its cycle see (R96), the journal's seams, the
signatures, the steps that time out before the frames that come (R324), the inputs, the engines, the copies of the journal's changes, and its
end. -/
def State.cyclePlan (s : State) (inputs : List Task) : List Prospect :=
  s.placedSigs.flatMap s.freezeEvents
  ++ (if s.serviceQueue.isEmpty then [] else [⟨true, .serve⟩])
  ++ s.journalEvents
  ++ s.placedSigs.flatMap s.sigEvents
  ++ s.colls.map (fun (c : CollStep) => due (.collStepTimeout c.id))
  ++ inputs.map (fun t => ⟨false, t⟩)
  ++ s.binderyEvents
  ++ s.memoryEvents
  ++ s.platformEvents
  ++ [⟨false, .journalCopies⟩, ⟨false, .endCycle⟩]

/-- A new wall cycle begins: its inputs are taken and its operations are laid out. -/
def State.tick (s : State) : State :=
  let now := s.inputs.headD []
  let s := { s with inputs := s.inputs.drop 1 }
  if !s.platform.running || s.platform.service == 4 then { s with agenda := haltedInputs s.platform.running now }
  else
    let plan := s.cyclePlan (takenInputs now)
    { s with agenda := layOut s.free plan, free := s.free + (plan.filter (·.latent)).length }

end Sys2Proof.Machine
end

