-- ==== Sys2Proof/Machine/Step.lean ====
section
/-!
DEFINITION. The step of the machine, and how an instruction is put where the next step runs it.
-/

namespace Sys2Proof.Machine

/-- One step: the next micro-operation of the current wall cycle, or a new wall cycle (log 1, DESIGN CHOICE). -/
def step (s : State) : Host.Outcome State Fault Refusal :=
  match s.agenda with
  | t :: rest => runTask t { s with agenda := rest }
  | [] => .next s.tick

/-- The machine in full service with a launch of one folio at the north-west corner, in the middle of a cycle of the launch. -/
def State.withLaunch (s : State) (p : Spine) : State :=
  let plane : Plane := { Plane.invalid with state := .active, owner := some 0 }
  { s with
    platform := { s.platform with running := true, service := 3 }
    sigs := s.sigs.set Sig.unused 1 { Sig.unused with ht := 1, wd := 1, status := .running }
    folios := s.folios.set Folio.zero 0
      { Folio.zero with spine := p, planes := [(0, plane)], lastWorld := some 0, placed := 2 } }

/-- A slot A that holds a NOP is passed over, so that the very next step runs slot B. -/
def slotsOf {α : Type} (a : Instr) (slotA slotB leave : α) : List α := if a = .nop then [slotB, leave] else [slotA, slotB, leave]

/-- The state in which the very next step runs an instruction word (log 19, DESIGN CHOICE): a spine word stands at its first slot; a fabric word
has met element (0,0), whose guard has been read. -/
def State.withFetchWord (s : State) (nbits w : Nat) : State :=
  let word : SchedWord := BitVec.ofNat 128 (w % 2 ^ nbits)
  match decodeWord word with
  | .word h a _ =>
    if h.spine then
      let s := s.withLaunch { Spine.zero with ir := word, phase := if a = .nop then .slotB else .slotA }
      { s with focus := { Focus.idle with sig := 1, spine := true, word }, agenda := slotsOf a (.spineSlot false) (.spineSlot true) .spineLeave }
    else
      let s := s.withLaunch Spine.zero
      let lanes := guardLanes h (if h.gk = 0 then -1 else 0)
      { s with
        focus := { Focus.idle with sig := 1, word, mode := 9, lanes }
        agenda := slotsOf a (.elemSlot false) (.elemSlot true) .elemLeave }
  | _ => s

end Sys2Proof.Machine
end

