-- ==== Sys2Proof/Safety.lean ====
section
/-!
DEFINITION. The terms claims are stated in: what a slot of a spine word or of an element's word does and leaves alone, the values its
sources have under R62, the tables of results the spec gives, and the invariants of the machine.
-/

namespace Sys2Proof

/-- A slot of a map holds an instruction: zeros for a NOP, otherwise the encoding of a well-formed instruction of that map (R125, R130,
R137). -/
def SlotMap.Holds (m : SlotMap) (i : Instr) (b : SlotBits) : Prop :=
  (i = .nop ∧ b = 0) ∨ (i ≠ .nop ∧ encode i = some (m, b) ∧ i.wellFormed = true)

end Sys2Proof

namespace Sys2Proof.Machine

/-! ### Spine slots (R128, R157, R158) -/

/-- G[i] as it stands now; g0 reads zero (R51). -/
def State.regG (s : State) (i : Nat) : Word := if i = 0 then 0 else s.here.g.get 0 i

/-- The spine once the slot it stands at is done: slot B follows slot A, and after slot B the word is left. -/
def Spine.afterSlot (p : Spine) : Spine :=
  { p with phase := if p.phase = .slotA then .slotB else .leave, waiting := false, progress := 0, answer := none }

/-- Instruction i makes the spine p, its slot is done, and nothing else in the machine changes. -/
def State.Leaves (s : State) (i : Instr) (p : Spine) : Prop := exec i s = .next (s.setHere p.afterSlot)

/-- Instruction i writes x to G[gd] at a cost of further idle slots, its slot is done, and nothing else in the machine changes; g0
discards. -/
def State.OnlyWrites (s : State) (i : Instr) (idles : Nat) (gd : BitVec 5) (x : Word) : Prop :=
  ∃ t, exec i s = .next t
    ∧ (∃ g, t = s.setHere { s.here.afterSlot with g, idles := s.here.idles + idles })
    ∧ ∀ r, t.regG r = if r = gd.toNat ∧ r ≠ 0 then x else s.regG r

/-- Instruction i transfers control to an address at a cost of 2 further idle slots, leaving the spine p otherwise; a capture counter of
event 7 counts it (R157, R191). -/
def State.Transfers (s : State) (i : Instr) (p : Spine) (target : Word) : Prop :=
  s.Leaves i ({ p with target := some target, idles := p.idles + 2 }.capture_ 7 1)

/-- The results of R167 but for the divisions: the instruction of each mnemonic and f(a, b), by exact arithmetic on the numbers a and b
stand for. -/
def registerResults (a b : Word) : List ((SG → Instr) × Word) :=
  [(.add, .ofNat 64 (a.toNat + b.toNat)), (.sub, .ofInt 64 (a.toNat - b.toNat : Int)), (.mul, .ofNat 64 (a.toNat * b.toNat)),
   (.mulh, .ofInt 64 (a.toInt * b.toInt / 2 ^ 64)), (.mulhu, .ofNat 64 (a.toNat * b.toNat / 2 ^ 64)),
   (.and, .ofNat 64 (a.toNat &&& b.toNat)), (.or, .ofNat 64 (a.toNat ||| b.toNat)), (.xor, .ofNat 64 (a.toNat ^^^ b.toNat)),
   (.shl, .ofNat 64 (a.toNat * 2 ^ (b.toNat % 64))), (.shr, .ofNat 64 (a.toNat / 2 ^ (b.toNat % 64))),
   (.sra, .ofInt 64 (a.toInt / 2 ^ (b.toNat % 64))),
   (.min, .ofInt 64 (Min.min a.toInt b.toInt)), (.max, .ofInt 64 (Max.max a.toInt b.toInt)),
   (.minu, .ofNat 64 (Min.min a.toNat b.toNat)), (.maxu, .ofNat 64 (Max.max a.toNat b.toNat)),
   (.slt, if a.toInt < b.toInt then 1 else 0), (.sltu, if a.toNat < b.toNat then 1 else 0)]

/-- The divisions of R168: quotient and remainder of the signed and of the unsigned pair. -/
def divisionResults (a b : Word) : List ((SG → Instr) × Word) :=
  let signed : Int × Int :=
    if b = 0 then (-1, a.toInt) else if a.toInt = -2 ^ 63 ∧ b.toInt = -1 then (-2 ^ 63, 0) else (a.toInt.tdiv b.toInt, a.toInt.tmod b.toInt)
  let unsigned : Nat × Nat := if b = 0 then (2 ^ 64 - 1, a.toNat) else (a.toNat / b.toNat, a.toNat % b.toNat)
  [(.div, .ofInt 64 signed.1), (.rem, .ofInt 64 signed.2), (.divu, .ofNat 64 unsigned.1), (.remu, .ofNat 64 unsigned.2)]

/-- The results of R170, with a = G[ga] and i the immediate. -/
def immediateResults (a : Word) (i : BitVec 32) : List ((SI → Instr) × Word) :=
  [(.addi, .ofInt 64 (a.toInt + i.toInt)), (.andi, a &&& .ofInt 64 i.toInt), (.ori, a ||| .ofNat 64 i.toNat),
   (.xori, a ^^^ .ofNat 64 i.toNat), (.shli, .ofNat 64 (a.toNat * 2 ^ (i.toNat % 64))), (.shri, .ofNat 64 (a.toNat / 2 ^ (i.toNat % 64))),
   (.srai, .ofInt 64 (a.toInt / 2 ^ (i.toNat % 64))), (.movi, .ofInt 64 i.toInt),
   (.movhi, .ofNat 64 (i.toNat * 2 ^ 32 + a.toNat % 2 ^ 32)), (.slti, if a.toInt < i.toInt then 1 else 0)]

/-- The conditions of BRC in the order of their codes (R159). -/
def branchConditions (x y : Word) : List Bool :=
  [decide (x = y), decide (x ≠ y), decide (x.toInt < y.toInt), decide (x.toInt ≥ y.toInt), decide (x.toNat < y.toNat),
   decide (x.toNat ≥ y.toNat), x.getLsbD (y.toNat % 64), !x.getLsbD (y.toNat % 64)]

/-- The target of a branch in the word at pc (R132). -/
def blockTarget (pc : Word) (disp : BitVec 35) : Word := .ofInt 64 (pc.toNat / 64 * 64 + 64 * disp.toInt)

/-- The fault record of a slot of the spine: the code, the AUX and the address of R344, disposition END or STOP with the answers it
accepts, and the slot. -/
def State.slotFault (s : State) (code disp acts aux addr : Nat) : FaultInfo :=
  { code, disp, acts, unit := 0, slot := if s.here.phase = .slotA then 1 else 2, sig := s.focus.sig, offset := s.codeOffset s.focus.sig
    place := none, time := (s.sig s.focus.sig).time, addr, aux, more := 0, handle := 0, ctxGen := 0, ctx := 0, request := 0, seen := none }

/-- The record of a word that is not issued (R138, R353): its disposition is END, and it is of the slot given. -/
def State.issueFault (s : State) (sig code slot aux addr : Nat) : FaultInfo :=
  { code, disp := 3, acts := 0, unit := 0, slot, sig, offset := s.codeOffset sig, place := none, time := (s.sig sig).time, addr, aux, more := 0
    handle := 0, ctxGen := 0, ctx := 0, request := 0, seen := none }

/-- Instruction i takes an END fault (R353, R355): its record goes to the interface's fault area, the launch ends by fault, where the faults of a stop
that was to come are noted for its end, no register of the spine is written, and nothing more is issued. -/
def State.TakesEnd (s : State) (i : Instr) (code aux addr : Nat) : Prop :=
  let g := s.sig s.focus.sig
  ∃ t, exec i s = .next t
    ∧ t.here = { s.here with phase := .ended, waiting := false, seamRequest := none }
    ∧ t.sig s.focus.sig = { g with
        status := .draining, byFault := true, stop := none
        notes := match g.stop with | some st => st.notes.foldl (fun l n => addNote n l) g.notes | none => g.notes }
    ∧ t.memory = (s.report g.vif (s.slotFault code 3 0 aux addr)).memory

/-- Instruction i takes a STOP fault whose record is written (R353): the spine stands at the slot, to go on when the record is answered,
and no register is written. -/
def State.TakesStop (s : State) (i : Instr) (code acts aux addr : Nat) : Prop :=
  (s.recordFault (s.sig s.focus.sig).vif (s.slotFault code 2 acts aux addr)).2.isSome = true →
    ∃ t, exec i s = .next t
      ∧ t.here = { s.here with phase := .faulted (s.here.phase != .slotA), waiting := false, answer := none, progress := 0 }
      ∧ t.sig s.focus.sig = s.sig s.focus.sig
      ∧ t.memory = (s.recordFault (s.sig s.focus.sig).vif (s.slotFault code 2 acts aux addr)).1.memory

/-- AUX of illegal-operand: the opcode in bits 7:0, slot B in bit 8 (R344). -/
def State.operandAux (s : State) (opcode : Nat) : Nat := opcode + if s.here.phase = .slotA then 0 else 256

/-- The control registers of R196, by number, as a spine word reads them. -/
def State.controlValues (s : State) : List (Nat × Word) :=
  let n := s.focus.sig
  let g := s.sig n
  let p := s.here
  [(0x000, .ofNat 64 n), (0x001, .ofNat 64 (g.ht + 16 * g.wd)), (0x002, .ofNat 64 g.vif), (0x003, (s.genOf n).setWidth 64),
   (0x004, if g.gmode then 1 else 0), (0x005, g.code), (0x010, p.before.mode.setWidth 64), (0x020, p.before.progCnt),
   (0x030, p.before.barPh), (0x040, .ofNat 64 p.before.cycle), (0x041, .ofNat 64 p.before.time), (0x050, (p.lc.get 0 0).setWidth 64),
   (0x051, (p.lc.get 0 1).setWidth 64), (0x052, (p.lc.get 0 2).setWidth 64), (0x053, (p.lc.get 0 3).setWidth 64),
   (0x058, p.lact.setWidth 64), (0x060, .ofNat 64 p.ret.length), (0x061, .ofNat 64 p.before.region.length),
   (0x062, (p.before.region.getD 2 0 ++ p.before.region.getD 1 0 ++ p.before.region.getD 0 0).setWidth 64),
   (0x070, if p.before.capOn then 1 else 0), (0x071, p.before.capIntr), (0x080, p.before.vt)]

/-- A record staged in an area with room is the last one there and carries an event, a class and a payload (R315, R317). -/
def Staged (before after : TraceArea) (event cls payload : Nat) : Prop :=
  ∃ r, after.records = before.records ++ [r] ∧ traceEvent r = event ∧ traceClass r = cls ∧ tracePayload r = payload

/-- The bytes of a memory unit from an offset, `size` of them, as a load extends them to 64 bits (R171). -/
def extended (x size : Nat) (signed : Bool) : Word :=
  let y := x % 2 ^ (8 * size)
  if signed ∧ 2 ^ (8 * size - 1) ≤ y then .ofInt 64 ((y : Int) - 2 ^ (8 * size)) else .ofNat 64 y

/-- Instruction i writes x to G[gd], its slot is done, and besides only the read-ahead may change (R86). -/
def State.LoadsTo (s : State) (i : Instr) (gd : BitVec 5) (x : Word) : Prop :=
  ∃ t, exec i s = .next t
    ∧ (∃ g ra, t = s.setHere { s.here.afterSlot with g, readAhead := ra })
    ∧ ∀ r, t.regG r = if r = gd.toNat ∧ r ≠ 0 then x else s.regG r

/-- The spine context may reach an address with an operation: its port has room for a request, the address translates to pa, and the world key
is there (R73, R78, R88). -/
def State.Reaches (s : State) (ea : Word) (op : ReqOp) (pa : Nat) : Prop :=
  let g := s.sig s.focus.sig
  s.portFull s.focus.sig = false ∧
  s.translatePages (some (dieOf g.row0 g.col0)) g.vif ea [op.need] = .ok pa ∧ (s.iface g.vif).worldKey.isSome = true

/-- Instruction i is done and has sent the spine's request for an operation at an address on its way to its home; no register is written, and
memory is as it was until the home applies the request (R83, R89). -/
def State.Sends (s : State) (i : Instr) (ea : Word) (pa : Nat) (op : ReqOp) : Prop :=
  ∃ t, exec i s = .next t ∧ t.here.phase = s.here.afterSlot.phase ∧ t.here.g = s.here.g ∧ t.memory = s.memory
    ∧ ∃ r ∈ t.requests, r.source = .spine s.focus.sig ∧ r.va = ea ∧ r.pa = pa ∧ r.op = op ∧ r.key = .world ∧ r.stage = .travel

/-- The bytes of a store of `size` bytes of x at an address within its memory unit, and their mask. -/
def storeBytes (ea : Word) (size : Nat) (x : Word) : Vec × Vec :=
  (.ofNat 512 (x.toNat % 2 ^ (8 * size) * 2 ^ (8 * (ea.toNat % 64))), .ofNat 512 ((2 ^ (8 * size) - 1) * 2 ^ (8 * (ea.toNat % 64))))

/-- Instruction i of an engine starts an operation on a handle: the handle's context is c, no register is written, the slot is done, and
memory is as it was. -/
def State.Starts (s : State) (i : Instr) (key : Nat) (c : Ctx) : Prop :=
  ∃ t, exec i s = .next t ∧ t.ctx s.focus.sig key = c ∧ t.here.phase = s.here.afterSlot.phase ∧ t.here.g = s.here.g ∧ t.memory = s.memory

/-! ### Slots of an element's word (R62, R126, R127) -/

/-- The element in focus. -/
def State.elem (s : State) : Element := s.elementOf s.focus.sig s.focus.row s.focus.col

/-- The state with another element in focus, and nothing else changed. -/
def State.withElem (s : State) (e : Element) : State := s.setElementOf s.focus.sig s.focus.row s.focus.col e

/-- Whether R62 answers a read of an item without a fault: a current one unless it is poisoned, a stale one in mode Z. -/
def State.mayRead (s : State) (gen : Gen) (poison : Bool) : Bool := if gen = s.env.gen then !poison else !s.env.trap

/-- V[i] as R62 and R50 give it: a port view, the register when it is current, and zeros when it is stale. -/
def State.seenV (s : State) (i : Nat) : VSource :=
  if 28 ≤ i then portView s.env s.elem i
  else
    let r := s.elem.v.get VReg.zero i
    if r.gen = s.env.gen then ⟨r.data, r.fmt, r.scaled, false⟩ else VSource.none

def State.mayReadV (s : State) (i : Nat) : Bool :=
  28 ≤ i || s.mayRead (s.elem.v.get VReg.zero i).gen (s.elem.v.get VReg.zero i).poison

/-- S[i] as R62 gives it. -/
def State.seenS (s : State) (i : Nat) : SWord :=
  if (s.elem.s.get (Tagged.zero 32) i).gen = s.env.gen then (s.elem.s.get (Tagged.zero 32) i).data else 0

def State.mayReadS (s : State) (i : Nat) : Bool :=
  s.mayRead (s.elem.s.get (Tagged.zero 32) i).gen (s.elem.s.get (Tagged.zero 32) i).poison

/-- K[i] as R62 and R50 give it; k0 is all ones. -/
def State.seenK (s : State) (i : Nat) : Word :=
  if i = 0 then -1
  else if (s.elem.k.get (Tagged.zero 64) i).gen = s.env.gen then (s.elem.k.get (Tagged.zero 64) i).data else 0

def State.mayReadK (s : State) (i : Nat) : Bool :=
  i = 0 || s.mayRead (s.elem.k.get (Tagged.zero 64) i).gen (s.elem.k.get (Tagged.zero 64) i).poison

/-- Whether rx puts a field, the destination or a source, under ring control (R54). -/
def ringed (rx : BitVec 4) (dest : Bool) : Bool := if dest then rx.getLsbD 0 else rx.getLsbD 1

/-- The register that a field names: under ring control and a current descriptor, the one R55 gives; otherwise the field itself. -/
def State.named (s : State) (rx : BitVec 4) (dest : Bool) (f : BitVec 5) : Nat :=
  let d := s.elem.ring.get (Tagged.zero 16) (rx.extractLsb' 2 2).toNat
  if ringed rx dest ∧ d.gen = s.env.gen ∧ f.toNat < 28 then ringName d.data f.toNat else f.toNat

def State.mayName (s : State) (rx : BitVec 4) (dest : Bool) : Bool :=
  let d := s.elem.ring.get (Tagged.zero 16) (rx.extractLsb' 2 2).toNat
  !ringed rx dest || s.mayRead d.gen d.poison

/-- A vector source field under ring control: its value, and whether it may be read. -/
def State.source (s : State) (rx : BitVec 4) (f : BitVec 5) : VSource := s.seenV (s.named rx false f)
def State.maySource (s : State) (rx : BitVec 4) (f : BitVec 5) : Bool := s.mayName rx false && s.mayReadV (s.named rx false f)

/-- Instruction i queues results that land λ cycles after E under the word's generation, leaves σ at a value, and besides changes nothing
in the machine but the tally of event 8 (R201, R243). -/
def State.Queues (s : State) (i : Instr) (latency : Nat) (slotB : Bool) (writes : List Write) (sigma : SWord) : Prop :=
  ∃ tally, exec i s = .next (s.withElem { s.elem with
    sigma, tally, pending := s.elem.pending ++ writes.map fun w => ⟨s.env.time + latency, s.env.n, slotB, s.env.gen, w⟩ })

/-- A vector's data and mask, lane by lane, over `count` lanes from `first`: an active lane holds what op gives it and is written; an inactive
one is zeroed under kz and else left; lanes outside are left (R53, R156). -/
def Lanes (w first count : Nat) (active : Nat → Bool) (kz : Bool) (op : Nat → Nat) (data mask : Vec) : Prop :=
  ∀ j < 512 / w,
    if first ≤ j ∧ j < first + count ∧ active j then laneOf mask j w = 2 ^ w - 1 ∧ laneOf data j w = op j % 2 ^ w
    else laneOf data j w = 0 ∧ laneOf mask j w = if first ≤ j ∧ j < first + count ∧ kz then 2 ^ w - 1 else 0

/-- Whether the guard and kp enable lane j of width w (R126, R156). -/
def State.active (s : State) (kp : BitVec 3) (w j : Nat) : Bool := laneBit s.env.lanes j w && laneBit (s.seenK kp.toNat) j w

/-- A lane-wise A-V instruction may be performed: no slot of its word has faulted, the guard enables a lane, and its sources, its rings and
its predicate may be read. -/
def State.mayPerform (s : State) (f : AV) (sources : List (BitVec 5)) : Bool :=
  !s.focus.suppressed && guardAny s.env (laneWidth f.ty) && sources.all (s.maySource f.rx) && s.mayName f.rx true && s.mayReadK f.kp.toNat

/-- Instruction i writes vd lane by lane: its result lands after λ cycles with FMT := ty. -/
def State.WritesLanes (s : State) (i : Instr) (f : AV) (latency : Nat) (scaled : Bool) (sigma : SWord) (op : Nat → Nat) : Prop :=
  ∃ data mask, s.Queues i latency false [.v (s.named f.rx true f.vd) data mask f.ty scaled] sigma
    ∧ Lanes (laneWidth f.ty) 0 (512 / laneWidth f.ty) (s.active f.kp (laneWidth f.ty)) (f.kz == 1) op data mask

/-- WRAP, or SAT when md is 1, of an exact result (R202). -/
def fitted (f : AV) (x : Int) : Nat :=
  ((if f.md = 1 then max (intLo f.ty) (min (intHi f.ty) x) else x) % 2 ^ laneWidth f.ty).toNat

/-- The rounding term of R204: 2^(s − 1) when md is 1 and s is not 0. -/
def halfTerm (f : AV) (s : Nat) : Int := if f.md = 1 ∧ 0 < s then 2 ^ (s - 1) else 0

/-- The integer vector instructions of R204, each with its latency, its sources, and its result on lanes a, b and c. -/
def integerLanes (f : AV) : List ((AV → Instr) × Nat × List (BitVec 5) × (Nat → Nat → Nat → Nat)) :=
  let w := laneWidth f.ty
  let v := intValue f.ty
  [(.vadd, 1, [f.va, f.vb], fun a b _ => fitted f (v a + v b)), (.vsub, 1, [f.va, f.vb], fun a b _ => fitted f (v a - v b)),
   (.vmul, 2, [f.va, f.vb], fun a b _ => fitted f (v a * v b)),
   (.vmulh, 2, [f.va, f.vb], fun a b _ => ((v a * v b + halfTerm f w) / 2 ^ w % 2 ^ w).toNat),
   (.vmad, 2, [f.va, f.vb, f.vc], fun a b c => fitted f (v a * v b + v c)),
   (.vand, 1, [f.va, f.vb], fun a b _ => a &&& b), (.vor, 1, [f.va, f.vb], fun a b _ => a ||| b),
   (.vxor, 1, [f.va, f.vb], fun a b _ => a ^^^ b), (.vshl, 1, [f.va, f.vb], fun a b _ => fitted f (v a * 2 ^ b)),
   (.vshr, 1, [f.va, f.vb], fun a b _ => (((a : Int) + halfTerm f b) / 2 ^ b % 2 ^ w).toNat),
   (.vsra, 1, [f.va, f.vb], fun a b _ => ((sint a w + halfTerm f b) / 2 ^ b % 2 ^ w).toNat),
   (.vmin, 1, [f.va, f.vb], fun a b _ => if v a ≤ v b then a else b), (.vmax, 1, [f.va, f.vb], fun a b _ => if v a ≤ v b then b else a),
   (.vabs, 1, [f.va], fun a _ _ => fitted f |v a|), (.vclz, 1, [f.va], fun a _ _ => w - a.size),
   (.vpopc, 1, [f.va], fun a _ _ => ((Finset.range w).filter fun i => a.testBit i).card)]

/-- What the formats' own tables say of a float format (R99, R101, R103): its mantissa bits and bias, and, as lanes, its sign bit, its largest
finite value, its infinity and its canonical NaN. -/
structure FloatRow where
  mbits : Nat
  bias : Nat
  sign : Nat
  largest : Nat
  infinity : Option Nat
  nan : Option Nat
  deriving DecidableEq, Repr

/-- The row of a float format, by its code. -/
def floatRow (f : BitVec 4) : FloatRow :=
  ([⟨1, 1, 0x8, 0x7, none, none⟩, ⟨3, 1, 0x20, 0x1F, none, none⟩, ⟨2, 3, 0x20, 0x1F, none, none⟩, ⟨3, 7, 0x80, 0x7E, none, some 0x7F⟩,
    ⟨2, 15, 0x80, 0x7B, some 0x7C, some 0x7E⟩, ⟨4, 3, 0x80, 0x7F, none, none⟩, ⟨7, 127, 0x8000, 0x7F7F, some 0x7F80, some 0x7FC0⟩,
    ⟨10, 15, 0x8000, 0x7BFF, some 0x7C00, some 0x7E00⟩, ⟨10, 127, 0x80000000, 0x7F7FE000, some 0x7F800000, some 0x7FC00000⟩] : List FloatRow).getD
    f.toNat ⟨23, 127, 0x80000000, 0x7F7FFFFF, some 0x7F800000, some 0x7FC00000⟩

/-- A lane of a sign and a magnitude. -/
def FloatRow.lane (R : FloatRow) (neg : Bool) (mag : Nat) : Nat := (if neg then R.sign else 0) + mag

/-- The result of a value beyond the largest finite one (R108). -/
def FloatRow.overflow (R : FloatRow) (r : Rounding) (neg : Bool) : Nat :=
  let largest := R.lane neg R.largest
  match R.infinity, R.nan with
  | some i, _ =>
    if r.ovf then
      match r.mode with
      | 1 => largest
      | 2 => if neg then largest else R.lane neg i
      | 3 => if neg then R.lane neg i else largest
      | _ => R.lane neg i
    else largest
  | none, some n => if r.ovf then n else largest
  | none, none => largest

/-- An infinity brought into a format (R109). -/
def FloatRow.ofInf (R : FloatRow) (r : Rounding) (neg : Bool) : Nat :=
  match R.infinity, R.nan with
  | some i, _ => R.lane neg i
  | none, some n => if r.ovf then n else R.lane neg R.largest
  | none, none => R.lane neg R.largest

/-- A lane with the bits that its format leaves unused written as zero (R100). -/
def Clean (f : BitVec 4) (lane : Nat) : Prop := lane < 2 * (floatRow f).sign ∧ (f = 8 → lane % 2 ^ 13 = 0)

/-- The number that a finite value stands for. -/
def FVal.number : FVal → ℚ
  | .num neg m e => (if neg then -1 else 1) * m * 2 ^ e
  | _ => 0

def FVal.isFinite : FVal → Bool
  | .num .. => true
  | _ => false

/-- x < y, with −0 as 0; a NaN stands in no order (R213). -/
def FVal.Lt : FVal → FVal → Prop
  | .inf n, .inf k => n = true ∧ k = false
  | .inf n, .num .. => n = true
  | .num .., .inf k => k = false
  | .num n m e, .num k m' e' => (FVal.num n m e).number < (FVal.num k m' e').number
  | _, _ => False

/-- x = y, with −0 as 0; a NaN equals nothing (R213). -/
def FVal.Same : FVal → FVal → Prop
  | .inf n, .inf k => n = k
  | .num n m e, .num k m' e' => (FVal.num n m e).number = (FVal.num k m' e').number
  | _, _ => False

/-- x < y, with −0 below +0 (R210). -/
def FVal.Below (x y : FVal) : Prop := x.Lt y ∨ x.Same y ∧ x.isFinite = true ∧ x.signBit = true ∧ y.signBit = false

/-- n is the magnitude q rounded to an integer by a mode, for a number of the sign given (R105, R107). -/
def RoundsTo (r : Rounding) (neg : Bool) (q : ℚ) (n : Nat) : Prop :=
  let down (x : ℚ) : Prop := (n : ℚ) ≤ x ∧ x < n + 1
  let up : Prop := (n : ℚ) - 1 < q ∧ q ≤ n
  match r.mode with
  | 0 => |q - n| ≤ 1 / 2 ∧ (|q - n| = 1 / 2 → n % 2 = 0)
  | 1 => down q
  | 2 => if neg then down q else up
  | 3 => if neg then up else down q
  | _ => down (q + r.sigma / 2 ^ 32)

/-- y is the lane of the nonzero number ±a in a float format: a is rounded to the format's precision at its own exponent, with no bound on that
but the subnormal step, and what then exceeds the largest finite value overflows (R106, R108). -/
def NearestLane (f : BitVec 4) (r : Rounding) (neg : Bool) (a : ℚ) (y : Nat) : Prop :=
  let R := floatRow f
  let least : ℤ := 1 - R.bias - R.mbits
  ∃ (k : ℤ) (n : Nat),
    (k = least ∧ a < 2 ^ (k + R.mbits + 1) ∨ least < k ∧ 2 ^ (k + R.mbits) ≤ a ∧ a < 2 ^ (k + R.mbits + 1))
    ∧ RoundsTo r neg (a / 2 ^ k) n
    ∧ ((readFormat f R.largest).number < n * 2 ^ k → y = R.overflow r neg)
    ∧ (n * 2 ^ k ≤ (readFormat f R.largest).number →
      (readFormat f y).isFinite = true ∧ (readFormat f y).signBit = neg ∧ (readFormat f y).number = (if neg then -1 else 1) * n * 2 ^ k)

/-- The float vector instructions that do not round (R210, R211), each with its latency, its sources, and its result on lanes a and b. -/
def exactFloatLanes (f : AV) : List ((AV → Instr) × Nat × List (BitVec 5) × (Nat → Nat → Nat)) :=
  let F := floatFormat f.ty
  let signed (a : Nat) (neg : Bool → Bool) : Nat :=
    if (F.read a).isNan then F.canonicalNan
    else
      let x := a / 2 ^ F.low % 2 ^ (F.ebits + F.mbits + 1)
      F.pack (neg (2 ^ (F.ebits + F.mbits) ≤ x)) (x % 2 ^ (F.ebits + F.mbits))
  [(.fmin, 1, [f.va, f.vb], floatMinMax F false), (.fmax, 1, [f.va, f.vb], floatMinMax F true), (.fabs, 1, [f.va], fun a _ => signed a fun _ => false),
   (.fneg, 1, [f.va], fun a _ => signed a fun n => !n), (.frcp, 8, [f.va], fun a _ => specialLane .rcp a),
   (.frsq, 8, [f.va], fun a _ => specialLane .rsq a), (.fexp2, 8, [f.va], fun a _ => specialLane .exp2 a),
   (.flog2, 8, [f.va], fun a _ => specialLane .log2 a), (.ftanh, 8, [f.va], fun a _ => specialLane .tanh a)]

/-- The rounding float instructions of R209, each with its sources and its exact value on lanes a, b and c under a mode code. -/
def roundedFloatLanes (f : AV) : List ((AV → Instr) × List (BitVec 5) × (Nat → Nat → Nat → Nat → FVal)) :=
  let v := readFormat f.ty
  [(.fadd, [f.va, f.vb], fun m a b _ => FVal.sum m [v a, v b]), (.fsub, [f.va, f.vb], fun m a b _ => FVal.sum m [v a, (v b).neg]),
   (.fmul, [f.va, f.vb], fun _ a b _ => (v a).mul (v b)), (.ffma, [f.va, f.vb, f.vc], fun m a b c => FVal.sum m [(v a).mul (v b), v c]),
   (.fscl, [f.va, f.vb], fun _ a b _ => (v a).scale (sint b (laneWidth f.ty)))]

/-- Active lanes below lane j, and in all. -/
def activeBelow (active : Nat → Bool) (first j : Nat) : Nat := ((List.range (j - first)).filter fun i => active (first + i)).length

/-- σ after n roundings under a mode code: SR steps it once for each (R107). -/
def sigmaAfter (code n : Nat) (sigma : SWord) : SWord := if code = 4 then stepSigmas n sigma else sigma

/-- The immediate vector instructions (R206), each with its latency, whether it reads va, and its result on lane a. -/
def immediateLanes (f : AI) (ovf : Bool) : List ((AI → Instr) × Nat × Bool × (Nat → Nat)) :=
  let w := laneWidth f.ty
  let m := (f.imm.toInt % 2 ^ w).toNat
  [(.vaddi, 1, true, fun a => (a + m) % 2 ^ w), (.vmuli, 2, true, fun a => a * m % 2 ^ w), (.vandi, 1, true, fun a => a &&& m),
   (.vshli, 1, true, fun a => a * 2 ^ f.imm.toNat % 2 ^ w), (.vshri, 1, true, fun a => a / 2 ^ f.imm.toNat),
   (.vmovi, 1, false, fun _ =>
      if isIntFormat f.ty then m else convertTo f.ty ⟨0, 0, ovf⟩ ((floatFormat fp32).read (f.imm.toNat * 4)))]

/-- The conditions of VCMP in the order of their codes (R207). -/
def integerConditions (f : AV) (a b : Nat) : List Bool :=
  let v := intValue f.ty
  [decide (v a = v b), decide (v a ≠ v b), decide (v a < v b), decide (v a ≤ v b), decide (v a > v b), decide (v a ≥ v b)]

/-- What combining lanes xs gives (R216): 0 for none; for integers the fitted sum, the least or greatest by value; the conjunction,
disjunction or exclusive or of the bits; for floats the rounded exact sum, or FMIN and FMAX in lane order. -/
def Combines (f : AV) (op : Nat) (r : Rounding) (xs : List Nat) (y : Nat) : Prop :=
  (xs = [] → y = 0)
  ∧ (xs ≠ [] → op = 3 → ∀ i, y.testBit i = xs.all (·.testBit i))
  ∧ (xs ≠ [] → op = 4 → ∀ i, y.testBit i = xs.any (·.testBit i))
  ∧ (xs ≠ [] → op = 5 → y = xs.foldl (· ^^^ ·) 0)
  ∧ (isIntFormat f.ty = true → xs ≠ [] →
      (op = 0 → y = fitted f (xs.map (intValue f.ty)).sum)
      ∧ (op = 1 → y ∈ xs ∧ ∀ x ∈ xs, intValue f.ty y ≤ intValue f.ty x)
      ∧ (op = 2 → y ∈ xs ∧ ∀ x ∈ xs, intValue f.ty x ≤ intValue f.ty y))
  ∧ (isIntFormat f.ty = false → xs ≠ [] →
      (op = 0 → y = convertTo f.ty r (FVal.sum r.mode (xs.map (readFormat f.ty))))
      ∧ (op = 1 ∨ op = 2 → ∀ x rest, xs = x :: rest →
          y = rest.foldl (floatMinMax (floatFormat f.ty) (op == 2)) (floatMinMax (floatFormat f.ty) (op == 2) x x)))

/-- The lanes of v up to lane `last` that a predicate includes, in rising order. -/
def includedUpTo (v : Vec) (p : Word) (w last : Nat) : List Nat :=
  ((List.range (last + 1)).filter fun i => laneBit p i w).map fun i => laneOf v i w

/-- The permutations (R217, R218), each with its latency, its sources, and which value lane i takes from vectors a, b and c. -/
def permutedLanes (f : AV) : List ((AV → Instr) × Nat × List (BitVec 5) × (Vec → Vec → Vec → Nat → Nat)) :=
  let w := laneWidth f.ty
  let n := 512 / w
  let j := (f.sub.extractLsb' 6 7).toNat
  let from2 (x y : Vec) (t : Nat) : Nat := if t < n then laneOf x t w else laneOf y (t - n) w
  [(.vshuf, 2, [f.va, f.vb, f.vc], fun a b c i => let x := laneOf b i 8; if 128 ≤ x then 0 else from2 a c (x % (2 * n))),
   (.vrot, 1, [f.va], fun a _ _ i => laneOf a ((i + j) % n) w), (.vbcst, 1, [f.va], fun a _ _ _ => laneOf a j w),
   (.vins, 1, [f.va, f.vb], fun a b _ i => if i = j then laneOf b 0 w else laneOf a i w),
   (.vext, 1, [f.va, f.vb], fun a b _ i => from2 a b (i + j))]

/-! ### Whole instructions, tiles, the scratchpad and buffers -/

/-- A whole instruction may act: no slot of its word has faulted, and the guard enables byte lane 0 (R126). -/
def State.acts (s : State) : Bool := !s.focus.suppressed && guardZero s.env

/-- Whether a vector source passes the tag check of a matrix instruction (R226); a view with no value passes every check. -/
def VSource.fits (v : VSource) (fmt : BitVec 4) (scaled : Bool) : Bool := v.blank || (v.fmt == fmt && v.scaled == scaled)

/-- Whether a tile may be read at E + 3 (R372). -/
def State.mayReadTile (s : State) (i : Nat) : Bool :=
  let tag := (tileTagsAt s.elem i (s.env.time + 3)).1
  s.mayRead tag ((s.elem.a.get AReg.zero i).poison && (s.elem.a.get AReg.zero i).gen == s.env.gen && tag == s.env.gen)

/-- Whether a tile that will be current has a kind (R226). -/
def State.kindFits (s : State) (i : Nat) (kindI : Bool) : Bool :=
  let tags := tileTagsAt s.elem i (s.env.time + 3)
  tags.1 != s.env.gen || tags.2 == kindI

/-- Instruction i starts in the matrix unit at E: its operands are held for the tile read at E + 3, σ takes one step for each value that will
be rounded under SR, and besides nothing changes but the event tally (R107, R225). -/
def State.StartsMatrix (s : State) (i : Instr) (rounds code : Nat) (va vb vc : Vec) : Prop :=
  ∃ tally, exec i s = .next (s.withElem { s.elem with
    tally, sigma := sigmaAfter code rounds s.elem.sigma
    matrix := s.elem.matrix ++ [⟨s.env.time + 3, s.env.n, s.env.gen, i, va, vb, vc, s.elem.sigma, s.env.mode⟩] })

/-- The products of row i of A and column j of B (R112, R227), in order. -/
def products {α : Type} (fa fb : BitVec 4) (va vb : Vec) (i j : Nat) (value : BitVec 4 → Nat → α) (times : α → α → α) : List α :=
  let k := 64 / laneWidth fa
  (List.range k).map fun t => times (value fa (laneOf va (i * k + t) (laneWidth fa))) (value fb (laneOf vb (j * k + t) (laneWidth fb)))

/-- The value of an element of MX data: an INT8 stands for 1/64 of its integer (R114). -/
def mxElement (f : BitVec 4) (x : Nat) : FVal := if f = 12 then (readFormat f x).scale (-6) else readFormat f x

/-- The scalar instructions with register or immediate sources (R220), each with its latency, whether it reads sa and sb, and its result. -/
def scalarResults (f : AS) (a b : SWord) : List ((AS → Instr) × Nat × Bool × Bool × SWord) :=
  let flag := f.sub.getLsbD 0
  [(.sadd, 1, true, true, .ofNat 32 (a.toNat + b.toNat)), (.ssub, 1, true, true, .ofInt 32 (a.toNat - b.toNat : Int)),
   (.smul, 2, true, true, .ofNat 32 (a.toNat * b.toNat)), (.sand, 1, true, true, .ofNat 32 (a.toNat &&& b.toNat)),
   (.sor, 1, true, true, .ofNat 32 (a.toNat ||| b.toNat)), (.sxor, 1, true, true, .ofNat 32 (a.toNat ^^^ b.toNat)),
   (.sshl, 1, true, true, .ofNat 32 (a.toNat * 2 ^ (b.toNat % 32))),
   (.sshr, 1, true, true, if flag then .ofInt 32 (a.toInt / 2 ^ (b.toNat % 32)) else .ofNat 32 (a.toNat / 2 ^ (b.toNat % 32))),
   (.sslt, 1, true, true, if (if flag then decide (a.toNat < b.toNat) else decide (a.toInt < b.toInt)) then 1 else 0),
   (.saddi, 1, true, false, .ofNat 32 (a.toNat + f.imm.toNat)), (.smovi, 1, false, false, f.imm)]

/-- The address base + off of a slot B access: off alone under NB (R234). -/
def State.padAt (s : State) (f : BL) : Nat := if f.sub.getLsbD 0 then f.off.toNat else (s.seenS f.sb.toNat).toNat + f.off.toNat
def State.mayPadAt (s : State) (f : BL) : Bool := f.sub.getLsbD 0 || s.mayReadS f.sb.toNat

/-- The byte of the scratchpad at an address, as R62 gives it. -/
def State.padByte (s : State) (a : Nat) : Nat :=
  let r := s.elem.pad.get (Tagged.zero 512) (a / 64)
  if r.gen = s.env.gen then laneOf r.data (a % 64) 8 else 0

/-- Whether a granule may be read. -/
def State.mayReadPad (s : State) (g : Nat) : Bool :=
  s.mayRead (s.elem.pad.get (Tagged.zero 512) g).gen (s.elem.pad.get (Tagged.zero 512) g).poison

/-- n bytes from an address, the first the lowest. -/
def State.padNat (s : State) (a : Nat) : Nat → Nat
  | 0 => 0
  | n + 1 => s.padByte a + 256 * s.padNat (a + 1) n

/-- Whether a fill half landed on a byte in this cycle: it stands over a store of the same cycle (R58). -/
def State.landedByte (s : State) (a : Nat) : Bool := s.elem.landed.contains (a / 64, decide (32 ≤ a % 64))

/-- The lane width of a vector access, and whether lane j is active. -/
def State.padActive (s : State) (f : BL) (j : Nat) : Bool := s.active f.kp (padLaneWidth f.sz) j

/-- Whether an active lane of a vector access at a covers a byte. -/
def State.covers (s : State) (f : BL) (a b : Nat) : Bool :=
  let n := padLaneWidth f.sz / 8
  decide (a ≤ b) && decide (b < a + 64) && s.padActive f ((b - a) / n)

/-- A vector access may act: its guard enables a lane, and its base, its predicate and, for a load, the granules of its active lanes at a may
be read. -/
def State.mayAccess (s : State) (f : BL) : Bool :=
  !s.focus.suppressed && guardAny s.env (padLaneWidth f.sz) && s.mayPadAt f && s.mayReadK f.kp.toNat
def State.mayLoad (s : State) (f : BL) (a : Nat) : Prop :=
  s.mayAccess f = true ∧ s.mayName f.rx true = true ∧ ∀ b, s.covers f a b = true → s.mayReadPad (b / 64) = true

/-- Instruction i loads the vector at a: each active lane holds its bytes, and the result lands after 2 cycles (R235). -/
def State.LoadsLanes (s : State) (i : Instr) (f : BL) (a : Nat) (fmt : BitVec 4) (scaled : Bool) : Prop :=
  let w := padLaneWidth f.sz
  ∃ data mask, s.Queues i 2 true [.v (s.named f.rx true f.vr) data mask fmt scaled] s.elem.sigma
    ∧ Lanes w 0 (512 / w) (s.padActive f) (f.mode.getLsbD 0) (fun j => s.padNat (a + j * (w / 8)) (w / 8)) data mask

/-- Instruction i changes only scratchpad bytes of its element and its event tally, adds results that land later, and the byte at each
address is then what a function says. -/
def State.Stores (s : State) (i : Instr) (latency : Nat) (writes : List Write) (byte : Nat → Nat) : Prop :=
  ∃ t pad tally, exec i s = .next t
    ∧ t = s.withElem { s.elem with
        pad, tally, pending := s.elem.pending ++ writes.map fun w => ⟨s.env.time + latency, s.env.n, true, s.env.gen, w⟩ }
    ∧ ∀ b, t.padByte b = byte b

/-- Instruction i stores the active lanes of vr at a, and leaves every other byte (R235). -/
def State.StoresLanes (s : State) (i : Instr) (f : BL) (a : Nat) : Prop :=
  s.Stores i 0 [] fun b =>
    if s.covers f a b ∧ s.landedByte b = false then laneOf (s.source f.rx f.vr).data (b - a) 8 else s.padByte b

/-- The bytes of a number at a, `size` of them, over what was there. -/
def State.over (s : State) (a size x : Nat) (b : Nat) : Nat :=
  if a ≤ b ∧ b < a + size ∧ s.landedByte b = false then x / 2 ^ (8 * (b - a)) % 256 else s.padByte b

/-- The atomic operations in the order of their codes (R97), on w bits. -/
def atomicResults (w old x cmp : Nat) : List Nat :=
  let float (f : BitVec 4) (a b : Nat) : Nat := convertTo f Rounding.rne (FVal.sum 0 [readFormat f a, readFormat f b])
  [(old + x) % 2 ^ w, old &&& x, old ||| x, old ^^^ x, if sint old w ≤ sint x w then old else x, if sint old w ≤ sint x w then x else old,
   min old x, max old x, x, if old = cmp then x else old, float fp32 old x,
   float bf16 (old % 2 ^ 16) (x % 2 ^ 16) + float bf16 (old / 2 ^ 16) (x / 2 ^ 16) * 2 ^ 16]

/-- The descriptor of a buffer as it stands, an undeclared EMPTY one when it is stale (R59). -/
def State.buffer (s : State) (b : BitVec 3) : BufferDesc :=
  let r := s.elem.b.get (Tagged.zero 64) b.toNat
  BufferDesc.ofWord (if r.gen = s.env.gen then r.data else 0)

/-- A buffer may be accessed: its descriptor is current, not poisoned, and declared. -/
def State.mayUse (s : State) (b : BitVec 3) : Bool :=
  let r := s.elem.b.get (Tagged.zero 64) b.toNat
  r.gen == s.env.gen && !r.poison && (s.buffer b).cnt != 0

/-- Instruction i writes the descriptor of a buffer, and changes nothing else. -/
def State.Describes (s : State) (i : Instr) (b : BitVec 3) (d : BufferDesc) : Prop :=
  exec i s = .next (s.withElem { s.elem with b := s.elem.b.set (Tagged.zero 64) b.toNat ⟨d.toWord, s.env.gen, false⟩ })

/-- The note of a fault of the slot in focus (R344, R352). -/
def State.noteOf (s : State) (code aux addr : Nat) : FaultNote :=
  { code, aux := .ofNat 64 aux, addr := .ofNat 64 addr, slot := if s.focus.slotB then 2 else 1, offset := s.focus.offset, row := s.focus.row
    col := s.focus.col, time := (s.sig s.focus.sig).time, more := 0, seen := s.ns }

/-- Instruction i takes an element fault (R352): its element is as before the word, which counts as executed (R243; log 22, DEDUCED), the word performs
nothing more, and a running signature stops 12 cycles on with the fault noted. -/
def State.TakesNote (s : State) (i : Instr) (code aux addr : Nat) : Prop :=
  let g := s.sig s.focus.sig
  g.byFault = false → g.frozen = false → g.stop = none →
    ∃ t, exec i s = .next t ∧ t.elem = s.focus.before.count 1 1 ∧ t.focus.suppressed = true
      ∧ t.sig s.focus.sig = { g with stop := some ⟨s.cycle + 12, [s.noteOf code aux addr], false, none⟩ } ∧ t.memory = s.memory

/-- Die boundaries and edges a value meets that leaves its element in a direction (R19, R20). -/
def ElemEnv.leaves (e : ElemEnv) : Dir → Bool
  | .east => decide (e.col + 1 = e.width)
  | .west => decide (e.col = 0)
  | .south => decide (e.row + 1 = e.height)
  | .north => decide (e.row = 0)

def ElemEnv.crosses (e : ElemEnv) : Dir → Bool
  | .east => decide (e.devCol % 128 = 127)
  | .west => decide (e.devCol % 128 = 0)
  | .south => decide (e.devRow % 64 = 63)
  | .north => decide (e.devRow % 64 = 0)

/-- What one output of RT sends (R20, R232, R233): the source its code names, one cycle and its delay on, and six more over a die boundary;
to the east and south the word of the receiver that many slots later, to the west and north two more, or fourteen over a boundary. -/
def State.routes (s : State) (value : Nat → PortValue) (dir : Dir) (o : BitVec 8) : List Routed :=
  let code := (o.extractLsb' 4 4).toNat
  let d := (o.extractLsb' 0 4).toNat
  let cross := s.env.crosses dir
  if code = 0 ∨ s.env.leaves dir = true then []
  else
    [{ out := dir, leaves := s.env.time + 1 + d + (if cross then 6 else 0), sent := s.env.n
       word := s.env.n + d + (if dir = .east ∨ dir = .south then 0 else if cross then 14 else 2), value := value code }]

/-! ### Journal numbers (R270) -/

/-- Every number that a transaction or a compound revert has was given before the next one. -/
def Journal.Numbered (j : Journal) : Prop := (∀ t ∈ j.txs, t.num < j.next) ∧ ∀ r ∈ j.reverts, r.num < j.next

end Sys2Proof.Machine
end

