-- ==== Sys2Proof/Certificates/Slice0/Obligations.lean ====
section
/-!
DEFINITION. What is claimed of the model: one proposition per claim, each citing the rule it formalises or saying that it rests on a choice
of the model's.
-/

open Sys2Proof Sys2Proof.Machine

/-! ### Words -/

/-- R123 to R130, R132: the words of the spec's worked examples decode to the instructions they are given for. -/
def Obligations.SampleWordsDecode : Prop :=
  let header : Header := { spine := false, role := 15, h := false, le := 0, gs := false, gk := 0, seam := false, zero := 0 }
  let spine : Header := { header with spine := true, role := 0 }
  decodeWord 0x78005044280CC0000000000000000000#128
      = .word header (.mma { ad := 2, va := 4, vb := 5, vc := 0, fa := 3, fb := 3, sm := 0, ov := 0, rm := 0, rx := 0, sub := 0 }) .nop
  ∧ decodeWord 0x7CD8203886060A000020500000003800#128
      = .word { header with h := true, le := 1, gs := true, gk := 3 }
          (.fadd { vd := 7, va := 2, vb := 3, vc := 0, ty := 6, md := 0, kp := 2, kz := 1, rx := 0, sub := 0 })
          (.rt { e := 0x50, s := 0, w := 0, n := 0, lv := 7, lw := 0, sub := 0 })
  ∧ decodeWord 0x800030297FFFFFFFC000000000000000#128 = .word spine (.addi { gd := 5, ga := 5, imm := -1, sub := 0 }) .nop
  ∧ decodeWord 0x80000000000000000005000000600002#128 = .word spine .nop (.loop { lvl := 0, cg := 0, cimm := 3, last := 2 })
  ∧ decodeWord 0x800000000000000000022157FFFFFFFE#128 = .word spine .nop (.brc { ga := 4, gb := 5, cond := 2, disp := -2 })
  ∧ decodeWord 0x78000118440E28000000000000000000#128
      = .word header (.vadd { vd := 3, va := 1, vb := 2, vc := 0, ty := 14, md := 1, kp := 2, kz := 0, rx := 0, sub := 0 }) .nop
  ∧ decodeWord 0x7C000000000000000007218000880000#128
      = .word { header with h := true } .nop (.ldb { vr := 4, sb := 3, off := 2, bf := 1, kp := 0, mode := 0, rx := 0, sz := 0, sub := 0 })

/-- R123 to R137: the word of a legal header and of two slots that hold well-formed instructions of its maps decodes to them, every field as it
was. -/
def Obligations.WordsRoundTrip : Prop :=
  ∀ (h : Header) (i j : Instr) (a b : SlotBits),
    (slotMaps h.spine).1.Holds i a → (slotMaps h.spine).2.Holds j b → h.zero = 0 → h.le.toNat < 5 →
    (h.spine = true → h.role = 0 ∧ h.h = false ∧ h.gs = false ∧ h.gk = 0 ∧ ((slotOp a).toNat = 0 ∨ 10 ≤ (slotOp a).toNat)) →
    decodeWord (encodeWord h a b) = .word h i j

/-- R123 to R137: a word that decodes is the encoding of what it decodes to: no bit of it is passed over. -/
def Obligations.WordsAreEncoded : Prop :=
  ∀ (w : SchedWord) (h : Header) (i j : Instr), decodeWord w = .word h i j →
    ∃ a b, (slotMaps h.spine).1.Holds i a ∧ (slotMaps h.spine).2.Holds j b ∧ w = encodeWord h a b

/-! ### The step -/

/-- R18, R126, R128: a step whose operation is a slot of a word performs the instruction the slot decodes to; one whose operation is an event
performs that event; and the step of the state that holds a word where the next step performs it performs the word's instruction. -/
def Obligations.StepRunsTheDecodedInstruction : Prop :=
  (∀ (s : State) (rest : List Task) (slotB : Bool) (i : Instr), s.agenda = .elemSlot slotB :: rest → s.focus.slot slotB = .instr i →
    step s = exec i { s with agenda := rest, focus := { s.focus with slotB } })
  ∧ (∀ (s : State) (rest : List Task) (slotB : Bool) (i : Instr), s.agenda = .spineSlot slotB :: rest → s.here.atSlot slotB = true →
    s.here.slot slotB = .instr i →
    step s = exec i { s with agenda := rest, focus := { Focus.idle with sig := s.focus.sig, spine := true, slotB, word := s.here.ir } })
  ∧ (∀ (s : State) (rest : List Task) (i : Instr), s.agenda = .event i :: rest → step s = exec i { s with agenda := rest })
  ∧ (∀ (s : State) (nbits w : Nat) (i : Instr), decodeTableWord nbits w = some i →
    let u := s.withFetchWord nbits w
    ∃ slotB, step u = exec i { u with agenda := u.agenda.tail, focus := { u.focus with slotB } })

/-- R18, R121, R126, R128, R163, R185: a spine between words whose next word is there issues it: the slots of a spine word are to be performed in
order from its sources; a fabric word enters the signature's flight with the mode and the broadcast latch, which is then clear, and counts down the
loop level that it ends, whose start is next while iterations are left. R46, R61, R65: a seam word begins the drain for a request that is pending;
it waits while a transaction or an undo waits at the seam, as a matrix word waits that comes too soon after another of its roles (R23). R137, R138,
R163, R344, R353: an illegal word, a marker word and a breach of the loop rules are not issued, and end the launch with a record of the lowest item
and its slot, of the marker's address, or of item 14. A NOP does nothing. -/
def Obligations.WordIssue : Prop :=
  (∀ (s : State) (sig : Nat) (v : Vec),
    let g := s.sig sig
    let p := s.spineOf sig
    let w : SchedWord := v.extractLsb' (128 * (p.pc.toNat % 64 / 16)) 128
    let emits (t : State) : Prop := exec (.spineEmitWord sig) s = .next t
    let idle (phase : SpinePhase) : Prop :=
      ∃ t slot, emits t ∧ (t.sig sig).flight = g.flight ++ [slot] ∧ slot.n = g.time ∧ slot.word = SchedWord.idle 0
        ∧ (t.spineOf sig).phase = phase ∧ (t.spineOf sig).pc = p.pc ∧ (t.spineOf sig).g = p.g ∧ t.memory = s.memory
    let ends (code slot aux addr : Nat) : Prop :=
      ∃ t, emits t ∧ t.sig sig = { g with status := .draining, byFault := true, stop := none }
        ∧ t.spineOf sig = { p with phase := .ended, waiting := false, seamRequest := none }
        ∧ (g.stop = none → t.memory = (s.report g.vif (s.issueFault sig code slot aux addr)).memory)
    s.runs sig = true → p.phase = .fetch → p.breakpoint = false → s.spineStopped sig = false → p.resumeAt ≤ s.cycle →
    s.codeBlock sig (p.pc.toNat / 64) = .here v →
      (∀ item slot, decodeWord w = .illegal item slot → ends 0x01 slot item 0)
      ∧ (decodeWord w = .marker → ends 0x02 0 0 p.pc.toNat)
      ∧ ∀ h i j, decodeWord w = .word h i j →
        let op := (slotOp (SchedWord.slotB w)).toNat
        let breaks : Prop :=
          (∃ l, p.levelAt p.pc none = some l ∧ (h.le.toNat ≠ l + 1 ∨ h.spine = true ∧ 1 ≤ op ∧ op ≤ 9)) ∨ p.levelAt p.pc none = none ∧ h.le ≠ 0
        (breaks → ends 0x01 0 14 0)
        ∧ (¬breaks → s.spaced sig h i = true → idle .fetch)
        ∧ (¬breaks → s.spaced sig h i = false →
          (h.seam = true → p.seamRequest.isSome = true → idle (.seam g.time 0))
          ∧ (h.seam = true → p.seamRequest = none → s.seamHeld sig = true → idle .fetch)
          ∧ (h.seam = false ∨ p.seamRequest = none ∧ s.seamHeld sig = false →
            (h.spine = true → ∃ t, emits t
              ∧ t.agenda = [.spineSlot false, .spineSlot true, .spineLeave] ++ s.agenda ∧ t.focus = { Focus.idle with sig, spine := true }
              ∧ t.here.phase = .slotA ∧ t.here.ir = w ∧ t.here.before = s.sources sig ∧ t.here.g = p.g ∧ t.here.pc = p.pc ∧ t.memory = s.memory)
            ∧ (h.spine = false → ∃ t, emits t
              ∧ (t.sig sig).flight = g.flight ++ [⟨g.time, w, p.mode, p.latch.getD 0, BitVec.ofNat 32 (s.codeOffset sig)⟩]
              ∧ (t.spineOf sig).latch = none ∧ (t.spineOf sig).g = p.g ∧ t.memory = s.memory
              ∧ (p.levelAt p.pc none = none → p.target = none → (t.spineOf sig).pc = p.pc + 16 ∧ (t.spineOf sig).lact = p.lact)
              ∧ (∀ l, p.levelAt p.pc none = some l →
                (t.spineOf sig).lc.get 0 l = p.lc.get 0 l - 1
                ∧ (t.spineOf sig).pc = (if p.lc.get 0 l = 1 then p.pc + 16 else p.lstart.get 0 l)
                ∧ ∀ k < 4, (t.spineOf sig).lact.getLsbD k = (p.lact.getLsbD k && !(k == l && p.lc.get 0 l == 1)))))))
  ∧ (∀ s : State, s.focus.spine = true → exec .nop s = .next (s.setHere s.here.afterSlot))
  ∧ (∀ s : State, s.focus.spine = false → exec .nop s = .next s)

/-! ### Reset and the invariant of memory -/

/-- R33, R61, R91, R120, R270, R279, R310, R331, R339, R341: what the spec says a module reset leaves. That an element's registers, which the
spec gives no reset value, are 0 is the model's choice (log 3, DESIGN CHOICE). -/
def Obligations.ResetValues : Prop :=
  let s := State.reset
  s.cycle = 0 ∧ s.visit = 0 ∧ s.clock.time = 0 ∧ s.clock.synced = false ∧ s.journal.next = 1 ∧ s.platform.service = 0
  ∧ s.platform.mcap = 7200 ∧ s.platform.carve = 0 ∧ s.platform.ecarve = 0 ∧ s.platform.temp = 0 ∧ s.platform.power = 0
  ∧ Spine.zero.mode = 9
  ∧ (∀ row col, s.element row col = Element.zero ∧ (s.folio row col).gen = 1 ∧ (s.folio row col).placed = 0 ∧ (s.folio row col).planes = []
      ∧ (s.folio row col).busy = 0 ∧ (s.folio row col).held = 0 ∧ (s.folio row col).idle = 0)
  ∧ (∀ v, (s.iface v).policy.weight = 16 ∧ (s.iface v).policy.partn = 0x180C0000 ∧ (s.iface v).queue = [] ∧ (s.iface v).images = [])
  ∧ (∀ k, (s.keySlot k).live = false ∧ (s.keySlot k).sgen = 1)

/-- The memory of the model is in its canonical form after reset, and its journal has given no number. The form is the model's own: the spec
gives memory no representation. -/
def Obligations.ResetMeetsInvariant : Prop :=
  State.reset.memory.wf = true ∧ State.reset.journal.Numbered

/-- Every step keeps the canonical form of memory, so that memories that read alike are equal. This is the model's own. -/
def Obligations.StepKeepsMemoryCanonical : Prop :=
  ∀ s t : State, s.memory.wf = true → step s = .next t → t.memory.wf = true

/-- R270: numbers are given in order: every step keeps the next number above that of every transaction and compound revert. -/
def Obligations.StepKeepsNumbersInOrder : Prop :=
  ∀ s t : State, s.journal.Numbered → step s = .next t → t.journal.Numbered

/-! ### Spine integer instructions -/

/-- R168, R157: a division is defined for every pair of operands, writes its result to G[gd], and costs 7 further idle slots. That these add to
the idle slots that slot A owes is the model's reading (log 27, DEDUCED). -/
def Obligations.SpineDivisionResults : Prop :=
  ∀ (s : State) (f : SG) (c : SG → Instr) (x : Word),
    (c, x) ∈ divisionResults (s.readG f.ga) (s.readG f.gb) → s.OnlyWrites (c f) 7 f.gd x

/-- R167, R128: each register instruction but the divisions writes f(a, b) to G[gd] and changes nothing else; what it writes is no source of its
word's other slot, which reads what was there before slot A. R169: SEL, CLZ, POPC, EXT and INS. The count of CLZ is the one that leaves zeros
above and a one bit below it; a field of len bits at pos is taken out with zeros or with its top bit above it, and put in with every other bit of
the old value kept. R170: each immediate instruction writes its result to G[gd], and changes nothing else. -/
def Obligations.SpineResults : Prop :=
  (∀ (s : State) (f : SG) (c : SG → Instr) (x : Word),
     (c, x) ∈ registerResults (s.readG f.ga) (s.readG f.gb) →
       s.OnlyWrites (c f) 0 f.gd x ∧ ∀ t r, exec (c f) s = .next t → t.readG r = s.readG r)
  ∧ (∀ (s : State) (f : SG),
       let a := s.readG f.ga
       let pos := (f.sub.extractLsb' 27 6).toNat
       let len := (f.sub.extractLsb' 21 6).toNat + 1
       s.OnlyWrites (.sel f) 0 f.gd (if s.readG (f.sub.extractLsb' 28 5) ≠ 0 then a else s.readG f.gb)
       ∧ (∃ n ≤ 64, s.OnlyWrites (.clz f) 0 f.gd (BitVec.ofNat 64 n)
           ∧ (∀ i < n, a.getLsbD (63 - i) = false) ∧ (n < 64 → a.getLsbD (63 - n) = true))
       ∧ s.OnlyWrites (.popc f) 0 f.gd (BitVec.ofNat 64 (Finset.univ.filter fun i : Fin 64 => a.getLsbD i).card)
       ∧ (pos + len ≤ 64 →
           (∃ x, s.OnlyWrites (.ext f) 0 f.gd x
             ∧ (∀ i < 64, x.getLsbD i = if i < len then a.getLsbD (pos + i) else f.sub.getLsbD 20 && a.getLsbD (pos + len - 1)))
           ∧ (∃ x, s.OnlyWrites (.ins f) 0 f.gd x
             ∧ ∀ i < 64, x.getLsbD i = if pos ≤ i ∧ i < pos + len then a.getLsbD (i - pos) else (s.readG f.gd).getLsbD i)))
  ∧ (∀ (s : State) (f : SI) (c : SI → Instr) (x : Word),
       (c, x) ∈ immediateResults (s.readG f.ga) f.imm → s.OnlyWrites (c f) 0 f.gd x)

/-! ### Control transfer -/

/-- R159 to R161, R132: BR, a BRC whose condition holds, CALL with room on the stack, RET from a stack that is not empty, and BRI to a block
continue where they say, and CALL pushes the offset of the next word; a BRC whose condition fails only leaves its slot. R162, R164: LOOP makes
its level active with a start, an end and a count, or skips the body when the count is 0, and is an illegal operand when the count is too large
or another active level ends at the same word; LOOPX leaves an active level, and does nothing to an inactive one. A transfer costs 2 further idle slots
(R157); that they add to those that slot A owes is the model's reading (log 27, DEDUCED). -/
def Obligations.BranchesAndLoops : Prop :=
  (∀ s : State,
     let p := s.here
     let code := (s.sig s.focus.sig).code
     (∀ f, s.Transfers (.br f) p (blockTarget p.pc f.disp))
     ∧ (∀ f, (branchConditions (s.readG f.ga) (s.readG f.gb))[f.cond.toNat]! = true → s.Transfers (.brc f) p (blockTarget p.pc f.disp))
     ∧ (∀ f, (branchConditions (s.readG f.ga) (s.readG f.gb))[f.cond.toNat]! = false → s.Leaves (.brc f) p)
     ∧ (∀ f, p.ret.length < 16 →
         s.Transfers (.call f) { p with ret := (p.pc + 16 - code) :: p.ret } (blockTarget p.pc f.disp))
     ∧ (∀ f o rest, p.ret = o :: rest → s.Transfers (.ret f) { p with ret := rest } (code + o))
     ∧ (∀ f, (s.readG f.ga).toNat % 64 = 0 → s.Transfers (.bri f) p (code + s.readG f.ga)))
  ∧ (∀ s : State,
       let p := s.here
       (∀ f : SO,
         let l := f.lvl.toNat
         let count := if f.cg = 0 then f.cimm.toNat else (s.readG f.cg).toNat
         let last := p.pc + BitVec.ofNat 64 (16 * f.last.toNat)
         let clash := ∃ k < 4, k ≠ l ∧ p.lact.getLsbD k = true ∧ p.lend.get 0 k = last
         (2 ^ 32 ≤ count ∨ clash → s.TakesEnd (.loop f) 0x06 (s.operandAux 0x05) 0)
         ∧ (count = 0 → ¬clash → s.Transfers (.loop f) p (last + 16))
         ∧ (0 < count → count < 2 ^ 32 → ¬clash → ∃ q, s.Leaves (.loop f) q ∧ q = { p with lc := q.lc, lstart := q.lstart, lend := q.lend, lact := q.lact }
             ∧ ∀ k < 4,
               if k = l then
                 q.lact.getLsbD k = true ∧ q.lstart.get 0 k = p.pc + 16 ∧ q.lend.get 0 k = last ∧ (q.lc.get 0 k).toNat = count
               else
                 q.lact.getLsbD k = p.lact.getLsbD k ∧ q.lstart.get 0 k = p.lstart.get 0 k ∧ q.lend.get 0 k = p.lend.get 0 k
                   ∧ q.lc.get 0 k = p.lc.get 0 k))
       ∧ (∀ f : SO,
         let l := f.lvl.toNat
         (p.lact.getLsbD l = false → s.Leaves (.loopx f) p)
         ∧ (p.lact.getLsbD l = true → ∃ q, s.Transfers (.loopx f) q (p.lend.get 0 l + 16) ∧ q = { p with lc := q.lc, lact := q.lact }
             ∧ ∀ k < 4, q.lact.getLsbD k = (if k = l then false else p.lact.getLsbD k)
               ∧ q.lc.get 0 k = if k = l then 0 else p.lc.get 0 k)))

/-- R159 to R161, R189: CALL on a full return stack, RET on an empty one, BRI to an address that begins no block, ENTER on a full region stack
and LEAVE on an empty one end the launch by their fault, and no part of them takes effect. R171, R359: a spine access that is not naturally
aligned ends the launch with a misaligned-access record of its size and address. R93, R344, R357: a stream, a copy or a step whose block breaks a
limit is refused by a STOP that names the offset of the first field that breaks it, and a stream or a copy whose key fails its check by a STOP
that names the key. -/
def Obligations.FormsThatFault : Prop :=
  (∀ s : State,
     (∀ f, 16 ≤ s.here.ret.length → s.TakesEnd (.call f) 0x04 16 0)
     ∧ (∀ f, s.here.ret = [] → s.TakesEnd (.ret f) 0x04 0 0)
     ∧ (∀ f, (s.readG f.ga).toNat % 64 ≠ 0 → s.TakesEnd (.bri f) 0x03 (s.readG f.ga).toNat 0)
     ∧ (∀ f, 8 ≤ s.here.region.length → s.TakesEnd (.enter f) 0x05 8 0)
     ∧ (∀ f, s.here.region = [] → s.TakesEnd (.leave f) 0x05 0 0))
  ∧ (∀ (s : State) (f : SM) (e : SE),
       let ea := s.readG f.gb + BitVec.ofInt 64 f.off.toInt
       let size := 2 ^ f.sz.toNat
       let ec := s.readG e.gp + BitVec.ofInt 64 e.disp.toInt
       (s.here.answer = none → s.here.waiting = false → ea.toNat % size ≠ 0 → s.TakesEnd (.ldg f) 0x07 size ea.toNat)
       ∧ (ea.toNat % size ≠ 0 → s.TakesEnd (.stg f) 0x07 size ea.toNat)
       ∧ (ec.toNat % 8 ≠ 0 → s.TakesEnd (.waitc e) 0x07 8 ec.toNat ∧ s.TakesEnd (.signal e) 0x07 8 ec.toNat ∧ s.TakesEnd (.bwait e) 0x07 8 ec.toNat))
  ∧ (∀ (s : State) (f : SE) (blk : Vec) (offset : Nat),
       let n := s.focus.sig
       let g := s.sig n
       s.readBlock f = .inr blk → (s.ctx n f.h.toNat).kind = .free →
         (copyRefused blk 0 = some offset → s.TakesStop (.cpy f) 0x0B 3 offset 0)
         ∧ (stepRefused blk = some offset → s.TakesStop (.coll f) 0x0B 3 offset 0)
         ∧ (∀ aux, copyRefused blk 0 = none → s.keyRefused [(g.vif, blockWord blk 4), (g.vif, blockWord blk 5)] = some aux →
             s.TakesStop (.cpy f) 0x0A 3 aux 0))
  ∧ (∀ (s : State) (f : SE) (blk : Vec),
       let g := s.sig s.focus.sig
       let based := s.streamBlock f blk
       let b := Block.ofVec based
       let (slot, gen, world) := keyFields b.keysel
       let broken := Block.refused based (Range.ofVec (s.rangeVec g.vif b.ridx)) (s.addressing g.vif b.ridx)
       s.readBlock f = .inr blk → b.frow < g.ht → b.fcol < g.wd → (s.ctx s.focus.sig (ctxKey g.wd b.frow b.fcol f.h.toNat)).kind = .free →
       s.rangeClosed g.vif b.ridx = false → s.rangeThere g.vif = .ok () →
         (∀ offset, broken = some offset → s.TakesStop (.strm f) 0x0B 3 offset 0)
         ∧ (broken = none → s.keyValid g.vif slot gen world = false →
             s.TakesStop (.strm f) 0x0A 3 (slot + gen * 2 ^ 20 + if world then 2 ^ 32 else 0) 0))

/-- R18, R157, R163: when a spine word is over, the cycle's slot carries the idle word with the word's LE, and issue goes on at the loop's start
while its count has not run out, at the target of a transfer, or at the next word. R37, R165, R166: END begins the drain and discards a pending
request of a seam; WAITV takes vt once the last VOTE's result is there. -/
def Obligations.WordsLeftAndEnded : Prop :=
  (∀ (s : State) (sig : Nat),
     let g := s.sig sig
     let p := s.spineOf sig
     s.runs sig = true → p.phase = .leave → p.idles = 0 → g.ending = false →
     ∃ t slot, exec (.spineEmitWord sig) s = .next t
       ∧ (t.sig sig).flight = g.flight ++ [slot] ∧ slot.n = g.time ∧ slot.word = SchedWord.idle (SchedWord.header p.ir).le
       ∧ (t.spineOf sig).phase = .fetch
       ∧ (p.levelAt p.pc none = none → (t.spineOf sig).pc = p.target.getD (p.pc + 16))
       ∧ (∀ l, p.levelAt p.pc none = some l →
           (t.spineOf sig).lc.get 0 l = p.lc.get 0 l - 1
           ∧ (t.spineOf sig).pc = (if p.lc.get 0 l = 1 then p.pc + 16 else p.lstart.get 0 l)
           ∧ ∀ k < 4, (t.spineOf sig).lact.getLsbD k = (p.lact.getLsbD k && !(k == l && p.lc.get 0 l == 1))))
  ∧ (∀ s : State,
       let n := s.focus.sig
       (∀ f, ∃ t, exec (.endLaunch f) s = .next t ∧ (t.sig n).status = .draining ∧ (t.sig n).ending = true
         ∧ t.here.phase = .leave ∧ t.here.seamRequest = none ∧ t.here.g = s.here.g ∧ t.memory = s.memory)
       ∧ (∀ f, (∀ v, s.here.lastVote = some v → v + 2 * (s.sig n).span + 32 ≤ (s.sig n).time) → s.OnlyWrites (.waitv f) 0 f.gd s.here.vt))

/-- R185, R186, R195, R196: FBC sets the broadcast latch; SETM and a CSRW of fab.MODE set the fabric mode unless the rounding mode is 5 to 7,
which is an illegal operand; a CSRW of bar.PH writes it; CSRR reads each control register. R61, R188: GENADV and PLSW set the request that the
next seam serves, the later one standing; PLSW does so when every folio holds the configuration READY or ACTIVE and none loads it, and is an
illegal operand when some folio does not. R189, R190, R310, R322: ENTER and LEAVE push and pop the region stack, PROG adds to prog.CNT, RDCYC
reads the wall cycle count or T, RDTIME writes the nanoseconds and the fraction, TRACE stages a record of its code, class and payload, and BKPT
stops the device after its word when debug is armed and does nothing otherwise. That PROG adds to what slot A of its word left is the model's choice
(log 83, DESIGN CHOICE); that RDCYC and RDTIME read the counters as the slot is performed, and that the fraction stands where RDTIME names one
register twice, is its reading (log 28, DEDUCED). -/
def Obligations.ControlAndObservation : Prop :=
  (∀ s : State,
     let p := s.here
     (∀ f, s.Leaves (.fbc f) { p with latch := some (s.readG f.ga) })
     ∧ (∀ f : SI,
         let m := if f.ga = 0 then f.imm.extractLsb' 0 8 else (s.readG f.ga).extractLsb' 0 8
         ((m.extractLsb' 4 3).toNat < 5 → s.Leaves (.setm f) { p with mode := m })
         ∧ (5 ≤ (m.extractLsb' 4 3).toNat → s.TakesEnd (.setm f) 0x06 (s.operandAux 0x5B) 0))
     ∧ (∀ f : SI, (f.imm.extractLsb' 0 12).toNat = 0x10 →
         let m := (s.readG f.ga).extractLsb' 0 8
         ((m.extractLsb' 4 3).toNat < 5 → s.Leaves (.csrw f) { p with mode := m })
         ∧ (5 ≤ (m.extractLsb' 4 3).toNat → s.TakesEnd (.csrw f) 0x06 (s.operandAux 0x82) 0))
     ∧ (∀ f : SI, (f.imm.extractLsb' 0 12).toNat = 0x30 → s.Leaves (.csrw f) { p with barPh := s.readG f.ga })
     ∧ (∀ (f : SI) (x : Word), ((f.imm.extractLsb' 0 12).toNat, x) ∈ s.controlValues → s.OnlyWrites (.csrr f) 0 f.gd x))
  ∧ (∀ s : State,
       let g := s.sig s.focus.sig
       let has (cfg : Nat) (states : List PlaneState) (rc : Nat × Nat) : Bool := ((s.folio rc.1 rc.2).planeWith g.vif g.code cfg states).isSome
       (∀ f, s.Leaves (.genadv f) { s.here with seamRequest := some .genadv })
       ∧ (∀ f : SG,
           let cfg := f.sub.extractLsb' 0 16
           (∀ rc ∈ g.folios, has cfg.toNat [.loading] rc = false) → (∀ x ∈ g.ctxs, x.2.kind = .cfgld → x.2.unit ≠ cfg.toNat) →
             ((∀ rc ∈ g.folios, has cfg.toNat [.ready, .active] rc = true) → s.Leaves (.plsw f) { s.here with seamRequest := some (.plsw cfg) })
             ∧ (∀ rc ∈ g.folios, has cfg.toNat [.ready, .active] rc = false → s.TakesEnd (.plsw f) 0x06 (s.operandAux 0x5D) 0)))
  ∧ (∀ s : State,
       let p := s.here
       let n := s.focus.sig
       let g := s.sig n
       let lead := s.folio g.row0 g.col0
       (∀ f : SI, p.region.length < 8 → ∃ t, exec (.enter f) s = .next t ∧ t.here.region = f.imm.extractLsb' 0 16 :: p.region
           ∧ t.here.g = p.g ∧ t.memory = s.memory)
       ∧ (∀ f r rest, p.region = r :: rest → ∃ t, exec (.leave f) s = .next t ∧ t.here.region = rest ∧ t.here.g = p.g ∧ t.memory = s.memory)
       ∧ (∀ f : SI,
           let x := s.readG f.ga + BitVec.ofNat 64 f.imm.toNat
           s.Leaves (.prog f) ({ p with progCnt := p.progCnt + x }.capture_ 9 x.toNat))
       ∧ (∀ f : SG, s.OnlyWrites (.rdcyc f) 0 f.gd (BitVec.ofNat 64 (if f.sub.getLsbD 0 then g.time else s.cycle)))
       ∧ (∀ f : SG, f.gd ≠ f.gb → ∃ t, exec (.rdtime f) s = .next t ∧ (∃ q, t = s.setHere { p.afterSlot with g := q })
           ∧ ∀ r, t.regG r = if r = 0 then 0 else if r = f.gd.toNat then BitVec.ofNat 64 (s.clock.time / 5000000)
               else if r = f.gb.toNat then BitVec.ofNat 64 (s.clock.time % 5000000 * 65536 / 5000000) else p.g.get 0 r)
       ∧ (∀ f : SG, f.gd = f.gb → ∃ t, exec (.rdtime f) s = .next t ∧ (∃ q, t = s.setHere { p.afterSlot with g := q })
           ∧ ∀ r, t.regG r = if r = f.gb.toNat ∧ r ≠ 0 then BitVec.ofNat 64 (s.clock.time % 5000000 * 65536 / 5000000) else s.regG r)
       ∧ (∀ f : SG, lead.gated = false → (s.iface g.vif).policy.tcls ≤ (f.sub.extractLsb' 16 2).toNat → lead.staging.records.length < 64 →
           ∃ t, exec (.trace f) s = .next t ∧ t.here = p.afterSlot ∧ t.memory = s.memory
             ∧ Staged lead.staging (t.folio g.row0 g.col0).staging (f.sub.extractLsb' 0 16).toNat (f.sub.extractLsb' 16 2).toNat
                 (s.readG f.ga).toNat)
       ∧ (∀ f : SI, p.bkpt = none → s.Leaves (.bkpt f) { p with bkpt := some (f.imm.extractLsb' 0 16).toNat }))
  ∧ (∀ (s : State) (sig : Nat) (code : Option Nat),
       let p := s.spineOf sig
       let g := s.sig sig
       s.runs sig = true → p.phase = .leave → p.idles = 0 → p.bkpt = code →
         ((code = none ∨ (s.iface g.vif).dbg.getLsbD 1 = false) →
           ∃ t, exec (.spineEmitWord sig) s = .next t ∧ t.debugger = s.debugger ∧ (t.spineOf sig).breakpoint = p.breakpoint)
         ∧ (∀ c, code = some c → (s.iface g.vif).dbg.getLsbD 1 = true → s.debugger.stopped = false →
             ∃ t, exec (.spineEmitWord sig) s = .next t ∧ t.debugger.stopped = true ∧ t.debugger.cause = 1 ∧ t.debugger.code = c
               ∧ t.debugger.vif = g.vif ∧ (t.spineOf sig).breakpoint = true ∧ (t.spineOf sig).g = p.g ∧ t.memory = s.memory))

/-! ### Spine memory -/

/-- R171 to R174, R86, R141: LDG writes the bytes that have come, or that the read-ahead holds for a relaxed load; STG and the requests of a
store leave for the home; ATOM writes the old value; LDLIT reads the payload of a pool block; a FENCE that acquires empties the read-ahead and
one that releases waits for the spine's stores. -/
def Obligations.SpineMemory : Prop :=
  ∀ (s : State) (f : SM),
    let n := s.focus.sig
    let ea := s.readG f.gb + BitVec.ofInt 64 f.off.toInt
    let size := 2 ^ f.sz.toNat
    let lit := BitVec.ofNat 64 (s.here.pc.toNat / 64 * 64) + BitVec.ofInt 64 f.off.toInt + s.readG f.gb
    (∀ u since, s.here.answer = some (.data u since) → s.LoadsTo (.ldg f) f.gv (extended (u.toNat / 2 ^ (8 * (ea.toNat % 64))) size (f.sub.getLsbD 0)))
    ∧ (∀ e, s.here.answer = none → s.here.waiting = false → f.ord = 0 → ea.toNat % size = 0 →
        s.here.readAhead.find? (fun e => e.unit = ea.toNat / 64) = some e →
        s.LoadsTo (.ldg f) f.gv (extended (e.data.toNat / 2 ^ (8 * (ea.toNat % 64))) size (f.sub.getLsbD 0)))
    ∧ (∀ pa, ea.toNat % size = 0 → f.ord = 0 ∨ s.released n f.scope.toNat = true → f.sz.toNat ≤ 3 →
        let op := ReqOp.write (storeBytes ea size (s.readG f.gv)).1 (storeBytes ea size (s.readG f.gv)).2
        s.Reaches ea op pa → s.Sends (.stg f) ea pa op)
    ∧ (∀ old, s.here.answer = some (.value old) →
        s.OnlyWrites (.atom f) 0 f.gv (if f.sz = 3 then old else BitVec.ofNat 64 (old.toNat % 2 ^ 32)))
    ∧ (∀ v, s.codeBlock n (lit.toNat / 64) = .here v → v.extractLsb' 0 128 = SchedWord.marker → 16 ≤ lit.toNat % 64 →
        lit.toNat % 64 + size ≤ 64 →
        s.OnlyWrites (.ldlit f) 0 f.gv (extended (v.toNat / 2 ^ (8 * (lit.toNat % 64))) size (f.sub.getLsbD 0)))
    ∧ (f.ord = 1 ∨ s.released n f.scope.toNat = true →
        ∃ t, exec (.fence f) s = .next t ∧ t.here = { s.here.afterSlot with readAhead := if f.ord = 2 then s.here.readAhead else [] }
          ∧ t.memory = s.memory)

/-- R180 to R183: WAITC goes on once the object's value is at least G[gc], BWAIT and BAR once its phase differs from bar.PH; SIGNAL sends its
store, or its far ADD; ARRV records the old phase; BAR without an object goes on once the signature has drained. That BWAIT reads bar.PH as a source,
as it was before slot A of its word (R128), is the model's reading (log 26, DEDUCED). -/
def Obligations.CompletionObjects : Prop :=
  ∀ (s : State) (f : SE),
    let n := s.focus.sig
    let p := s.here
    let ea := s.readG f.gp + BitVec.ofInt 64 f.disp.toInt
    let x := s.readG f.gc
    let seen (u : Vec) := u.toNat / 2 ^ (8 * (ea.toNat % 64)) % 2 ^ 64
    (∀ u since, ea.toNat % 8 = 0 → p.answer = some (.data u since) → x.toNat ≤ seen u → s.Leaves (.waitc f) { p with poll := none })
    ∧ (∀ u since, ea.toNat % 8 = 0 → p.answer = some (.data u since) →
        (seen u / 2 ^ 32 ≠ p.before.barPh.toNat → s.Leaves (.bwait f) { p with poll := none })
        ∧ (seen u / 2 ^ 32 ≠ p.barPh.toNat → p.poll.isSome = true → ¬(f.scope = 2 ∧ f.gp = 0 ∧ f.gc = 0 ∧ f.disp = 0) →
            s.Leaves (.bar f) { p with poll := none }))
    ∧ (∀ old, p.answer = some (.value old) → s.Leaves (.arrv f) { p with barPh := BitVec.ofNat 64 (old.toNat / 2 ^ 32) })
    ∧ (f.scope = 2 ∧ f.gp = 0 ∧ f.gc = 0 ∧ f.disp = 0 → s.drained n = true → s.Leaves (.bar f) p)
    ∧ (∀ pa, ea.toNat % 8 = 0 → s.released n f.scope.toNat = true →
        let op := if f.sub.getLsbD 1 then ReqOp.add x else ReqOp.write (storeBytes ea 8 x).1 (storeBytes ea 8 x).2
        s.Reaches ea op pa → s.Sends (.signal f) ea pa op)

/-! ### Engines -/

/-- R175 to R179, R184, R187: an engine instruction whose block is there and passes its checks starts its operation on a free handle; SWAIT goes
on once the handles it covers are idle; LAUNCH enqueues its record on the spine's own interface, or, behind a store or a LAUNCH that is still to
be performed, leaves it to be enqueued. That LAUNCH waits for nothing is the model's reading of R254 (log 34, DEDUCED); what CFGLD does once its context
is taken is said in the model's own operations on planes, pumpCfgld and endCfgld. -/
def Obligations.EngineStarts : Prop :=
  ∀ (s : State) (f : SE) (blk : Vec),
    let n := s.focus.sig
    let g := s.sig n
    let code := BitVec.ofNat 32 (s.codeOffset n)
    let fresh : Ctx := { Ctx.free with block := blk, gen := s.genOf n, fork := s.nextRequest, code }
    let based := s.streamBlock f blk
    (s.readBlock f = .inr blk →
      let b := Block.ofVec based
      let key := ctxKey g.wd b.frow b.fcol f.h.toNat
      let range := s.rangeVec g.vif b.ridx
      let format := s.addressing g.vif b.ridx
      b.frow < g.ht → b.fcol < g.wd → (s.ctx n key).kind = .free → s.rangeClosed g.vif b.ridx = false →
      s.rangeThere g.vif = .ok () → Block.refused based (Range.ofVec range) format = none →
      s.keyValid g.vif (keyFields b.keysel).1 (keyFields b.keysel).2.1 (keyFields b.keysel).2.2 = true →
      s.Starts (.strm f) key { fresh with kind := .stream, block := based, range, addressing := format })
    ∧ (s.readBlock f = .inr blk → (s.ctx n f.h.toNat).kind = .free → copyRefused blk 0 = none →
        s.keyRefused [(g.vif, blockWord blk 4), (g.vif, blockWord blk 5)] = none →
        s.Starts (.cpy f) f.h.toNat { fresh with kind := .copy, port := routePlace g.wd (s.route n f.h.toNat) })
    ∧ (s.readBlock f = .inr blk → (s.ctx n f.h.toNat).kind = .free → stepRefused blk = none →
        s.Starts (.coll f) f.h.toNat { fresh with kind := .coll, gen := 0, step := s.nextColl }
        ∧ ∃ t, exec (.coll f) s = .next t ∧ ∃ c ∈ t.colls, c.id = s.nextColl ∧ c.block = blk ∧ c.mode = s.here.before.mode ∧ c.vif = g.vif ∧ c.started = false)
    ∧ (s.readBlock f = .inr blk → g.launches = [] → s.earlierStores n = [] → s.recordRefused g.vif blk = none → recordGang blk = 0 →
        ∃ t q, exec (.launch f) s = .next t ∧ (t.iface g.vif).queue = (s.iface g.vif).queue ++ [q] ∧ q.record = blk ∧ q.arrived = s.cycle
          ∧ t.here = s.here.afterSlot ∧ t.memory = s.memory)
    ∧ (s.readBlock f = .inr blk → g.launches ≠ [] ∨ s.earlierStores n ≠ [] →
        ∃ t, exec (.launch f) s = .next t ∧ (t.sig n).launches = g.launches ++ [(blk, s.nextRequest)] ∧ (t.iface g.vif).queue = (s.iface g.vif).queue
          ∧ t.here = s.here.afterSlot ∧ t.memory = s.memory)
    ∧ (∀ keys, s.waitedHandles f = some keys → (∀ k ∈ keys, (s.ctx n k).kind = .free) →
        ∃ t, exec (.swait f) s = .next t ∧ t.here = { s.here.afterSlot with readAhead := [] } ∧ t.memory = s.memory)
    ∧ (∀ i, s.imageOf n = some i → 0 ≤ f.disp.toInt → f.disp.toInt < i.shape_.2.2 → (s.ctx n f.h.toNat).kind = .free →
        ∃ t, exec (.cfgld f) s = .next t ∧ t.here.phase = s.here.afterSlot.phase ∧ t.here.g = s.here.g
          ∧ t = (((s.setCtx n f.h.toNat { Ctx.free with kind := .cfgld, unit := f.disp.toNat, fork := s.nextRequest, code }).pumpCfgld n f.h.toNat).endCfgld n f.h.toNat).slotDone)

/-! ### Capture, journal and keys -/

/-- R191: CNTR starts a capture with its counters and cap.INTR at zero, sets what a counter counts while none is under way, reads a counter, and
a STOP is done once both units of its result are written. That a READ in slot B reads the counter as slot A left it is the model's choice (log 83,
DESIGN CHOICE). -/
def Obligations.CaptureCounters : Prop :=
  ∀ (s : State) (f : SG),
    let p := s.here
    let c := p.capture
    let idx := (f.sub.extractLsb' 3 3).toNat
    let event := (s.readG f.ga).toNat % 256
    (c.on = false → event < 10 → s.Leaves (.cntrCfg f) { p with capture := { c with events := c.events.set 0 idx event } })
    ∧ (c.on = true ∨ 10 ≤ event → s.TakesEnd (.cntrCfg f) 0x06 (s.operandAux 0x66) 0)
    ∧ (c.on = false → s.Leaves (.cntrStart f)
        { p with capture := ⟨true, [], c.events, 0, BitVec.ofNat 64 (s.clock.time / 5000000), BitVec.ofNat 64 (s.sig s.focus.sig).time, []⟩ })
    ∧ s.OnlyWrites (.cntrRead f) 0 f.gd (c.counters.get 0 idx)
    ∧ (p.waiting = true → p.progress ≠ 0 → s.spineStores s.focus.sig = [] →
        s.Leaves (.cntrStop f) { p with capture := { c with result := [] } })

/-- R193, R280, R291, R294: when the controller answers, JSUB takes a free number, the lowest (the model's choice, log 84), JUNSUB ends a
subscription, JPIN and JUNPIN set and remove the pin of an object, JPROP returns the number of the transaction accepted, JREAD the last number of
an object, JWAIT the count of a subscription that has passed G[gb], and JLOAD 0 for a journal whose replay is queued. R92, R94, R95, R194: when
the security controller serves it, SEQNEW makes the lowest FREE slot LIVE for the interface and returns its handle; SEQROT
makes the key of a slot its OLD key and starts the next epoch; SEQEND frees a slot, whose generation advances and whose key no cache keeps. -/
def Obligations.JournalAndKeyInstructions : Prop :=
  (∀ (s : State) (f : SG),
     let n := s.focus.sig
     let g := s.sig n
     let a := s.readG f.ga
     let b := s.readG f.gb
     let object := completeObject g.vif n b
     s.controllerAnswers = true →
       (∀ k, a.toNat % 64 ≤ 20 → b.toNat < 32 → 1 ≤ k → k ≤ 15 → (∀ u ∈ g.subs, u.number ≠ k) → (∀ j, 1 ≤ j → j < k → ∃ u ∈ g.subs, u.number = j) →
         ∃ t, exec (.jsub f) s = .next t ∧ (t.sig n).subs = g.subs ++ [⟨k, a, b, 0⟩]
           ∧ (∀ r, t.regG r = if r = f.gd.toNat ∧ r ≠ 0 then BitVec.ofNat 64 k else s.regG r) ∧ t.memory = s.memory)
       ∧ (∃ t, exec (.junsub f) s = .next t ∧ (∀ u, u ∈ (t.sig n).subs ↔ u ∈ g.subs ∧ u.number ≠ a.toNat) ∧ t.here = s.here.afterSlot
           ∧ t.memory = s.memory)
       ∧ (objectLegal b = true → (g.pins.filter fun q => q.object ≠ object).length < 16 →
           ∃ t, exec (.jpin f) s = .next t ∧ (∀ q, q ∈ (t.sig n).pins ↔ q = ⟨object, a⟩ ∨ q ∈ g.pins ∧ q.object ≠ object))
       ∧ (objectLegal b = true →
           ∃ t, exec (.junpin f) s = .next t ∧ ∀ q, q ∈ (t.sig n).pins ↔ q ∈ g.pins ∧ q.object ≠ object)
       ∧ (∀ bytes u k, s.readBytes g.vif 3 a 64 = .ok bytes → objectLegal (blockWord (BitVec.ofNat 512 (natOf bytes)) 1) = true →
           s.taken.proposeAt g.vif 1 n a (completeObject g.vif n) = some (u, k) →
           ∃ t, exec (.jprop f) s = .next t ∧ t.journal = u.journal ∧ ∀ r, t.regG r = if r = f.gd.toNat ∧ r ≠ 0 then BitVec.ofNat 64 k else u.regG r)
       ∧ (∀ items u, s.checkJournal g.vif n a b.toNat = .inr items → s.taken.queueReplay g.vif n items = some u →
           ∃ t, exec (.jload f) s = .next t ∧ t.journal = u.journal ∧ ∀ r, t.regG r = if r = f.gd.toNat ∧ r ≠ 0 then 0 else u.regG r))
  ∧ (∀ (s : State) (f : SG),
       let n := s.focus.sig
       let g := s.sig n
       let a := s.readG f.ga
       let object := completeObject g.vif n a
       (f.ga = 0 → s.OnlyWrites (.jread f) 0 f.gd (BitVec.ofNat 64 (s.journal.next - 1)))
       ∧ (∀ k, f.ga ≠ 0 → objectLegal a = true → s.journal.lastApplied.find? (fun q => q.1 = object) = some (object, k) →
           s.OnlyWrites (.jread f) 0 f.gd (BitVec.ofNat 64 k))
       ∧ (∀ u, g.subs.find? (fun u => u.number = a.toNat) = some u → (s.readG f.gb).toNat < u.count.toNat → s.OnlyWrites (.jwait f) 0 f.gd u.count))
  ∧ (∀ (s : State) (f : SG),
       let vif := (s.sig s.focus.sig).vif
       let a := s.readG f.ga
       let slot := a.toNat % 2 ^ 20
       let k := s.keySlot slot
       let mine := a.toNat < 2 ^ 32 ∧ k.live = true ∧ k.sgen = a.toNat / 2 ^ 20 ∧ k.owner = vif
       s.keyTurn = true →
         (∀ new, a.toNat % 2 ^ 16 = 0 → a.toNat < 2 ^ 56 → s.keysServed = true → s.liveSlots vif < (s.iface vif).quota →
           lowestFree 1 s.keySlots = new → new < 2 ^ 20 →
           ∃ t, exec (.seqnew f) s = .next t
             ∧ (t.keySlot new).live = true ∧ (t.keySlot new).owner = vif ∧ (t.keySlot new).base = a ∧ (t.keySlot new).sgen = (s.keySlot new).sgen
             ∧ (t.keySlot new).old = none ∧ (∀ j, j ≠ new → t.keySlot j = s.keySlot j) ∧ t.memory = s.memory
             ∧ ∀ r, t.regG r = if r = f.gd.toNat ∧ r ≠ 0 then BitVec.ofNat 64 (new + (s.keySlot new).sgen * 2 ^ 20) else s.regG r)
         ∧ (mine → (s.retireOld.keySlot slot).old = none →
           let r := s.retireOld.keySlot slot
           ∃ t, exec (.seqrot f) s = .next t
             ∧ (t.keySlot slot).old = some (r.key, r.epoch) ∧ (t.keySlot slot).epoch = !r.epoch ∧ (t.keySlot slot).live = r.live
             ∧ (t.keySlot slot).sgen = r.sgen ∧ t.memory = s.memory
             ∧ ∀ r, t.regG r = if r = f.gd.toNat ∧ r ≠ 0 then 0 else s.regG r)
         ∧ (mine →
           ∃ t, exec (.seqend f) s = .next t
             ∧ (t.keySlot slot).live = false ∧ (t.keySlot slot).sgen = (if k.sgen = 4095 then 1 else k.sgen + 1)
             ∧ (∀ j, j ≠ slot → t.keySlot j = s.keySlot j) ∧ (∀ c ∈ t.keyCache, c.slot ≠ slot) ∧ t.memory = s.memory
             ∧ ∀ r, t.regG r = if r = f.gd.toNat ∧ r ≠ 0 then 0 else s.regG r))

/-- R195, R344, R353: TRAP takes the user-trap stop: its payload as address, its code as AUX, with ABORT and RESUME as its answers. A YIELD with
no record waiting for its place only leaves its slot; with one, and room in the image store, it requests the freeze wave of a pre-emption, which a
PART move that awaits its seam joins (R197). -/
def Obligations.TrapAndYield : Prop :=
  ∀ s : State,
    let n := s.focus.sig
    (∀ f : SI, s.TakesStop (.trap f) 0x0F 3 (f.imm.extractLsb' 0 16).toNat (s.readG f.ga).toNat)
    ∧ ∀ f : SG, (s.yieldTo n = false → s.Leaves (.yield f) s.here)
      ∧ (s.yieldTo n = true → s.placedGang n = [n] → (s.sig n).waves = [] →
          s.platform.store + (if (s.sig n).reservedStore = 0 then imageRoom (s.sig n).ht (s.sig n).wd else 0) ≤ s.storeSize →
          ∃ t w, exec (.yield f) s = .next t ∧ (t.sig n).waves = [w] ∧ w.cause = .preempt ∧ w.inForce = false
            ∧ t.here = s.here.afterSlot ∧ t.memory = s.memory
            ∧ (s.seamUndo n = none → ∀ m, s.awaitingMove n = some m → ∃ x, t.tx m.num = some x ∧ x.stage = 2))

/-! ### Element instructions: vectors -/

/-- R126: a word of which a slot has faulted performs nothing more, and an instruction of which the guard enables no lane is not performed: it
reads nothing, queues nothing, and leaves its element as it is. R62, R226, R234 to R239, R352, R356, R369: a stale operand in mode T, a poisoned
one, an address out of line or out of range, a wrong tag, a buffer that is undeclared, void or in another state and an offset beyond it, and a
hand-over that no stream takes, are faults of the element: neither slot of the word has an effect. That an LDB looks at its buffer before the
granule it would read (log 24, DEDUCED), and that a word that faults counts as executed, as event 1 of R243 (log 22, DEDUCED), is the model's
reading. -/
def Obligations.MaskedAndFaultingSlots : Prop :=
  (∀ (s : State) (f : AV) (c : AV → Instr),
     ((∃ l op src, (c, l, src, op) ∈ integerLanes f) ∨ (∃ l op src, (c, l, src, op) ∈ exactFloatLanes f)
       ∨ (∃ op src, (c, src, op) ∈ roundedFloatLanes f) ∨ (∃ l op src, (c, l, src, op) ∈ permutedLanes f)) →
     (s.focus.suppressed = true → exec (c f) s = .next s)
     ∧ (s.focus.suppressed = false → guardAny s.env (laneWidth f.ty) = false → exec (c f) s = .next (s.withElem s.elem)))
  ∧ (∀ s : State, s.acts = true →
       let gens (g : Gen) : Nat := g.toNat + s.env.gen.toNat * 2 ^ 16
       (∀ f : AS,
         let r := s.elem.s.get (Tagged.zero 32) f.sa.toNat
         (r.gen ≠ s.env.gen → s.env.trap = true → s.TakesNote (.saddi f) 0x10 (gens r.gen) 0)
         ∧ (r.gen = s.env.gen → r.poison = true → s.TakesNote (.saddi f) 0x18 1 0))
       ∧ (∀ f : BL,
         let a := s.padAt f
         let d := s.buffer f.bf
         let words := f.rx = 0 ∧ f.kp = 0 ∧ s.mayUse f.bf = true
         s.mayPadAt f = true →
           (a % 64 ≠ 0 → s.TakesNote (.ld f) 0x07 64 a ∧ s.TakesNote (.st f) 0x07 64 a)
           ∧ (0x18000 < a + 64 → s.TakesNote (.ldx f) 0x16 0 a ∧ s.TakesNote (.stx f) 0x16 0 a)
           ∧ (a % 2 ^ f.sz.toNat ≠ 0 → s.TakesNote (.lds f) 0x07 (2 ^ f.sz.toNat) a ∧ s.TakesNote (.sts f) 0x07 (2 ^ f.sz.toNat) a)
           ∧ (words → d.cnt ≤ a → s.TakesNote (.ldb f) 0x15 d.toWord.toNat 0)
           ∧ (words → a < d.cnt → d.void = true → s.TakesNote (.ldb f) 0x13 d.toWord.toNat 0)
           ∧ (words → a < d.cnt → d.void = false → d.st ≠ 2 → s.TakesNote (.ldb f) 0x12 d.toWord.toNat 0))
       ∧ (∀ f : BD, s.env.trap = false → (s.elem.b.get (Tagged.zero 64) f.b.toNat).gen ≠ s.env.gen → s.TakesNote (.bstateFull f) 0x14 f.b.toNat 0)
       ∧ (∀ f : AM, f.rx = 0 → f.ov = 1 → s.mayReadV f.va.toNat = true → s.mayReadV f.vb.toNat = true →
           (s.seenV f.va.toNat).fits f.fa false = false →
           s.TakesNote (.mma f) 0x11 ((s.seenV f.va.toNat).fmt.toNat + (if (s.seenV f.va.toNat).scaled then 16 else 0) + f.fa.toNat * 256) 0)
       ∧ (∀ f : BD,
           let h := (f.n.extractLsb' 0 4).toNat
           s.mayReadV f.vr.toNat = true → (s.ctx s.focus.sig (s.egressCtx h)).kind ≠ .stream → s.TakesNote (.egrVector f) 0x17 (h + 16) 0))

/-- R202, R204, R126, R156: an integer vector instruction gives each active lane its result, wrapped or saturated, and leaves or zeroes the other
lanes; it changes nothing else. R133, R206, R209: the immediate vector instructions give each active lane its result on the immediate cut to the
lane, and FMULI the product with the FP32 immediate rounded by the captured mode. -/
def Obligations.IntegerResults : Prop :=
  (∀ (s : State) (f : AV) (c : AV → Instr) (latency : Nat) (sources : List (BitVec 5)) (op : Nat → Nat → Nat → Nat),
     (c, latency, sources, op) ∈ integerLanes f → s.mayPerform f sources = true →
       let lane (v : BitVec 5) (j : Nat) : Nat := if v ∈ sources then laneOf (s.source f.rx v).data j (laneWidth f.ty) else 0
       s.WritesLanes (c f) f latency false s.elem.sigma fun j => op (lane f.va j) (lane f.vb j) (lane f.vc j))
  ∧ (∀ (s : State) (f : AI),
       let w := laneWidth f.ty
       let active := s.active f.kp w
       let lane (j : Nat) : Nat := laneOf (s.seenV f.va.toNat).data j w
       let code := (s.env.mode.extractLsb' 4 3).toNat
       let ready := s.focus.suppressed = false ∧ guardAny s.env w = true ∧ s.mayReadK f.kp.toNat = true
       (∀ (c : AI → Instr) (latency : Nat) (reads : Bool) (op : Nat → Nat), (c, latency, reads, op) ∈ immediateLanes f (capturedOvf s.env.mode) →
         ready → (reads = true → s.mayReadV f.va.toNat = true) →
           ∃ data mask, s.Queues (c f) latency false [.v f.vd.toNat data mask f.ty false] s.elem.sigma
             ∧ Lanes w 0 (512 / w) active (f.kz == 1) (fun j => op (if reads then lane j else 0)) data mask)
       ∧ (ready → s.mayReadV f.va.toNat = true →
           ∃ data mask, s.Queues (.fmuli f) 4 false [.v f.vd.toNat data mask f.ty false] (sigmaAfter code (activeBelow active 0 (512 / w)) s.elem.sigma)
             ∧ Lanes w 0 (512 / w) active (f.kz == 1) (fun j =>
                 convertTo f.ty (nthRounding code (capturedOvf s.env.mode) s.elem.sigma (activeBelow active 0 j))
                   ((readFormat f.ty (lane j)).mul ((floatFormat fp32).read (f.imm.toNat * 4)))) data mask))

/-- R210, R211: the float instructions that do not round give each active lane its result. R103, R210: FMIN and FMAX choose the smaller and the
larger of two lanes, −0 below +0, and give the canonical NaN where one is NaN. R119: the special inputs of FRCP, FRSQ, FEXP2, FLOG2 and FTANH have
the results of its table; FRCP and FRSQ of the others are the nearest values; FEXP2 of an integer and FLOG2 of a power of two are exact, FEXP2 from
128 on is +∞, and FTANH keeps the sign. Of the values of FEXP2, FLOG2 and FTANH between these nothing is claimed. -/
def Obligations.ExactFloatLanes : Prop :=
  (∀ (s : State) (f : AV) (c : AV → Instr) (latency : Nat) (sources : List (BitVec 5)) (op : Nat → Nat → Nat),
    (c, latency, sources, op) ∈ exactFloatLanes f → s.mayPerform f sources = true →
      let lane (v : BitVec 5) (j : Nat) : Nat := if v ∈ sources then laneOf (s.source f.rx v).data j (laneWidth f.ty) else 0
      s.WritesLanes (c f) f latency false s.elem.sigma fun j => op (lane f.va j) (lane f.vb j))
  ∧ (∀ (f : BitVec 4) (a b : Nat), isIntFormat f = false →
      let x := readFormat f
      let nan := (floatRow f).nan.getD 0
      (floatFormat f).canonicalNan = nan ∧ ∀ isMax : Bool,
        let y := floatMinMax (floatFormat f) isMax a b
        ((x a).isNan = true ∨ (x b).isNan = true → y = nan)
        ∧ ((x a).isNan = false → (x b).isNan = false → Clean f y ∧ ∃ c ∈ [a, b], x y = x c ∧
            ∀ d ∈ [a, b], if isMax then ¬(x c).Below (x d) else ¬(x d).Below (x c)))
  ∧ (∀ lane : Nat,
      let R := floatRow fp32
      let x := readFormat fp32 lane
      let y (k : Special) : Nat := specialLane k lane
      let v (k : Special) : FVal := readFormat fp32 (y k)
      let nan : Nat := 0x7FC00000
      let inf : Nat := 0x7F800000
      let one : Nat := 0x3F800000
      (x = .nan → ∀ k, y k = nan)
      ∧ (∀ neg, x = .inf neg → y .rcp = R.lane neg 0 ∧ y .rsq = (if neg then nan else 0) ∧ y .exp2 = (if neg then 0 else inf)
          ∧ y .log2 = (if neg then nan else inf) ∧ y .tanh = R.lane neg one)
      ∧ (∀ neg e, x = .num neg 0 e → y .rcp = R.lane neg inf ∧ y .rsq = R.lane neg inf ∧ y .exp2 = one ∧ y .log2 = R.lane true inf
          ∧ y .tanh = R.lane neg 0)
      ∧ ∀ neg m e, x = .num neg m e → m ≠ 0 →
          let a : ℚ := m * 2 ^ e
          NearestLane fp32 Rounding.rne neg (1 / a) (y .rcp)
          ∧ (neg = true → y .rsq = nan ∧ y .log2 = nan)
          ∧ (neg = false → ∃ (k : ℤ) (n : Nat), 2 ^ 46 * a * 4 ^ k ≤ 1 ∧ 1 < 2 ^ 48 * a * 4 ^ k
              ∧ (2 * n - 1) ^ 2 * a * 4 ^ k ≤ 4 ∧ 4 ≤ (2 * n + 1) ^ 2 * a * 4 ^ k ∧ (v .rsq).isFinite = true ∧ (v .rsq).number = n * 2 ^ k)
          ∧ (∀ z : ℤ, x.number = z → -149 ≤ z → z ≤ 127 → (v .exp2).isFinite = true ∧ (v .exp2).number = 2 ^ z)
          ∧ (128 ≤ x.number → y .exp2 = inf)
          ∧ (∀ z : ℤ, x.number = 2 ^ z → (v .log2).isFinite = true ∧ (v .log2).number = z ∧ (z = 0 → y .log2 = 0))
          ∧ (v .tanh).signBit = neg)

/-- R105, R107, R209: a rounding float instruction rounds the exact value of each active lane once into ty, by md; under SR the lanes take the
steps of σ in lane order, one for each active lane. R99, R101, R103, R105 to R109: a lane of a float format takes the value rounded to the format's
precision at the value's exponent, or in subnormal steps, by each mode; a value beyond the largest finite one is saturated or becomes ∞ or NaN as
OVF and the mode have it; ∞, NaN and the zeros have their own results. R106: products and sums are exact, and zeros have the sign it gives. That a
sum of several terms has the infinity and the NaN of the sums of its terms is the model's reading (log 68, DEDUCED). -/
def Obligations.RoundedFloatLanes : Prop :=
  (∀ (s : State) (f : AV) (c : AV → Instr) (sources : List (BitVec 5)) (exact : Nat → Nat → Nat → Nat → FVal),
    (c, sources, exact) ∈ roundedFloatLanes f → s.mayPerform f sources = true →
      let w := laneWidth f.ty
      let lane (v : BitVec 5) (j : Nat) : Nat := if v ∈ sources then laneOf (s.source f.rx v).data j w else 0
      let code := roundingCode s.env.mode f.md
      let rank := activeBelow (s.active f.kp w) 0
      s.WritesLanes (c f) f 4 false (sigmaAfter code (rank (512 / w)) s.elem.sigma) fun j =>
        convertTo f.ty (nthRounding code (capturedOvf s.env.mode) s.elem.sigma (rank j)) (exact code (lane f.va j) (lane f.vb j) (lane f.vc j)))
  ∧ (∀ (f : BitVec 4) (r : Rounding), isIntFormat f = false → r.mode ≤ 4 →
      let R := floatRow f
      convertTo f r .nan = R.nan.getD 0 ∧ (∀ neg, convertTo f r (.inf neg) = R.ofInf r neg) ∧ (∀ neg e, convertTo f r (.num neg 0 e) = R.lane neg 0)
      ∧ ∀ (neg : Bool) (m : Nat) (e : Int), m ≠ 0 → NearestLane f r neg (m * 2 ^ e) (convertTo f r (.num neg m e)) ∧ Clean f (convertTo f r (.num neg m e)))
  ∧ (∀ x y : FVal,
      (x.isFinite = true → y.isFinite = true →
        (x.mul y).isFinite = true ∧ (x.mul y).number = x.number * y.number ∧ (x.mul y).signBit = (x.signBit ^^ y.signBit))
      ∧ (x.isNan = true ∨ y.isNan = true → x.mul y = .nan)
      ∧ (∀ neg, x = .inf neg → y.isNan = false → ∀ z ∈ [x.mul y, y.mul x],
          z = if y.isFinite = true ∧ y.number = 0 then .nan else .inf (neg ^^ y.signBit)))
  ∧ (∀ (mode : Nat) (xs : List FVal), xs ≠ [] →
      let z := FVal.sum mode xs
      ((∀ x ∈ xs, x.isFinite = true) → z.isFinite = true ∧ z.number = (xs.map FVal.number).sum
        ∧ (z.number = 0 →
          ((∀ x ∈ xs, x.number = 0 ∧ x.signBit = true) → z.signBit = true)
          ∧ ((∀ x ∈ xs, x.number = 0 ∧ x.signBit = false) → z.signBit = false)
          ∧ ((∃ x ∈ xs, x.number ≠ 0 ∨ x.signBit = false) → (∃ x ∈ xs, x.number ≠ 0 ∨ x.signBit = true) → z.signBit = (mode == 3))))
      ∧ (.nan ∈ xs ∨ .inf true ∈ xs ∧ .inf false ∈ xs → z = .nan)
      ∧ (∀ neg, .nan ∉ xs → .inf neg ∈ xs → .inf (!neg) ∉ xs → z = .inf neg))

/-- R207, R208, R213: VCMP and FCMP write, for each byte of an active lane, the truth of its comparison, for 4-bit lanes that of both lanes of
the byte; VSEL takes each lane the guard enables from va where kp selects it and from vb where it does not. The comparisons of FCMP are those of
R213: −0 equals +0, and a NaN is unordered. A predicate written to k0 is discarded; other codes, a ty of the other kind, a destination beyond k7 and,
for VSEL, kz = 1 make the word illegal. -/
def Obligations.CompareAndSelect : Prop :=
  (∀ (s : State) (f : AV),
    let w := laneWidth f.ty
    let a (j : Nat) := laneOf (s.source f.rx f.va).data j w
    let b (j : Nat) := laneOf (s.source f.rx f.vb).data j w
    let ready := s.focus.suppressed = false ∧ guardAny s.env w = true ∧ s.maySource f.rx f.va = true ∧ s.maySource f.rx f.vb = true
      ∧ s.mayReadK f.kp.toNat = true
    let compares (i : Instr) (truth : Nat → Bool) : Prop :=
      ∃ data mask, s.Queues i 1 false [.k f.vd.toNat data mask] s.elem.sigma
        ∧ ∀ k < 64,
          let lane := k * 8 / w
          let on := s.active f.kp w lane
          mask.getLsbD k = (on || f.kz == 1)
          ∧ data.getLsbD k = (on && if w = 4 then truth lane && truth (lane + 1) else truth lane)
    (ready → f.md.toNat < 6 → compares (.vcmp f) fun j => (integerConditions f (a j) (b j))[f.md.toNat]!)
    ∧ (ready → compares (.fcmp f) fun j => floatCondition f.ty f.md.toNat (a j) (b j))
    ∧ (ready → s.mayName f.rx true = true →
        ∃ data mask, s.Queues (.vsel f) 1 false [.v (s.named f.rx true f.vd) data mask f.ty false] s.elem.sigma
          ∧ Lanes w 0 (512 / w) (fun j => laneBit s.env.lanes j w) false
              (fun j => if laneBit (s.seenK f.kp.toNat) j w then a j else b j) data mask))
  ∧ (∀ (f : BitVec 4) (a b : Nat), isIntFormat f = false →
      let x := readFormat f a
      let y := readFormat f b
      let un := x.isNan = true ∨ y.isNan = true
      ∀ c < 8, floatCondition f c a b = true ↔
        ([x.Same y, ¬x.Same y, x.Lt y, x.Lt y ∨ x.Same y, y.Lt x, y.Lt x ∨ x.Same y, un, ¬un] : List Prop).getD c False)
  ∧ (∀ (e : Element) (gen : Gen) (data mask : Word), e.land gen (.k 0 data mask) = e)
  ∧ (∀ f : AV,
      (6 ≤ f.md.toNat ∨ 8 ≤ f.vd.toNat ∨ isIntFormat f.ty = false → (Instr.vcmp f).wellFormed = false)
      ∧ (8 ≤ f.vd.toNat ∨ isIntFormat f.ty = true → (Instr.fcmp f).wellFormed = false)
      ∧ (f.kz = 1 → (Instr.vsel f).wellFormed = false))

/-- R126, R212, R214: FCVT converts the lanes of the part that pt names between any two formats, rounding each active one by md, and leaves the
other lanes of vd; with no lane of the part enabled by the guard it does nothing. FRNDI rounds each active lane to an integer of its format, ∞ and
the zeros to themselves and NaN to the canonical NaN; where that integer is beyond the format, to the one below it (log 9, DEDUCED). R101, R110: an
integer lane takes the value rounded by the mode and saturated, NaN as 0 and ∞ as the end of the range. -/
def Obligations.Conversions : Prop :=
  (∀ (s : State) (f : AV),
    let from_ := f.sub.extractLsb' 9 4
    let part := (f.sub.extractLsb' 6 3).toNat
    let ws := laneWidth from_
    let w := laneWidth f.ty
    let count := 512 / max ws w
    let first := if w ≤ ws then part * count else 0
    let source := if w ≤ ws then 0 else part * count
    let code := roundingCode s.env.mode f.md
    let active := s.active f.kp w
    let enabled := (List.range count).any fun k => laneBit s.env.lanes (first + k) w
    s.mayPerform f [f.va] = true →
      (enabled = false → exec (.fcvt f) s = .next (s.withElem s.elem))
      ∧ (enabled = true → ∃ data mask,
        s.Queues (.fcvt f) 2 false [.v (s.named f.rx true f.vd) data mask f.ty false] (sigmaAfter code (activeBelow active first (first + count)) s.elem.sigma)
        ∧ Lanes w first count active (f.kz == 1) (fun j =>
            convertTo f.ty (nthRounding code (capturedOvf s.env.mode) s.elem.sigma (activeBelow active first j))
              (readFormat from_ (laneOf (s.source f.rx f.va).data (source + (j - first)) ws))) data mask)
      ∧ s.WritesLanes (.frndi f) f 2 false (sigmaAfter code (activeBelow active 0 (512 / w)) s.elem.sigma) fun j =>
          roundIntegral f.ty (nthRounding code (capturedOvf s.env.mode) s.elem.sigma (activeBelow active 0 j))
            (laneOf (s.source f.rx f.va).data j w))
  ∧ (∀ (f : BitVec 4) (r : Rounding) (x : FVal), isIntFormat f = true → r.mode ≤ 4 →
      let range : Int × Int × Nat :=
        ([(-8, 7, 4), (0, 15, 4), (-128, 127, 8), (0, 255, 8), (-32768, 32767, 16)] : List (Int × Int × Nat)).getD (f.toNat - 10) (0, 65535, 16)
      ∃ z : Int, convertTo f r x = (z % 2 ^ range.2.2).toNat ∧ (x = .nan → z = 0)
        ∧ (∀ neg, x = .inf neg → z = if neg then range.1 else range.2.1)
        ∧ (∀ neg m e, x = .num neg m e → ∃ n : Nat, RoundsTo r neg (m * 2 ^ e) n ∧ z = max range.1 (min range.2.1 (if neg then -n else n))))
  ∧ (∀ (f : BitVec 4) (r : Rounding) (lane : Nat), isIntFormat f = false → r.mode ≤ 4 →
      let R := floatRow f
      let x := readFormat f lane
      let y := roundIntegral f r lane
      (x = .nan → y = R.nan.getD 0) ∧ (∀ neg, x = .inf neg → y = R.lane neg (R.infinity.getD 0))
      ∧ ∀ neg m e, x = .num neg m e → (readFormat f y).isFinite = true ∧ (readFormat f y).signBit = neg ∧ Clean f y
          ∧ ∃ n : Nat, RoundsTo r neg (m * 2 ^ e) n
            ∧ (readFormat f y).number = (if neg then -1 else 1) * ((if (n : ℚ) ≤ (readFormat f R.largest).number then n else n - 1 : Nat) : ℚ))

/-- R216: VRED writes what its included lanes combine to into lane 0 and zeros above it; VSCAN gives each lane what the included lanes up to it
combine to. -/
def Obligations.Reductions : Prop :=
  ∀ (s : State) (f : AV),
    let w := laneWidth f.ty
    let op := (f.sub.extractLsb' 10 3).toNat
    let code := if op = 0 ∧ isIntFormat f.ty = false then roundingCode s.env.mode f.md else 0
    let upTo (last : Nat) := includedUpTo (s.source f.rx f.va).data (s.seenK f.kp.toNat) w last
    let rounding := nthRounding code (capturedOvf s.env.mode) s.elem.sigma
    s.focus.suppressed = false → guardZero s.env = true → s.maySource f.rx f.va = true → s.mayReadK f.kp.toNat = true →
    s.mayName f.rx true = true → op < 6 →
      (∃ data y, s.Queues (.vred f) 4 false [.v (s.named f.rx true f.vd) data (-1) f.ty false] (sigmaAfter code 1 s.elem.sigma)
        ∧ Combines f op (rounding 0) (upTo (512 / w - 1)) y ∧ data = BitVec.ofNat 512 (y % 2 ^ w))
      ∧ (∃ data, s.Queues (.vscan f) 4 false [.v (s.named f.rx true f.vd) data (-1) f.ty false] (sigmaAfter code (512 / w) s.elem.sigma)
        ∧ ∀ j < 512 / w, ∃ y, Combines f op (rounding j) (upTo j) y ∧ laneOf data j w = y % 2 ^ w)

/-- R201, R217 to R219: a permutation moves lanes unconverted, marks its result as scaled when va is, and lands after its latency. That it moves the
bits of FP6 and E8M10 lanes which R100 has written as zero is the model's choice (log 87, DESIGN CHOICE). -/
def Obligations.Permutations : Prop :=
  ∀ (s : State) (f : AV) (c : AV → Instr) (latency : Nat) (sources : List (BitVec 5)) (op : Vec → Vec → Vec → Nat → Nat),
    (c, latency, sources, op) ∈ permutedLanes f → s.mayPerform f sources = true →
      let vec (v : BitVec 5) : Vec := if v ∈ sources then (s.source f.rx v).data else 0
      s.WritesLanes (c f) f latency (s.source f.rx f.va).scaled s.elem.sigma (op (vec f.va) (vec f.vb) (vec f.vc))

/-! ### Element instructions: matrices -/

/-- R225, R226, R228, R230, R231: MMA, MMAS, MDRN and MDRQ whose sources may be read and pass their tag checks start in the matrix unit at E, and
read their tiles at E + 3. -/
def Obligations.MatrixStarts : Prop :=
  ∀ (s : State) (f : AM),
    let src (v : BitVec 5) := s.source f.rx v
    let may (v : BitVec 5) (fmt : BitVec 4) (scaled : Bool) : Prop := s.maySource f.rx v = true ∧ (src v).fits fmt scaled = true
    let code := roundingCode s.env.mode f.rm
    let kindI := isIntFormat f.fa
    let scale := f.sub.getLsbD 4
    s.acts = true →
      (may f.va f.fa false → may f.vb f.fb false → (f.ov = 1 ∨ s.mayReadTile f.ad.toNat = true ∧ s.kindFits f.ad.toNat kindI = true) →
        s.StartsMatrix (.mma f) (if kindI then 0 else 64) code (src f.va).data (src f.vb).data 0)
      ∧ (may f.va f.fa true → may f.vb f.fb true → may f.vc 13 true →
          (f.ov = 1 ∨ s.mayReadTile f.ad.toNat = true ∧ s.kindFits f.ad.toNat false = true) →
        s.StartsMatrix (.mmas f) 64 code (src f.va).data (src f.vb).data (src f.vc).data)
      ∧ ((scale = true → may f.vb 9 false) →
        let vb := if scale then (src f.vb).data else 0
        (s.mayReadTile f.ad.toNat = true →
          s.StartsMatrix (.mdrn f) (if laneWidth f.fa = 32 then 16 else if laneWidth f.fa = 16 then 32 else 64) code 0 vb 0)
        ∧ ((∀ t < 4, s.mayReadTile (f.ad.toNat + t) = true) →
          s.StartsMatrix (.mdrq f) (if laneWidth f.fa = 8 then 128 else 256) code 0 vb 0))

/-- R112 to R115, R227, R228: MMA and MMAS write the whole tile. An integer element is the exact sum of its products and, unless ov is 1, of what
the tile held, wrapped or saturated to 32 bits; a float element is that exact sum rounded once to FP32, its products scaled by the two scale
bytes for MMAS, and NaN where one of these is 255. R117, R230: MDRN gives each value of the rows that its part names, times the tensor scale and
rounded to FP32, to its lane in the format fa, an integer tile without a scale directly to an integer format; no other lane is written. R118, R231:
MDRQ gives each row of the span a scale byte, from its greatest magnitude, and its 32 values over that scale to their lanes of the two vectors, which
are written whole; no other scale byte is written. That MDRQ rounds to FP32 first for every format is the model's reading (log 89, DEDUCED). -/
def Obligations.MatrixResults : Prop :=
  ∀ (op : MatrixOp) (e : Element) (f : AM), laneWidth f.fa = laneWidth f.fb →
    let tile (i : Nat) := tileRead e op.gen i
    let scale : FVal := if f.sub.getLsbD 4 then readFormat fp32 (laneOf op.vb (f.sub.extractLsb' 0 4).toNat 32) else .num false 1 0
    let held (kindI : Bool) (x : Nat) : FVal := if kindI then FVal.ofInt (sint x 32) else readFormat fp32 x
    let scaled (kindI : Bool) (x : Nat) : FVal := readFormat fp32 (convertTo fp32 Rounding.rne ((held kindI x).mul scale))
    let drained (x : Nat) : Rounding := nthRounding (roundingCode op.mode f.rm) (capturedOvf op.mode) op.sigma x
    let old (i j : Nat) := tileAt (tileRead e op.gen f.ad.toNat).1 i j
    let rounding (i j : Nat) := nthRounding (roundingCode op.mode f.rm) true op.sigma (8 * i + j)
    let float (i j : Nat) (terms : List FVal) : Nat :=
      convertTo fp32 (rounding i j) (FVal.sum (rounding i j).mode (if f.ov = 1 then terms else readFormat fp32 (old i j) :: terms))
    (op.instr = .mma f →
      ∃ data, op.writes e = [.a f.ad.toNat data (-1) (isIntFormat f.fa)] ∧ ∀ i < 8, ∀ j < 8,
        tileAt data i j =
          if isIntFormat f.fa then
            let x := (products f.fa f.fb op.va op.vb i j intValue (· * ·)).sum + if f.ov = 1 then 0 else sint (old i j) 32
            ((if f.rm = 1 then max (-2 ^ 31) (min (2 ^ 31 - 1) x) else x) % 2 ^ 32).toNat
          else float i j (products f.fa f.fb op.va op.vb i j readFormat FVal.mul))
    ∧ (op.instr = .mmas f →
      ∃ data, op.writes e = [.a f.ad.toNat data (-1) false] ∧ ∀ i < 8, ∀ j < 8,
        let ea := laneOf op.vc (8 * (f.sub.extractLsb' 0 3).toNat + i) 8
        let eb := laneOf op.vc (8 * (f.sub.extractLsb' 3 3).toNat + j) 8
        tileAt data i j =
          if ea = 255 ∨ eb = 255 then (floatFormat fp32).canonicalNan
          else float i j ((products f.fa f.fb op.va op.vb i j mxElement FVal.mul).map fun x => x.scale ((ea : Int) + eb - 254)))
    ∧ (op.instr = .mdrn f →
      let w := laneWidth f.fa
      let p := (f.sub.extractLsb' 5 2).toNat
      let rows := if w = 32 then 2 else if w = 16 then 4 else 8
      let first := if w < 16 then 0 else rows * p
      let place := if w = 4 then 64 * p else 0
      let t := tile f.ad.toNat
      (w = 16 ∨ w = 4 → p < 2) →
      ∃ data mask, op.writes e = [.v f.va.toNat data mask f.fa false]
        ∧ (∀ l < 512 / w, laneOf mask l w = if place ≤ l ∧ l < place + 8 * rows then 2 ^ w - 1 else 0)
        ∧ ∀ i < rows, ∀ j < 8,
          let x := tileAt t.1 (first + i) j
          laneOf data (place + 8 * i + j) w = convertTo f.fa (drained (8 * i + j))
            (if t.2 = true ∧ isIntFormat f.fa = true ∧ f.sub.getLsbD 4 = false then held true x else scaled t.2 x) % 2 ^ w)
    ∧ (op.instr = .mdrq f → f.fa.toNat ≤ 5 ∨ f.fa = 12 →
      let w := laneWidth f.fa
      let g := (f.sub.extractLsb' 6 3).toNat
      let rows := if w = 8 then 4 else 8
      let first := if w = 8 ∧ f.sub.getLsbD 5 = true then 4 else 0
      let emax : Int := ([2, 2, 4, 8, 15, 4] : List Int).getD f.fa.toNat 0
      ∃ lo hi scales mask,
        op.writes e = [.v f.va.toNat lo (-1) f.fa true, .v (f.va.toNat + 1) hi (-1) f.fa true, .v f.vc.toNat scales mask 13 true]
        ∧ (∀ l < 64, laneOf mask l 8 = if 8 * g + first ≤ l ∧ l < 8 * g + first + rows then 255 else 0)
        ∧ ∀ k < rows,
          let x (n : Nat) : FVal := let t := tile (f.ad.toNat + n / 8); scaled t.2 (tileAt t.1 (first + k) (n % 8))
          let S := laneOf scales (8 * g + first + k) 8
          let element (n : Nat) : Nat := laneOf (if k < rows / 2 then lo else hi) (32 * (k % (rows / 2)) + n) w
          let log (n : Nat) (l : Int) : Prop := ∃ s m q, x n = .num s m q ∧ m ≠ 0 ∧ l = q + Nat.log2 m
          ((∃ n < 32, (x n).isFinite = false) → S = 255 ∧ ∀ n < 32, element n = (floatRow f.fa).nan.getD 0 * (if isIntFormat f.fa then 0 else 1))
          ∧ ((∀ n < 32, (x n).isFinite = true) →
            ((∀ n < 32, ∀ l, ¬log n l) → S = 0)
            ∧ (∀ n < 32, ∀ l, log n l → (∀ n' < 32, ∀ l', log n' l' → l' ≤ l) → (S : Int) = max 0 (min 254 (l - emax + 127)))
            ∧ ∀ n < 32, element n = convertTo f.fa (nthRounding (roundingCode op.mode f.rm) false op.sigma (32 * k + n))
                ((x n).scale (127 - S + if isIntFormat f.fa then 6 else 0)) % 2 ^ w))

/-- R229: MZERO clears a tile and sets its kind, MLDR writes the two rows that sub names from the sixteen lanes of va, and MTRN transposes a
tile, a stale one as zeros in mode Z; each lands after 1 cycle. In mode T a stale tile is a stale-read at E. -/
def Obligations.TileMoves : Prop :=
  ∀ (s : State) (f : AM),
    let σ := s.elem.sigma
    let row := 2 * (f.sub.extractLsb' 0 2).toNat
    let kindI := f.sub.getLsbD 2
    let lane (i j : Nat) : Nat :=
      let x := laneOf (s.source f.rx f.va).data (8 * (i - row) + j) 32
      if kindI = false ∧ (readFormat fp32 x).isNan = true then (floatFormat fp32).canonicalNan else x
    let tile := s.elem.a.get AReg.zero f.va.toNat
    s.acts = true →
      s.Queues (.mzero f) 1 false [.a f.ad.toNat 0 (-1) (isIntFormat f.fa)] σ
      ∧ (s.maySource f.rx f.va = true →
        ∃ data mask, s.Queues (.mldr f) 1 false [.a f.ad.toNat data mask kindI] σ ∧ ∀ i < 8, ∀ j < 8,
          (i = row ∨ i = row + 1 → tileAt data i j = lane i j ∧ tileAt mask i j = 2 ^ 32 - 1)
          ∧ (i ≠ row → i ≠ row + 1 → tileAt mask i j = 0))
      ∧ (tile.gen = s.env.gen → tile.poison = false →
        ∃ data, s.Queues (.mtrn f) 1 false [.a f.ad.toNat data (-1) tile.kindI] σ ∧ ∀ i < 8, ∀ j < 8, tileAt data i j = tileAt tile.data j i)
      ∧ (tile.gen ≠ s.env.gen → s.env.trap = false →
        s.Queues (.mtrn f) 1 false [.a f.ad.toNat 0 (-1) (isIntFormat (capturedDfmt s.env.mode))] σ)
      ∧ (tile.gen ≠ s.env.gen → s.env.trap = true →
        let g := s.sig s.focus.sig
        g.byFault = false → g.frozen = false → g.stop = none → ∃ t st n, exec (.mtrn f) s = .next t ∧ t.focus.suppressed = true
          ∧ (t.sig s.focus.sig).stop = some st ∧ st.notes = [n] ∧ n.code = 0x10 ∧ n.row = s.focus.row ∧ n.col = s.focus.col ∧ t.memory = s.memory)

/-! ### Element instructions: scalars and predicates -/

/-- R220, R221: the scalar instructions write their results to S[sd], and ELID a coordinate of the element. R222, R223: the predicate
instructions write all 64 bits of K[kd], KPOPC counts the ones of K[ka] into S[sa], and VOTE gives K[ka] to the reduction of its word. -/
def Obligations.ScalarAndPredicateResults : Prop :=
  (∀ (s : State) (f : AS),
     let σ := s.elem.sigma
     let e := s.env
     s.acts = true →
       (∀ (c : AS → Instr) (latency : Nat) (readsA readsB : Bool) (x : SWord),
         (c, latency, readsA, readsB, x) ∈ scalarResults f (s.seenS f.sa.toNat) (s.seenS f.sb.toNat) →
         (readsA = true → s.mayReadS f.sa.toNat = true) → (readsB = true → s.mayReadS f.sb.toNat = true) →
           s.Queues (c f) latency false [.s f.sd.toNat x] σ)
       ∧ (f.sub.toNat < 6 →
         s.Queues (.elid f) 1 false [.s f.sd.toNat (.ofNat 32
           [e.row, e.col, e.row * e.width + e.col, e.role.toNat, e.row % 16, e.col % 16][f.sub.toNat]!)] σ))
  ∧ (∀ (s : State) (f : AK),
       let σ := s.elem.sigma
       let a := s.seenK f.ka.toNat
       let b := s.seenK f.kb.toNat
       let writes (i : Instr) (bit : Nat → Bool) : Prop := ∃ x, s.Queues i 1 false [.k f.kd.toNat x (-1)] σ ∧ ∀ j < 64, x.getLsbD j = bit j
       let sub := (f.sub.extractLsb' 0 2).toNat
       s.acts = true →
         (s.mayReadK f.ka.toNat = true →
           (s.mayReadK f.kb.toNat = true →
             writes (.kand f) (fun j => a.getLsbD j && b.getLsbD j) ∧ writes (.kor f) (fun j => a.getLsbD j || b.getLsbD j)
             ∧ writes (.kxor f) fun j => a.getLsbD j ^^ b.getLsbD j)
           ∧ writes (.knot f) (fun j => !a.getLsbD j)
           ∧ (sub = 0 → writes (.kmov f) a.getLsbD)
           ∧ s.Queues (.kpopc f) 1 false [.s f.sa.toNat (.ofNat 32 (Finset.univ.filter fun i : Fin 64 => a.getLsbD i).card)] σ
           ∧ (∃ tally, exec (.vote f) s = .next
               { s.withElem { s.elem with tally } with focus := { s.focus with vote := some a } }))
         ∧ (sub = 1 → s.mayReadV f.va.toNat = true → writes (.kmov f) fun j => decide (laneOf (s.seenV f.va.toNat).data j 8 ≠ 0))
         ∧ (sub = 2 → s.mayReadS f.sa.toNat = true → writes (.kmov f) (s.seenS f.sa.toNat).getLsbD)
         ∧ (sub = 3 → s.mayReadS f.sa.toNat = true → writes (.kmov f) fun j => decide (j < (s.seenS f.sa.toNat).toNat)))

/-! ### Element instructions: the scratchpad and buffers -/

/-- R234, R235, R237: LD and LDX load the active lanes of a vector from the scratchpad and ST and STX store them, LD and ST at a multiple of 64;
LDB and STB do so in a granule of a buffer that is FULL, and EMPTY, and is not void. Every byte that is not stored to is as before. R97, R234,
R236, R238: LDS loads 1, 2 or 4 bytes to S[vr], extended by zeros or by their sign; STS stores as many; SATOM stores what its atomic operation
gives, and its old value lands in S[vr] after 2 cycles, its upper half in the next register. That a load does not look at a granule of which it takes no
byte is the model's reading (log 20, DEDUCED). -/
def Obligations.PadAccess : Prop :=
  (∀ (s : State) (f : BL),
     let a := s.padAt f
     let fmt := capturedDfmt s.env.mode
     let d := s.buffer f.bf
     let g := 64 * (d.base + a)
     let inside := a + 64 ≤ 0x18000
     let stores := s.mayAccess f = true ∧ s.maySource f.rx f.vr = true
     (inside → s.mayLoad f a → s.LoadsLanes (.ldx f) f a fmt false)
     ∧ (inside → a % 64 = 0 → s.mayLoad f a → s.LoadsLanes (.ld f) f a fmt false)
     ∧ (inside → stores → s.StoresLanes (.stx f) f a)
     ∧ (inside → a % 64 = 0 → stores → s.StoresLanes (.st f) f a)
     ∧ (s.mayUse f.bf = true → a < d.cnt → d.void = false → d.st = 2 → s.mayLoad f g → s.LoadsLanes (.ldb f) f g d.fmt d.scaled)
     ∧ (s.mayUse f.bf = true → a < d.cnt → d.void = false → d.st = 0 → stores → s.StoresLanes (.stb f) f g))
  ∧ (∀ (s : State) (f : BL),
       let a := s.padAt f
       let size := 2 ^ f.sz.toNat
       let v := f.vr.toNat
       let x := s.padNat a size
       let wide := decide (f.sz = 3)
       let aop := (f.sub.extractLsb' 2 4).toNat
       let reg (i : Nat) : Nat := (s.seenS i).toNat
       let pair (i : Nat) : Nat := reg i + if wide then reg (i + 1) * 2 ^ 32 else 0
       let cmp := if aop = 9 then pair (if wide then v + 2 else v + 1) else 0
       s.acts = true → s.mayPadAt f = true → a % size = 0 → a + size ≤ 0x18000 →
         (f.sz.toNat ≤ 2 → s.mayReadPad (a / 64) = true →
           s.Queues (.lds f) 2 true [.s v (if f.mode.getLsbD 0 then .ofInt 32 (sint x (8 * size)) else .ofNat 32 x)] s.elem.sigma)
         ∧ (f.sz.toNat ≤ 2 → s.mayReadS v = true → s.Stores (.sts f) 0 [] (s.over a size (reg v % 2 ^ (8 * size))))
         ∧ (f.sz = 2 ∨ f.sz = 3 → aop < 12 → s.mayReadPad (a / 64) = true → s.mayReadS v = true → (wide = true → s.mayReadS (v + 1) = true) →
             (aop = 9 → s.mayReadS (if wide then v + 2 else v + 1) = true ∧ (wide = true → s.mayReadS (v + 3) = true)) →
           s.Stores (.satom f) 2 ([.s v (.ofNat 32 x)] ++ if wide then [.s (v + 1) (.ofNat 32 (x / 2 ^ 32))] else [])
             (s.over a size (atomicResults (8 * size) x (pair v) cmp)[aop]!)))

/-- R59, R60, R239: BDECL declares a buffer that is EMPTY or FULL, BSTATE fills an EMPTY one and empties a FULL one and else leaves it, and BQRY
puts its descriptor, zero for a stale one, into two scalars. R352, R356, R369: a buffer that is FILLING or DRAINING is a fault of BDECL and BSTATE, a
void one of BSTATE full, and a poisoned descriptor one of BQRY; that such a word counts as executed, as event 1 of R243, is the model's reading (log 22,
DEDUCED). MaskedAndFaultingSlots says the same of the loads. -/
def Obligations.Buffers : Prop :=
  ∀ (s : State) (f : BD),
    let d := s.buffer f.b
    s.acts = true →
      (d.st = 0 ∨ d.st = 2 →
        s.Describes (.bdecl f) f.b ⟨(f.n.extractLsb' 0 11).toNat, (f.sub.extractLsb' 0 11).toNat, 0, 0, false, 0, false⟩)
      ∧ (s.mayUse f.b = true →
        (d.void = false → d.st = 0 → s.Describes (.bstateFull f) f.b { d with st := 2, fcnt := d.cnt, fmt := capturedDfmt s.env.mode, scaled := false })
        ∧ (d.void = false → d.st = 2 → exec (.bstateFull f) s = .next (s.withElem s.elem))
        ∧ (d.st = 2 → s.Describes (.bstateEmpty f) f.b { d with st := 0, fcnt := 0, void := false })
        ∧ (d.st = 0 → exec (.bstateEmpty f) s = .next (s.withElem s.elem))
        ∧ (d.void = true → s.TakesNote (.bstateFull f) 0x13 d.toWord.toNat 0)
        ∧ (d.st = 1 ∨ d.st = 3 → s.TakesNote (.bstateEmpty f) 0x12 d.toWord.toNat 0
          ∧ (d.void = false → s.TakesNote (.bstateFull f) 0x12 d.toWord.toNat 0)))
      ∧ (d.st = 1 ∨ d.st = 3 → s.TakesNote (.bdecl f) 0x12 d.toWord.toNat 0)
      ∧ (let r := s.elem.b.get (Tagged.zero 64) f.b.toNat
        let x : Word := if r.gen = s.env.gen then r.data else 0
        (r.gen = s.env.gen → r.poison = true → s.TakesNote (.bqry f) 0x18 1 0)
        ∧ ((r.gen = s.env.gen → r.poison = false) → s.Queues (.bqry f) 1 true [.s f.sb.toNat (.ofNat 32 x.toNat), .s (f.sb.toNat + 1) (.ofNat 32 (x.toNat / 2 ^ 32))] s.elem.sigma))

/-- R240, R241, R243: VMOV, SMOV and VFROMS move values between register files, RINGSET writes a ring descriptor, and the CNT instructions
select, read and clear the element's event counters and read the hold counter. R20, R232, R233, R242: RT sends up to four values on their way;
EGR hands a vector, or the granules of a FULL buffer, which becomes DRAINING, to the stream on its handle, whose count for this element rises. That
VFROMS writes the low bits of its scalar in lanes of FP6 and E8M10 too, as they are, is the model's choice (log 87, DESIGN CHOICE). -/
def Obligations.MovesRoutesAndEgress : Prop :=
  (∀ (s : State) (f : BD),
     let σ := s.elem.sigma
     let from_ := (f.n.extractLsb' 0 5).toNat
     let v := s.seenV from_
     let j := (f.n.extractLsb' 0 4).toNat
     let sub := (f.sub.extractLsb' 0 2).toNat
     let ty := f.sub.extractLsb' 0 4
     let w := laneWidth ty
     let counter := (f.b.extractLsb' 0 2).toNat
     let c := s.elem.counters.get Counter.zero counter
     let reads (i : Instr) (x : SWord) : Prop := s.Queues i 1 true [.s f.sb.toNat x] σ
     let sets (i : Instr) (c : Counter) : Prop :=
       exec i s = .next (s.withElem { s.elem with counters := s.elem.counters.set Counter.zero counter c })
     s.acts = true →
       (s.mayReadV from_ = true →
         s.Queues (.vmov f) 1 true [.v f.vr.toNat v.data (-1) (if v.blank then capturedDfmt s.env.mode else v.fmt) (!v.blank && v.scaled)] σ)
       ∧ (sub = 0 → s.mayReadV f.vr.toNat = true → reads (.smov f) (.ofNat 32 (laneOf (s.seenV f.vr.toNat).data j 32)))
       ∧ (sub = 1 → reads (.smov f) (.ofNat 32 s.env.bcast.toNat))
       ∧ (sub = 2 → reads (.smov f) (.ofNat 32 (s.env.bcast.toNat / 2 ^ 32)))
       ∧ (sub = 3 → s.mayReadS j = true → reads (.smov f) (s.seenS j))
       ∧ (s.mayReadS f.sb.toNat = true →
         ∃ data mask, s.Queues (.vfroms f) 1 true [.v f.vr.toNat data mask ty false] σ
           ∧ Lanes w 0 (512 / w) (fun i => f.sub.getLsbD 4 = false ∨ i = (f.n.extractLsb' 0 7).toNat) false
               (fun _ => (s.seenS f.sb.toNat).toNat) data mask)
       ∧ s.Queues (.ringset f) 1 true [.ring f.st.toNat (.ofNat 16 (f.n.toNat % 2 ^ 10))] σ
       ∧ sets (.cntSel f) ⟨0, f.n.extractLsb' 0 4⟩ ∧ sets (.cntClr f) ⟨0, c.event⟩
       ∧ reads (.cntRdlo f) (.ofNat 32 c.value.toNat) ∧ reads (.cntRdhi f) (.ofNat 32 (c.value.toNat / 2 ^ 32))
       ∧ reads (.cntHlo f) (.ofNat 32 s.env.holdCount.toNat) ∧ reads (.cntHhi f) (.ofNat 32 (s.env.holdCount.toNat / 2 ^ 32)))
  ∧ (∀ s : State, s.acts = true →
       let e := s.env
       let key := s.egressCtx
       (∀ f : BT,
         let uses (code : Nat) := ∃ o ∈ [f.e, f.s, f.w, f.n], (o.extractLsb' 4 4).toNat = code
         let bcast (i : Nat) : Nat := if i % 2 = 0 then e.bcast.toNat % 2 ^ 32 else e.bcast.toNat / 2 ^ 32
         let carried (v : VSource) : PortValue := ⟨v.data, v.fmt, v.scaled, v.blank⟩
         (uses 5 → s.mayReadV f.lv.toNat = true) → (uses 6 → s.mayReadV f.lw.toNat = true) →
           ∃ tally value, exec (.rt f) s = .next (s.withElem { s.elem with
               tally, delay := s.elem.delay ++ s.routes value .east f.e ++ s.routes value .south f.s ++ s.routes value .west f.w ++ s.routes value .north f.n })
             ∧ (∀ c < 4, value (c + 1) = carried (s.seenV (28 + c)))
             ∧ (uses 5 → value 5 = carried (s.seenV f.lv.toNat)) ∧ (uses 6 → value 6 = carried (s.seenV f.lw.toNat))
             ∧ ∀ c > 6, (value c).fmt = capturedDfmt e.mode ∧ (value c).blank = false ∧ ∀ i < 16, laneOf (value c).data i 32 = bcast i)
       ∧ (∀ (f : BD) (p : Nat),
         let h := (f.n.extractLsb' 0 4).toNat
         let c := s.ctx s.focus.sig (key h)
         let b := Block.ofVec c.block
         let d := s.buffer f.b
         let takes (n : Nat) : Ctx := { c with handed := c.handed.set 0 p (c.handed.get 0 p + n) }
         let room (n : Nat) : Prop := c.handed.get 0 p + n ≤ dealt (b.runs * b.granules) b.places p
         c.kind = .stream → b.loads = false → b.placeOf (s.focus.row % 16) (s.focus.col % 16) = some p → s.elem.egress.length < 16 →
           (room 1 → s.mayReadV f.vr.toNat = true →
             ∃ tally, exec (.egrVector f) s = .next ((s.withElem { s.elem with
               tally, egress := s.elem.egress ++ [⟨h, .vector (s.seenV f.vr.toNat).data⟩] }).setCtx s.focus.sig (key h) (takes 1)))
           ∧ (room d.cnt → s.mayUse f.b = true → d.void = false → d.st = 2 →
             exec (.egrBuffer f) s = .next ((s.withElem { s.elem with
               b := s.elem.b.set (Tagged.zero 64) f.b.toNat ⟨({ d with st := 3 } : BufferDesc).toWord, e.gen, false⟩
               egress := s.elem.egress ++ [⟨h, .buffer ⟨f.b.toNat, d.base, d.cnt, e.gen, 0⟩⟩] }).setCtx s.focus.sig (key h) (takes d.cnt)))))

/-- R63, R201: a result that lands writes the bits under its mask and keeps the others of a current item; a stale item is claimed with zeros; the
item carries its word's generation, and every other register is left. A write to k0 has no effect. -/
def Obligations.WritesClaimTheirItem : Prop :=
  ∀ (e : Element) (gen : Gen) (i : Nat),
    let bits {n : Nat} (current : Bool) (old data mask new : BitVec n) : Prop :=
      ∀ j < n, new.getLsbD j = if mask.getLsbD j then data.getLsbD j else current && old.getLsbD j
    (∀ data mask fmt scaled,
      let t := e.land gen (.v i data mask fmt scaled)
      let r := e.v.get VReg.zero i
      let q := t.v.get VReg.zero i
      t = { e with v := t.v } ∧ bits (r.gen == gen) r.data data mask q.data ∧ q.gen = gen ∧ q.fmt = fmt ∧ q.scaled = scaled
        ∧ ∀ k, k ≠ i → t.v.get VReg.zero k = e.v.get VReg.zero k)
    ∧ (∀ data mask kindI,
      let t := e.land gen (.a i data mask kindI)
      let r := e.a.get AReg.zero i
      let q := t.a.get AReg.zero i
      t = { e with a := t.a } ∧ bits (r.gen == gen) r.data data mask q.data ∧ q.gen = gen ∧ q.kindI = kindI
        ∧ ∀ k, k ≠ i → t.a.get AReg.zero k = e.a.get AReg.zero k)
    ∧ (∀ data,
      let t := e.land gen (.s i data)
      t = { e with s := t.s } ∧ t.s.get (Tagged.zero 32) i = ⟨data, gen, false⟩
        ∧ ∀ k, k ≠ i → t.s.get (Tagged.zero 32) k = e.s.get (Tagged.zero 32) k)
    ∧ (∀ data mask,
      let t := e.land gen (.k i data mask)
      let r := e.k.get (Tagged.zero 64) i
      let q := t.k.get (Tagged.zero 64) i
      (i = 0 → t = e)
      ∧ (i ≠ 0 → t = { e with k := t.k } ∧ bits (r.gen == gen) r.data data mask q.data ∧ q.gen = gen
        ∧ ∀ k, k ≠ i → t.k.get (Tagged.zero 64) k = e.k.get (Tagged.zero 64) k))

/-- R126, R352: an instruction of the fabric maps that takes no fault leaves every byte of memory, every spine, every other element and every
interface as they were. -/
def Obligations.ElementInstructionsTouchOneElement : Prop :=
  ∀ (i : Instr) (m : SlotMap) (b : SlotBits) (s t : State),
    encode i = some (m, b) → m ≠ .spine → exec i s = .next t → t.focus.suppressed = false →
      (∀ a, t.memory.read a = s.memory.read a) ∧ t.folios = s.folios ∧ t.ifaces = s.ifaces ∧ t.requests = s.requests ∧ t.journal = s.journal
      ∧ ∀ k, k ≠ (16 * (s.sig s.focus.sig).row0 + s.focus.row) * 384 + (16 * (s.sig s.focus.sig).col0 + s.focus.col) →
          t.elements.get Element.zero k = s.elements.get Element.zero k

/-! ### Events of a running signature -/

/-- R18, R20, R22, R24, R26, R86, R127, R141, R158, R180, R201, R223, R225, R233: a fetched block is opened and kept; results due land, and the
tile reads due become results of the next cycle; the result of a VOTE is written to vt by its mode; a routed value that is due enters the
neighbour's port view; hold is asserted while some open word waits, and freezes and frees the signature 12 cycles later; a waiting slot is
performed again; a waiting WAITC rereads its location. -/
def Obligations.FabricEvents : Prop :=
  ∀ (s : State) (sig : Nat),
    let g := s.sig sig
    let p := s.spineOf sig
    (∀ block pa k, g.status = .running →
      s.translatePages (some (dieOf g.row0 g.col0)) g.vif (BitVec.ofNat 64 (64 * block)) [.x] = .ok pa →
      s.worldMaterial g.vif = .ok k → s.poisonedUnits.contains (pa / 64) = false →
        ∃ t, exec (.fetchBlockArrives sig block) s = .next t ∧ (block, s.getUnit k pa block) ∈ (t.spineOf sig).fetched
          ∧ block ∉ (t.spineOf sig).wanted ∧ t.memory = s.memory)
    ∧ (s.runs sig = true → ∀ row col,
        let e := s.elementOf sig row col
        let u := e.landDue g.time
        let q := u.readTiles g.time
        exec (.resultLands sig row col) s = .next (s.setElementOf sig row col q)
          ∧ (∀ x, e.pending = [x] → x.due ≤ g.time → u = { e.land x.gen x.write with pending := [] })
          ∧ (∀ x ∈ e.pending, g.time < x.due → x ∈ q.pending) ∧ (∀ m, m ∈ q.matrix ↔ m ∈ e.matrix ∧ g.time < m.readAt)
          ∧ (∀ m ∈ e.matrix, m.readAt ≤ g.time → ∀ w ∈ m.writes u, ⟨m.readAt + 1, m.word, false, m.gen, w⟩ ∈ q.pending) ∧ q.pad = e.pad)
    ∧ (∀ v rest, s.runs sig = true → g.votes = v :: rest → v.due ≤ g.time → (∀ x ∈ rest, g.time < x.due) →
        ∃ t, exec (.voteResultDelivered sig) s = .next t ∧ (t.sig sig).votes = rest ∧ (t.spineOf sig).g = p.g ∧ t.memory = s.memory
          ∧ (t.spineOf sig).vt = (if v.mode = 0 then (if v.ones = 0 then 0 else 1) else if v.mode = 1 then (if v.ones = v.takers then 1 else 0)
              else if v.mode = 2 then BitVec.ofNat 64 v.ones else v.orValue))
    ∧ (∀ row col x, s.runs sig = true → (s.elementOf sig row col).delay = [x] → x.leaves ≤ g.time →
        let there := x.out.to row col
        ∃ t, exec (.routeValueLands sig row col) s = .next t ∧ (t.elementOf sig row col).delay = []
          ∧ (t.elementOf sig there.1 there.2.1).ports = (s.elementOf sig there.1 there.2.1).ports ++ [⟨there.2.2, x.word, x.sent, x.value⟩]
          ∧ t.memory = s.memory)
    ∧ (g.status ≠ .starting → ∃ passed asserted, exec (.waitConditionCheck sig) s = .next (s.setSig sig { g with passed, asserted })
        ∧ asserted.tail = g.asserted.take 11
        ∧ (asserted.head? = some true ↔
            ∃ x ∈ s.checkedWords sig (!s.runs sig), (x.1.n, x.2.1, x.2.2) ∉ g.passed ∧ s.waits sig x.1 x.2.1 x.2.2 = true))
    ∧ (g.asserted[11]? = some true → exec (.holdFreeze sig) s = .next (s.setSig sig { g with held := true }))
    ∧ (g.asserted[11]? ≠ some true → exec (.holdRelease sig) s = .next (s.setSig sig { g with held := false }))
    ∧ (s.runs sig = true → p.phase = .slotA ∨ p.phase = .slotB → p.resumeAt ≤ s.cycle →
        exec (.spineWaitSatisfied sig) s = .next
          { s with focus := { Focus.idle with sig, spine := true }, agenda := [.spineSlot false, .spineSlot true] ++ s.agenda })
    ∧ (∀ ea pa, s.runs sig = true → p.poll = some ea → p.waiting = true → p.answer = none → s.reading sig = false → s.focus.sig = sig →
        s.Reaches ea .read pa →
        ∃ t, exec (.waitcPoll sig) s = .next t ∧ (t.spineOf sig).readAhead = [] ∧ t.memory = s.memory
          ∧ ∃ r ∈ t.requests, r.source = .spine sig ∧ r.va = ea ∧ r.op = .read ∧ (r.stage = .translate ∨ r.stage = .travel ∧ r.pa = pa))

/-! ### Memory -/

/-- R73, R83, R86, R89, R90, R95, R97, R181, R182: a walk fills the TLB, and a request whose checks pass goes on to its key or its home; an
unwrapped key enters its cache; at its home a read takes the stored bytes, a write merges its bytes under its key, and an atomic, an ADD and an
arrival change their word alone, indivisibly, and one of a stream that is not aligned the aligned word that holds its address (log 45, DESIGN
CHOICE); a reply is opened and reaches the one that waits for it; read-ahead entries expire after 4,096 cycles. -/
def Obligations.RequestsAndHomes : Prop :=
  ∀ (s : State) (r : Request) (k : Material),
    let u := r.pa / 64
    let unitVa := r.sealVa.toNat / 64
    let off := r.va.toNat % 64
    let old := openWith k unitVa (s.memory.unit u)
    let home := exec (.homeApplyRequest r.id) s
    let reply := exec (.requestReply r.id) s
    let stores (t : State) (x : Vec) : Prop :=
      t.memory.unit u = sealWith k unitVa x ∧ ∀ a, a / 64 ≠ u → t.memory.read a = s.memory.read a
    let word (x : Vec) (at_ n : Nat) : Nat := x.toNat / 2 ^ (8 * at_) % 2 ^ n
    let only (x : Vec) (at_ n y : Nat) : Prop :=
      word x at_ n = y ∧ ∀ i < 512, i < 8 * at_ ∨ 8 * at_ + n ≤ i → x.getLsbD i = old.getLsbD i
    s.request r.id = some r → s.material r.vif r.key = some k →
      (∀ l pa, r.stage = .translate → r.va.extractLsb' 56 8 = 0 → s.tlbHit r.die r.vif r.va.toNat = none →
        s.walk r.vif r.va.toNat = .ok l → s.checkLeaf l r.va.toNat [r.op.need] = .ok pa → belowDomain k unitVa = false →
        ∃ t q, exec (.tlbWalkComplete r.id) s = .next t ∧ t.tlbHit r.die r.vif r.va.toNat = some l ∧ t.request r.id = some q ∧ q.pa = pa
          ∧ (q.stage = .key ∨ q.stage = .travel) ∧ t.memory = s.memory)
      ∧ (∀ n gen epoch, r.stage = .key → r.key = .slot n gen epoch → epoch ∉ (s.keySlot n).broken →
        ∃ t, exec (.keyCacheUnwrap r.id) s = .next t ∧ ⟨r.cacheUnit (s.portOf r.source), n, gen, epoch⟩ ∈ t.keyCache
          ∧ t.request r.id = some { r with stage := .travel } ∧ t.memory = s.memory)
      ∧ (r.stage = .travel → s.forkHeld r = false → (∀ a ∈ s.requests, a.blocks r = false) → u ∉ s.poisonedUnits → s.memory.wf = true →
        (r.op = .read → ∃ t, home = .next t ∧ t.request r.id = some { r with data := s.memory.unit u, bad := false, stage := .reply }
            ∧ t.memory = s.memory)
        ∧ (∀ x, r.op = .sealed x → ∃ t, home = .next t ∧ t.memory.unit u = x ∧ t.request r.id = none)
        ∧ (∀ x mask, r.op = .write x mask → ∃ t, home = .next t ∧ stores t ((old &&& ~~~mask) ||| (x &&& mask)) ∧ t.request r.id = none)
        ∧ (∀ aop wide x cmp, r.op = .atomic aop wide x cmp → aop < 12 → wide = false ∨ aop < 10 →
            let n := if wide then 64 else 32
            let a := off / (n / 8) * (n / 8)
            ∃ t y, home = .next t ∧ stores t y ∧ only y a n ((atomicResults n (word old a n) (x.toNat % 2 ^ n) (cmp.toNat % 2 ^ n))[aop]!)
              ∧ ∀ sig, r.source = .spine sig →
                  t.request r.id = some { r with data := BitVec.ofNat 512 (word old a n), stage := .reply })
        ∧ (∀ x, r.op = .add x → off % 8 = 0 →
            ∃ t y, home = .next t ∧ stores t y ∧ only y off 64 ((word old off 64 + x.toNat) % 2 ^ 64) ∧ t.request r.id = none)
        ∧ (∀ n, r.op = .arrive n → off % 8 = 0 →
            let arrived := word old off 32
            let phase := word old (off + 4) 32
            ∃ t y, home = .next t ∧ stores t y
              ∧ only y off 64 (if n.toNat ≤ arrived + 1 then (phase + 1) % 2 ^ 32 * 2 ^ 32 else phase * 2 ^ 32 + (arrived + 1) % 2 ^ 32)
              ∧ t.request r.id = some { r with data := BitVec.ofNat 512 (word old off 64), stage := .reply }))
      ∧ (r.stage = .reply →
        let data := openWith k unitVa r.data
        (r.op = .read → r.bad = false →
          (∀ sig, r.source = .spine sig → ∃ t, reply = .next t ∧ (t.spineOf sig).answer = some (.data data s.cycle) ∧ t.request r.id = none
            ∧ t.memory = s.memory)
          ∧ (∀ sig, r.source = .readAhead sig → (∀ e ∈ (s.spineOf sig).readAhead, e.unit ≠ r.va.toNat / 64) →
            ∃ t, reply = .next t ∧ ⟨r.va.toNat / 64, data, s.cycle, r.id⟩ ∈ (t.spineOf sig).readAhead ∧ t.memory = s.memory)
          ∧ (∀ sig key tag, r.source = .stream sig key tag →
            ∃ t, reply = .next t ∧ Tab.look (t.ctx sig key).units tag = some data ∧ t.memory = s.memory)
          ∧ (∀ sig key j, r.source = .index sig key j →
            ∃ t, reply = .next t ∧ Tab.look (t.ctx sig key).index j = some (word data off 32) ∧ t.memory = s.memory))
        ∧ (∀ sig, r.op ≠ .read → r.source = .spine sig →
          ∃ t, reply = .next t ∧ (t.spineOf sig).answer = some (.value (r.data.setWidth 64)) ∧ t.request r.id = none ∧ t.memory = s.memory))

/-- R73, R86: each kind of TLB invalidation removes the entries it names and no other, and is in progress until the requests they translated have
completed; read-ahead entries are dropped 4,096 cycles after their fetch. That requests of linear streams are waited for too is the model's reading
(log 47, DEDUCED). -/
def Obligations.InvalidationAndExpiry : Prop :=
  ∀ s : State,
    let removes (i : Instr) (names : TlbEntry → Prop) : Prop :=
      ∃ t, exec i s = .next t ∧ (∀ e, e ∈ t.tlb ↔ e ∈ s.tlb ∧ ¬names e) ∧ t.memory = s.memory
        ∧ ∃ ids, t.tlbinv = some ids ∧ ∀ r ∈ s.requests, ∀ e ∈ s.tlb, names e → r.usesEntry e = true → r.id ∈ ids
    removes .tlbinvAll (fun _ => True)
    ∧ (∀ vif, removes (.tlbinvInterface vif) fun e => e.vif = vif)
    ∧ (∀ vif addr, removes (.tlbinvPage vif addr) fun e => e.vif = vif ∧ addr % 2 ^ 56 / 2 ^ (16 + e.span) = e.page / 2 ^ e.span)
    ∧ (∀ addr, removes (.tlbinvPageAll addr) fun e => addr % 2 ^ 56 / 2 ^ (16 + e.span) = e.page / 2 ^ e.span)
    ∧ (∀ ids, s.tlbinv = some ids → (∀ i ∈ ids, s.request i = none) → exec .tlbinvComplete s = .next { s with tlbinv := none })
    ∧ (∀ sig, ∃ t, exec (.readAheadExpiry sig) s = .next t ∧ t.memory = s.memory
        ∧ ∀ e, e ∈ (t.spineOf sig).readAhead ↔ e ∈ (s.spineOf sig).readAhead ∧ s.cycle < e.fetched + 4096)

/-- R60, R63, R77, R81 to R84, R87, R242, R352, R371, R373: a port issues the next request of a stream; half of a granule lands in a buffer that
takes it, whose descriptor counts it once both halves have landed; a discard that waits voids its buffer once that is EMPTY; a granule that egress
takes leaves its queue, the last of those that a buffer had as it was queued leaves it EMPTY, unless its generation has passed; a stale granule
stops the signature in mode T and is taken as zero once the stop is over, also where the signature is not frozen (log 14, DEDUCED); and a stream
that is done adds to its CDONE, after the stores before its fork, and frees its handle. -/
def Obligations.Streams : Prop :=
  ∀ (s : State) (sig ctx : Nat),
    let g := s.sig sig
    let c := s.ctx sig ctx
    let b := Block.ofVec c.block
    let placed := (g.status = .running ∨ g.status = .draining) ∧ g.byFault = false
    let desc (e : Element) (buf : Nat) : BufferDesc := BufferDesc.ofWord (e.b.get (Tagged.zero 64) buf).data
    c.kind = .stream →
      (∀ p pa k, s.portsIssue sig = true → s.portLoad sig (ctx / 16) < 256 → s.reissues sig ctx = false → c.run < b.runs → b.indexed = false →
        (c.piecesOf c.run)[c.unit]? = some p →
        (b.loads = true ∧ c.units.length + (s.requests.filter fun r => r.outstanding && match r.source with | .stream n k _ => n == sig && k == ctx | _ => false).length < 256
          ∨ b.loads = false ∧ (c.pieceData c.run p).isSome = true) →
        let va := c.programVa c.run p
        let key := keyFields b.keysel
        c.rangeEntry.check va p.scale b.need = .ok () → s.checkPhysical (c.rangeEntry.linear p.va) = .ok pa →
        s.material g.vif (s.keyUse key.1 key.2.1 key.2.2) = some k → belowDomain k (p.va.toNat / 64) = false →
        ∃ t, exec (.streamRequestIssue sig ctx) s = .next t ∧ t.memory = s.memory
          ∧ ((t.ctx sig ctx).run, (t.ctx sig ctx).unit) = (if c.unit + 1 < (c.piecesOf c.run).length then (c.run, c.unit + 1) else (c.run + 1, 0))
          ∧ ∃ r ∈ t.requests, r.source = .stream sig ctx (pieceTag c.run c.unit) ∧ r.va = va ∧ r.sealVa = p.va ∧ r.pa = pa
              ∧ (b.loads = true → r.op = .read) ∧ (r.stage = .key ∨ r.stage = .travel))
      ∧ (∀ l,
        let h := c.landed.get 0 l
        let at_ := c.granuleAt l (h / 2)
        let place := c.elementAt g.wd ctx l
        let target := c.target l
        let e := s.elementOf sig place.1 place.2
        let gen := (s.folioOf sig place.1 place.2).gen
        let d := desc e target.1
        let upper := decide (h % 2 = 1)
        let whole := upper && !c.dropped.contains (l, h / 2)
        let i := d.base + h / 2
        let old := e.pad.get (Tagged.zero 512) i
        let full := whole = true ∧ d.fcnt + 1 = d.cnt
        placed → b.loads = true → (∀ n m, (s.spineOf sig).phase ≠ .seam n (m + 1)) → l ∈ c.lanes → c.nextReady l = true →
        (∀ x ∈ c.lanes, x ≠ l → c.nextReady x = false) → c.nextLost l = false → c.gen = s.genOf sig → l ∉ c.stale → (e.b.get (Tagged.zero 64) target.1).gen = gen →
        h / 2 < d.cnt → d.st = 0 ∨ d.st = 1 ∧ e.owner.get 0 target.1 = ctx + 1 → (s.busHalves sig ctx place.1).1 < 4 →
        (s.busHalves sig ctx place.1).2.2 = 0 →
        ∃ t q, exec (.fillHalfLands sig ctx) s = .next t ∧ q = t.elementOf sig place.1 place.2 ∧ t.memory = s.memory
          ∧ (q.pad.get (Tagged.zero 512) i).gen = gen
          ∧ (∀ j < 512, (q.pad.get (Tagged.zero 512) i).data.getLsbD j =
              if decide (256 ≤ j) = upper then (c.granule l at_.1 at_.2).getLsbD j else old.gen == gen && old.data.getLsbD j)
          ∧ desc q target.1 = BufferDesc.ofWord ({ (if d.st = 0 then { d with fmt := target.2.1, scaled := target.2.2 } else d) with
              fcnt := if whole then d.fcnt + 1 else d.fcnt, st := if full then 2 else 1 } : BufferDesc).toWord
          ∧ (t.ctx sig ctx).landed.get 0 l = h + 1)
      ∧ (∀ l,
        let place := c.elementAt g.wd ctx l
        let target := c.target l
        let e := s.elementOf sig place.1 place.2
        let gen := (s.folioOf sig place.1 place.2).gen
        let d := desc e target.1
        c.voids = [l] → c.gen = s.genOf sig → (e.b.get (Tagged.zero 64) target.1).gen = gen → d.cnt ≠ 0 → d.st = 0 →
        ∃ t, exec (.deferredVoid sig ctx) s = .next t ∧ (t.ctx sig ctx).voids = [] ∧ t.memory = s.memory
          ∧ desc (t.elementOf sig place.1 place.2) target.1 =
              BufferDesc.ofWord ({ d with fmt := target.2.1, scaled := target.2.2, st := 2, void := true } : BufferDesc).toWord)
      ∧ (∀ row col x rest p,
        let e := s.elementOf sig row col
        let n := c.taken.get 0 p
        let gen := (s.folioOf sig row col).gen
        placed → b.loads = false → e.egress = x :: rest → ctx = ctxKey g.wd (row / 16) (col / 16) x.handle →
        b.placeOf (row % 16) (col % 16) = some p → (s.busHalves sig ctx row).2.1 < 4 → (s.busHalves sig ctx row).2.2 = 0 →
        let takes (v : Vec) (egress : List Egress) (t : State) : Prop :=
          exec (.egressGranuleTaken sig row col) s = .next t ∧ (t.elementOf sig row col).egress = egress
            ∧ (t.ctx sig ctx).taken.get 0 p = n + 1 ∧ Tab.look (t.ctx sig ctx).out (n * b.places + p) = some v ∧ t.memory = s.memory
        let emptied (d : Drain) (t : State) : Prop :=
          let q := t.elementOf sig row col
          if d.gen = gen ∧ (e.b.get (Tagged.zero 64) d.b).gen = gen then (desc q d.b).st = 0 else q.b = e.b
        (∀ v, x.entry = .vector v → ∃ t, takes v rest t)
        ∧ (∀ d : Drain,
          let r := e.pad.get (Tagged.zero 512) (d.base + d.next)
          x.entry = .buffer d → r.gen = gen → r.poison = false →
          (d.next + 1 < d.cnt → ∃ t, takes r.data ({ x with entry := .buffer { d with next := d.next + 1 } } :: rest) t)
          ∧ (d.cnt ≤ d.next + 1 → ∃ t, takes r.data rest t ∧ emptied d t))
        ∧ (∀ d : Drain,
          let r := e.pad.get (Tagged.zero 512) (d.base + d.next)
          x.entry = .buffer d → g.gmode = true → r.gen ≠ gen → g.frozen = false → g.stop = none →
          ∃ t st, exec (.egressGranuleTaken sig row col) s = .next t ∧ (t.sig sig).stop = some st ∧ st.from_ = s.cycle + 12
            ∧ st.notes = [{ code := 0x10, aux := BitVec.ofNat 64 (r.gen.toNat + gen.toNat * 65536)
                            addr := BitVec.ofNat 64 (64 * (d.base + d.next)), slot := 3, offset := 0, row, col, time := g.time, more := 0
                            seen := s.ns }]
            ∧ (t.elementOf sig row col).egress = { x with entry := .stopped d } :: rest
            ∧ t.memory = s.memory)
        ∧ (∀ d : Drain, x.entry = .stopped d → g.stop = none →
          (d.next + 1 < d.cnt → ∃ t, takes 0 ({ x with entry := .buffer { d with next := d.next + 1 } } :: rest) t)
          ∧ (d.cnt ≤ d.next + 1 → ∃ t, takes 0 rest t ∧ emptied d t)))
      ∧ (placed → s.streamDone sig ctx = true → s.forkOpen sig c.fork = false →
        ∃ t, exec (.streamComplete sig ctx) s = .next t ∧ t.ctx sig ctx = Ctx.free
          ∧ (b.cdone = 0 → t.memory = s.memory) ∧ ∀ u, b.cdone ≠ 0 → s.addOne g.vif b.cdone = .ok u → t.memory = u.memory)

/-- R178, R305, R322: a copy reads its next unit, writes the unit it has read, and completes with an add to its CDONE after the last; a DMA
window takes a block that passes its checks into the queue, and one that does not is reported, as is a misuse of the window (log 72, DEDUCED); at
most eight copies run at once. -/
def Obligations.Copies : Prop :=
  ∀ s : State,
    (∀ sig ctx,
      let g := s.sig sig
      let c := s.ctx sig ctx
      let total := copyUnits c.block
      let die := dieOf (g.ctxFolio (16 * c.port)).1 (g.ctxFolio (16 * c.port)).2
      let moves (t : State) : Prop := exec (.cpyUnitTransfer (.spineCopy sig ctx)) s = .next t
      c.kind = .copy → s.portsIssue sig = true → c.hold = none → s.portLoad sig c.port < 256 → s.forkOpen sig c.fork = false →
        (∀ u v, c.run = c.unit → c.unit < total → s.copyRead die g.vif (copyVa c.block 0 c.run) (blockWord c.block 4) = .ok (u, v) →
          ∃ t, moves t ∧ (t.ctx sig ctx).run = c.run + 1 ∧ Tab.look (t.ctx sig ctx).units c.run = some v ∧ t.memory = s.memory)
        ∧ (∀ u v, c.run = total → c.unit < total → Tab.look c.units c.unit = some v →
          s.copyWrite die g.vif (copyVa c.block 1 c.unit) (blockWord c.block 5) v = .ok u →
          ∃ t, moves t ∧ (t.ctx sig ctx).unit = c.unit + 1 ∧ t.memory = u.memory)
        ∧ (c.unit = total → ∃ t, moves t ∧ t.ctx sig ctx = Ctx.free
          ∧ (blockWord c.block 3 = 0 → t.memory = s.memory)
          ∧ ∀ u, blockWord c.block 3 ≠ 0 → s.addOne g.vif (blockWord c.block 3) = .ok u → t.memory = u.memory))
    ∧ (∀ d : DmaCopy,
      let total := copyUnits d.block
      let sides := dmaSides d.vif d.block
      let moves (t : State) : Prop := exec (.cpyUnitTransfer (.dmaCopy d.id)) s = .next t
      s.dma.find? (·.id = d.id) = some d → d.running = true → d.hold = none → s.debugger.stopped = false →
      (s.iface sides.1).armed = false → (s.iface sides.2).armed = false → dmaImage d.block = false →
        (∀ u v, d.read = d.written → d.written < total → s.copyRead 0 sides.1 (copyVa d.block 0 d.read) (blockWord d.block 4) = .ok (u, v) →
          ∃ t, moves t ∧ t.dma.find? (·.id = d.id) = some { d with read := d.read + 1, units := d.units ++ [v] } ∧ t.memory = s.memory)
        ∧ (∀ u v rest, d.read = total → d.written < total → d.units = v :: rest →
          s.copyWrite 0 sides.2 (copyVa d.block 1 d.written) (blockWord d.block 5) v = .ok u →
          ∃ t, moves t ∧ t.dma.find? (·.id = d.id) = some { d with written := d.written + 1, units := rest } ∧ t.memory = u.memory)
        ∧ (d.written = total → ∃ t, moves t ∧ t.dma.find? (·.id = d.id) = none))
    ∧ (s.serving = true → ∀ priv vif block,
      let queued (t : State) (block : Vec) : Prop :=
        t = { s with dma := s.dma ++ [⟨s.nextDma, vif, block, false, [], 0, 0, none, []⟩], nextDma := s.nextDma + 1 }
      (∀ offset, offset % 64 = 0 → s.dmaRefused priv vif block = none →
        ∃ t, exec (.dmaWindowWrite priv vif offset 64 block) s = .next t ∧ queued t block)
      ∧ (∀ offset size, size ≠ 64 ∨ offset % 64 ≠ 0 →
        exec (.dmaWindowWrite priv vif offset size block) s = .next (s.report vif (FaultInfo.report 0x21 4 offset 0)))
      ∧ (let block := block ||| BitVec.ofNat 512 (2 ^ 398)
        s.dmaRefused true vif block = none → ∃ t, exec (.dataImageCopy vif block) s = .next t ∧ queued t block))
    ∧ (∀ d, s.debugger.stopped = false → (s.dma.filter (·.running)).length < 8 → s.dma.find? (fun d => !d.running) = some d →
      exec .dmaCopyStart s = .next { s with dma := s.dma.map fun x => if x.id = d.id then { x with running := true } else x })

/-! ### Freezes and seams -/

/-- R41, R46, R61, R65, R68, R188, R191, R352, R374: a wave that is due freezes its signature; a fault stop that is due freezes it and writes its
record, and lifts when its time has come; a sweep takes its 1,600 cycles, after which no folio of the signature has a wrap before it; at a
drained seam every folio advances its generation, and a plane switch activates the plane it asked for. -/
def Obligations.FreezesAndSeams : Prop :=
  ∀ (s : State) (sig : Nat),
    let g := s.sig sig
    let p := s.spineOf sig
    let advanced (t : State) : Prop :=
      (t.spineOf sig).phase = .fetch ∧ (t.spineOf sig).seamRequest = none ∧ (t.spineOf sig).g = p.g ∧ t.memory = s.memory
        ∧ ∀ rc ∈ g.folios, (t.folio rc.1 rc.2).gen = (if (s.folio rc.1 rc.2).gen = 0xFFFF then 1 else (s.folio rc.1 rc.2).gen + 1)
    (∀ w, g.waves = [w] → w.inForce = false → w.parked = false → w.from_ ≤ s.cycle → w.cause ≠ .causal → s.advancing sig = false → s.controllerOwes sig = false →
      (w.cause = .debug → g.status = .starting → g.image = []) →
      ∃ t, exec (.freezeWaveEffect sig) s = .next t ∧ (t.sig sig).waves = [{ w with inForce := true, from_ := s.cycle }]
        ∧ t.runs sig = false ∧ (t.spineOf sig).g = p.g ∧ t.memory = s.memory
        ∧ (t.spineOf sig).capture.intr = p.capture.intr + if p.capture.on && w.cause.interrupts then 1 else 0)
    ∧ (∀ st n, g.stop = some st → st.notes = [n] → st.inForce = false → st.from_ ≤ s.cycle → s.advancing sig = false →
        (s.recordFault g.vif (n.info sig 2)).2.isSome = true →
        ∃ t, exec (.faultStopFreeze sig) s = .next t ∧ (t.sig sig).stop = some { notes := [], inForce := true, from_ := s.cycle, lifts := none }
          ∧ t.runs sig = false ∧ t.memory = (s.recordFault g.vif (n.info sig 2)).1.memory)
    ∧ (∀ st k, g.stop = some st → st.lifts = some k → k ≤ s.cycle →
        ∃ t, exec (.faultStopResume sig) s = .next t ∧ t.sig sig = { g with stop := none } ∧ (t.spineOf sig).g = p.g ∧ t.memory = s.memory)
    ∧ (g.status = .starting → 1 < g.sweep → exec (.wrapSweep sig) s = .next (s.setSig sig { g with sweep := g.sweep - 1 }))
    ∧ (∀ first k, g.status = .running → s.runs sig = true → p.phase = .seam first (k + 1) →
        ∃ t, exec (.wrapSweep sig) s = .next t ∧ (t.spineOf sig).phase = .seam first k ∧ t.memory = s.memory
          ∧ (k = 0 → t.wraps sig = false ∧ ∀ rc ∈ g.folios, (t.folio rc.1 rc.2).gen = (s.folio rc.1 rc.2).gen))
    ∧ (s.seamReady sig = true → g.row0 + g.ht ≤ 12 → g.col0 + g.wd ≤ 24 →
        (p.seamRequest = some .genadv → ∃ t, exec (.seamGenerationAdvance sig) s = .next t ∧ advanced t)
        ∧ (∀ cfg, p.seamRequest = some (.plsw cfg) → (∀ rc ∈ g.folios, ((s.folio rc.1 rc.2).planes.map (·.1)).Nodup) →
          (∀ rc ∈ g.folios, ((s.folio rc.1 rc.2).planeWith g.vif g.code cfg.toNat [.ready, .active]).isSome = true) →
          ∃ t, exec (.seamPlaneSwitch sig) s = .next t ∧ advanced t
            ∧ ∀ rc ∈ g.folios, ∃ k q, (t.folio rc.1 rc.2).active = some (k, q) ∧ q.owner = some g.vif ∧ q.image = g.code ∧ q.cfg = cfg.toNat))

/-! ### The bindery -/

/-- R28, R29, R31 to R36, R404: a write of 64 bytes to a slot of the window enqueues its record or is refused with the first reason of R31; CWAIT makes
a record ready; waiting raises its priority; a candidate that has waited 2^24 cycles and does not fit becomes blocking. A bindery
step places a blocking record that fits; without one it places the candidate of the interface it visits, whose visit goes on until its weight is
used up, or it moves on when there is none or it does not fit. While a pre-empted gang is
saved in part, a step places nothing else. A record is placed at the first corner in device folio order where its shape fits, and its folios are its
signature's. -/
def Obligations.QueuesAndPlacement : Prop :=
  (∀ (s : State) (vif : Nat),
     let f := s.iface vif
     (s.serving = true → ∀ offset size record,
       (size = 64 → offset % 64 = 0 → s.recordRefused vif record = none → recordGang record = 0 →
         ∃ t q, exec (.launchWindowWrite vif offset size record) s = .next t ∧ (t.iface vif).queue = f.queue ++ [q] ∧ q.record = record
           ∧ q.arrived = s.cycle ∧ q.prio = recordPri record ∧ q.saved = none ∧ t.memory = s.memory)
       ∧ (∀ aux, size = 64 → offset % 64 = 0 → s.recordRefused vif record = some aux →
         exec (.launchWindowWrite vif offset size record) s = .next (s.report vif (FaultInfo.report 0x20 3 aux 0)))
       ∧ (size ≠ 64 ∨ offset % 64 ≠ 0 →
         exec (.launchWindowWrite vif offset size record) s = .next (s.report vif (FaultInfo.report 0x21 4 offset 0))))
     ∧ (∀ q x, f.queue = [q] → q.saved = none → recordWord q.record 3 ≠ 0 → s.readVirtual vif (recordWord q.record 3) 8 = .ok x →
         ∃ t, exec (.cwaitPoll vif) s = .next t ∧ (t.iface vif).queue = [{ q with ready := decide ((recordWord q.record 4).toNat ≤ x) }]
           ∧ t.memory = s.memory)
     ∧ exec (.priorityAging vif) s = .next (s.setIface vif { f with queue := f.queue.map fun q =>
         { q with prio := min 7 (recordPri q.record + (q.waitedBefore + (s.cycle - q.arrived)) / 2 ^ 24) } })
     ∧ (∀ q c, let u := s.markCandidate vif
         u.candidate vif = some q → q.candidateSince = some c → c + 2 ^ 24 ≤ s.cycle → u.placeGroup vif q = none →
         ∃ t, exec (.candidateBecomesBlocking vif) s = .next t ∧ { q with blocking := true } ∈ (t.iface vif).queue
           ∧ (t.iface vif).queue.length = f.queue.length ∧ t.memory = s.memory))
  ∧ (∀ s : State,
       let u := s.markCandidates.startAll
       let v := u.visit
       let w := u.pollCwait v
       let step := exec .binderyStep s
       (s.binderyRuns = true → u.partlySaved = true → step = .next u)
       ∧ (s.binderyRuns = true → u.partlySaved = false →
         (∀ x q t, u.blockingRecord = some (x, q) → u.placeGroup x q = some t → step = .next t)
         ∧ (u.blockingRecord = none →
           (w.candidate v = none → step = .next { w with visit := (v + 1) % 64, visitPlaced := 0 })
           ∧ (∀ q, w.candidate v = some q → w.placeGroup v q = none → step = .next { w with visit := (v + 1) % 64, visitPlaced := 0 })
           ∧ (∀ q t, w.candidate v = some q → w.placeGroup v q = some t →
               step = .next (if (t.iface v).policy.weight ≤ t.visitPlaced + 1 then { t with visit := (v + 1) % 64, visitPlaced := 0 }
                 else { t with visitPlaced := t.visitPlaced + 1 }))))
       ∧ (∀ vif gang q c,
           let ht := recordHt q.record
           let wd := recordWd q.record
           let fits (k : Nat) : Bool := s.inPartition vif (k / 24) (k % 24) ht wd && (rectangle (k / 24) (k % 24) ht wd).all s.freeFolio
           q.saved = none → s.reservedFor vif ht wd = none → c < 288 → fits c = true → (∀ k < c, fits k = false) →
           let n := s.freshSig
           ∃ t, s.placeOne vif gang q = some t
             ∧ (t.sig n).status = .starting ∧ (t.sig n).row0 = c / 24 ∧ (t.sig n).col0 = c % 24 ∧ (t.sig n).ht = ht ∧ (t.sig n).wd = wd
             ∧ (t.sig n).record = q.record ∧ ∀ rc ∈ rectangle (c / 24) (c % 24) ht wd, (t.folio rc.1 rc.2).placed = n + 1))

/-- R37, R38, R41 to R43, R66, R187, R355: a pre-empted signature is saved once its requests are done: its folios are idle and, where nothing else is
placed, its record heads its queue; a restored one goes on with its T and its spine; a launch that is complete, or ends by fault, writes its
value, leaves its folios idle and its signature number free; and a coalescing window that ends delivers its count. R45, R147, R339, R386: a plane
load that ends leaves the plane READY with its roles, ends the CFGLD that it was the last of, and begins the launch whose folios are now ready; one
that fails leaves the plane INVALID, and the record of a placement at the head of its queue; a folio that is gated loses everything but its dune
counters, and one whose ungating is complete is powered, and the load that waited for it begins. That a launch completes while a VOTE is still due is
the model's choice (log 90, DESIGN CHOICE); that a restore waits for stores that its signature may have acquired before its save is its reading
(log 34, DEDUCED). -/
def Obligations.LaunchesAndPlanes : Prop :=
  (∀ (s : State) (sig : Nat),
     let g := s.sig sig
     let p := s.spineOf sig
     let idle (t : State) : Prop := ∀ rc ∈ g.folios, (t.folio rc.1 rc.2).placed = 0
     let ends (i : Instr) (value : Word) (noted : State) : Prop :=
       ∃ t, exec i s = .next t ∧ t.sig sig = Sig.unused ∧ idle t
         ∧ ∀ u, recordWord g.record 2 ≠ 0 → noted.writeVirtual g.vif (recordWord g.record 2) 8 value.toNat = .ok u → s.journal.txs = [] →
             s.journal.reverts = [] → s.journal.replays = [] → g.record.getLsbD 405 = false → g.launches = [] → (∀ v, (s.iface v).queue = []) →
             t.memory = u.memory
     (∀ w, s.binderyRuns = true → g.waves = [w] → w.inForce = true → w.cause = .preempt → g.status = .running → s.requestsGo sig = false →
       s.releaseOpen sig = false → s.pendingMove sig = none → s.atSeamWord sig = false → g.gang = 0 → s.inQueue sig = false →
       (let u := s.saveImage sig
        ∀ x, u.blockingRecord.or (u.causeRecord [sig]) = some x → u.placeGroup x.1 x.2 = none) →
       ∃ t q rest, exec (.imageSave sig) s = .next t ∧ (t.sig sig).status = .saved ∧ (t.sig sig).time = g.time ∧ (t.sig sig).savedSpine.g = p.g
         ∧ (t.sig sig).savedSpine.pc = p.pc ∧ (∀ k < g.ht * g.wd, Tab.look (t.sig sig).image k = some (s.saveFolio sig k)) ∧ idle t
         ∧ (t.iface g.vif).queue = q :: rest ∧ q.saved = some sig ∧ q.record = g.record ∧ t.memory = s.memory)
     ∧ (g.status = .starting → g.image ≠ [] → g.byFault = false → s.serving = true → s.platform.moving = false → s.gangReady sig = true → g.sweep = 0 →
         s.wraps sig = false → s.pendingMove sig = none → (∀ r ∈ s.requests, r.source.owner.1 ≠ sig) → s.acquiredGo sig = false →
         (∀ x ∈ g.ctxs, x.2.kind ≠ .cfgld) →
         ∃ t, exec (.imageRestore sig g.row0 g.col0) s = .next t ∧ (t.sig sig).time = g.time ∧ (t.sig sig).image = []
           ∧ (t.sig sig).status = (if g.ending then .draining else .running)
           ∧ (t.spineOf sig).g = g.savedSpine.g ∧ (t.spineOf sig).pc = g.savedSpine.pc ∧ t.memory = s.memory)
     ∧ (g.status = .draining → g.ending = true → g.byFault = false → g.frozen = false → g.stop = none → s.wordsDone sig = true → s.landed sig = true →
         s.debugger.stopped = false → (∀ x ∈ g.ctxs, x.2.kind = .free) → s.earlierStores sig = [] →
         ends (.launchComplete sig) (recordWord g.record 5) s)
     ∧ (g.status = .draining → g.byFault = true → s.wordsDone sig = true → g.frozen = true ∨ s.landed sig = true →
         s.debugger.stopped = false → s.requestsGo sig = false → (∀ x ∈ g.ctxs, x.2.kind ≠ .coll ∧ x.2.kind ≠ .cfgld) →
         ends (.launchEndByFault sig) 0x8000000000000000 (s.flushNotes sig))
     ∧ (g.status = .saved → g.byFault = true → s.debugger.stopped = false → (∀ x ∈ g.ctxs, x.2.kind ≠ .coll) →
         ∃ t, exec (.launchEndByFault sig) s = .next t ∧ t.sig sig = Sig.unused)
     ∧ (∀ vif k, (s.iface vif).irqEnds = some k → k ≤ s.ns →
         ∃ t, exec (.interruptWindowExpiry vif) s = .next t ∧ (t.iface vif).irqCount = 0 ∧ (t.iface vif).irqEnds = none
           ∧ ((s.iface vif).ictl.getLsbD 16 = true → (s.iface vif).iaddr ≠ 0 →
               t.interrupts = s.interrupts ++ [(vif, (s.iface vif).irqCount)])))
  ∧ (∀ (s : State) (folio : Nat),
       let row := folio / 24
       let col := folio % 24
       let f := s.folio row col
       let n := f.placed - 1
       let g := s.sig n
       let calm : Prop := f.placed = 0 ∨ (g.status ≠ .starting ∧ ∀ x ∈ g.ctxs, x.2.kind ≠ .cfgld)
       let launches : Prop := f.placed ≠ 0 ∧ g.status = .starting ∧ g.image = [] ∧ g.gang = 0 ∧ g.byFault = false ∧ s.serving = true
         ∧ s.platform.moving = false ∧ s.debugger.stopped = false ∧ (∀ x ∈ g.ctxs, x.2.kind ≠ .cfgld) ∧ (row, col) ∈ g.folios ∧ g.col0 + g.wd ≤ 24
       (∀ plane, (f.plane plane).state = .loading →
         let p := f.plane plane
         (∀ roles, s.loadForked f p = false → s.readUnit (p.owner.getD 0) p.source = .ok roles →
           let u := s.setFolio row col (f.setPlane plane { p with state := .ready, roles })
           let loaded (t : State) : Prop := exec (.planeLoadComplete folio plane) s = .next t
             ∧ (t.folio row col).plane plane = { p with state := .ready, roles } ∧ t.memory = s.memory
           (calm → ∃ t, loaded t)
           ∧ (∀ key c, f.placed ≠ 0 → g.status ≠ .starting → g.ctxs = [(key, c)] → c.kind = .cfgld → (∀ k < g.ht * g.wd, c.index.get 0 k = 1) →
             (∀ rc ∈ g.folios, (u.folio rc.1 rc.2).holdsCfg g.vif g.code c.unit [.loading] = false) → ∃ t, loaded t ∧ t.ctx n key = Ctx.free)
           ∧ (launches → (∀ k < g.ht * g.wd, u.loadBegun n 0 k = true) →
             (u.startReady n = false → ∃ t, loaded t ∧ (t.sig n).status = .starting)
             ∧ (u.startReady n = true → g.advance = false → g.sweep = 0 → ∃ t, exec (.planeLoadComplete folio plane) s = .next t
               ∧ (t.sig n).status = .running ∧ (t.spineOf n).pc = g.code ∧ (t.spineOf n).g.get 0 1 = recordWord g.record 1
               ∧ (∀ rc ∈ g.folios, (t.folio rc.1 rc.2).lastWorld = some g.vif) ∧ t.memory = s.memory)))
         ∧ (let fails (t : State) : Prop := exec (.planeLoadError folio plane) s = .next t ∧ ((t.folio row col).plane plane).state = .invalid
           (calm → ∃ t, fails t)
           ∧ (∀ key c, f.placed ≠ 0 → g.status ≠ .starting → g.ctxs = [(key, c)] → c.kind = .cfgld → (∀ k < g.ht * g.wd, c.index.get 0 k = 1) →
             ∃ t, fails t)
           ∧ (launches → p.owner = some g.vif → p.image = g.code → p.cfg = 0 → s.journal.txs = [] →
             ∃ t q rest, fails t ∧ (t.iface g.vif).queue = q :: rest ∧ q.record = g.record ∧ ∀ rc ∈ g.folios, (t.folio rc.1 rc.2).placed = 0)))
       ∧ (s.platform.pgate = true → f.gated = false → f.placed = 0 → s.journalHolds folio = false → 2 ^ 24 ≤ f.idleFor →
           f.staging.records = [] →
           ∃ t, exec (.folioPowerGate folio) s = .next t ∧ (t.folio row col).gated = true ∧ (t.folio row col).gen = 1
             ∧ (t.folio row col).planes = [] ∧ (t.folio row col).lastWorld = none ∧ (t.folio row col).busy = f.busy
             ∧ (t.folio row col).held = f.held ∧ (t.folio row col).idle = f.idle
             ∧ (∀ i < 16, ∀ j < 16, t.element (16 * row + i) (16 * col + j) = Element.zero) ∧ t.memory = s.memory)
       ∧ (∀ k, f.ungated = some k → k ≤ s.cycle →
           (calm → exec (.folioUngateComplete folio) s = .next (s.setFolio row col { f with gated := false, ungated := none }))
           ∧ (∀ i place, launches → f.planes = [] → s.imageOf n = some i → place < g.ht * g.wd → g.place place = (row, col) →
             ∃ t, exec (.folioUngateComplete folio) s = .next t ∧ (t.folio row col).gated = false ∧ (t.folio row col).ungated = none
               ∧ ((t.folio row col).plane 0).state = .loading ∧ ((t.folio row col).plane 0).owner = some g.vif ∧ ((t.folio row col).plane 0).cfg = 0
               ∧ ((t.folio row col).plane 0).source = i.recordAt 0 place ∧ t.memory = s.memory)))

/-! ### Collectives and precision time -/

/-- R179, R311, R313, R314, R394: a step that starts takes its number and, as a receive or a reduce, grants its peer all its frames; a step of no
elements, of another generation or without its key ends at once; a granted send sends the frames it holds allowance for; a data frame is written
or reduced into the local buffer and acknowledged, and the last one completes the step, as the last acknowledgement completes a send; frames not
acknowledged for 20 µs are sent again; a step that hears nothing for its TMO ends MEMBER_LOST and its group advances. That a grant waits for the
send it is for, and that the frame counter starts at 0 in each generation that the group had not yet, are the model's (log 15, DESIGN CHOICE). -/
def Obligations.CollectiveSteps : Prop :=
  ∀ (s : State) (c : CollStep) (g : Group),
    let start := exec (.collStepStart c.id) s
    let key := keyFields c.lkey
    let stat := blockWord c.block 2
    let ends (i : Instr) (status : Nat) : Prop :=
      ∃ t, exec i s = .next t ∧ t.coll c.id = none
        ∧ ((∀ x ∈ s.colls, x.id ≠ c.id → x.started = false) → blockWord c.block 1 = 0 → (stat = 0 → t.memory = s.memory)
            ∧ ∀ u, stat ≠ 0 → s.writeVirtual c.vif stat 8 status = .ok u → t.memory = u.memory)
    let sends (i : Instr) (kind : FrameKind) (index : Nat) (plain : List Byte) (t : State) : Prop :=
      exec i s = .next t ∧ ∀ m, g.members[c.peer]? = some m → ∃ f, t.sentFrames = f :: s.sentFrames ∧ f.kind = kind ∧ f.index = index ∧ f.grp = g.grp ∧ f.ggen = g.ggen
        ∧ f.port = s.platform.ethcfg.extractLsb' 32 16 ∧ f.address = m.address ∧ f.mac = m.mac
        ∧ f.sender = BitVec.ofNat 16 g.rank ∧ f.dest = BitVec.ofNat 16 c.peer ∧ f.counter = BitVec.ofNat 48 g.counter
        ∧ f.bytes = frameCrypt { f with bytes := plain } g.key ∧ f.tag = frameTag f g.key
    let genuine (f : Frame) (send : Bool) : Prop :=
      f.fcs = true ∧ f.port = s.platform.udpPort ∧ f.ggen = g.ggen ∧ f.tag = frameTag f g.key ∧ s.stepFor g f send = some c ∧ c.matches f = true
    let bytes (i : Nat) : Nat := c.elements i * c.size
    s.coll c.id = some c → s.group c.vif c.grp = some g → (∀ x ∈ s.groups, x.grp = c.grp → x = g) → g.counter + 1 < 2 ^ 48 →
    s.portFor c = true → s.debugger.stopped = false →
      (c.started = false → s.stepWaits c = false →
        s.forkOpen c.sig (s.ctx c.sig c.ctx).fork = false →
        (c.count = 0 → ends (.collStepStart c.id) 0)
        ∧ (c.count ≠ 0 → g.ggen ≠ c.ggen → ends (.collStepStart c.id) 2)
        ∧ (c.count ≠ 0 → g.ggen = c.ggen → s.keyValid c.vif key.1 key.2.1 key.2.2 = false → ends (.collStepStart c.id) 3)
        ∧ (c.count ≠ 0 → g.ggen = c.ggen → s.keyValid c.vif key.1 key.2.1 key.2.2 = true →
          let k := if c.op = 0 then g.sends.get 0 c.peer else g.receives.get 0 c.peer
          let begun (t : State) : Prop :=
            t.coll c.id = some { c with started := true, number := g.steps, pairIndex := k, lastFrame := s.clock.oscillator } ∧ t.memory = s.memory
          (c.op ≠ 0 → ∃ t, sends (.collStepStart c.id) .grant c.frames [] t ∧ begun t)
          ∧ (c.op = 0 → (∀ f ∈ g.grants, f.sender.toNat = c.peer → f.step ≠ k) → ∃ t, start = .next t ∧ begun t ∧ t.sentFrames = s.sentFrames)))
      ∧ (∀ f, genuine f true → f.grp = g.grp → f.dest.toNat = g.rank →
        (∀ x, max c.allowance f.index = c.nextFrame + 1 → c.nextFrame < c.frames →
          s.localRead c (8192 * c.nextFrame) (bytes c.nextFrame) = .ok x →
          ∃ t, sends (.collGrantReceive f) .data c.nextFrame (bytesOf (bytes c.nextFrame) x) t ∧ t.memory = s.memory)
        ∧ ((c.sent.any fun x => x.frame.index == f.index) = true →
          (c.finished.length + 1 < c.frames → exec (.collAckReceive f) s = .next (s.setColl { c with
              lastFrame := s.clock.oscillator, sent := c.sent.filter (·.frame.index ≠ f.index), finished := c.finished ++ [f.index] }))
          ∧ (c.finished.length + 1 = c.frames → ends (.collAckReceive f) 0)))
      ∧ (∀ f, f.fcs = true → f.port = s.platform.udpPort → f.ggen = g.ggen → f.tag = frameTag f g.key → f.grp = g.grp → f.dest.toNat = g.rank →
        s.stepFor g f true = none →
        g.sends.get 0 f.sender.toNat ≤ f.step →
        exec (.collGrantReceive f) s = .next (s.setGroup { g with grants := g.grants ++ [f] }))
      ∧ (∀ f, genuine f false → f.grp = g.grp → f.dest.toNat = g.rank → f.index < c.frames → f.bytes.length = bytes f.index →
        let off := 8192 * f.index
        let n := bytes f.index
        let incoming := natOf (frameCrypt f g.key)
        (f.index ∈ c.finished → c.finished.length < c.frames →
          ∃ t, sends (.collDataFrameReceive f) .ack f.index [] t ∧ t.memory = s.memory)
        ∧ (∀ u mine, f.index ∉ c.finished → s.localRead c off n = .ok mine ∨ c.op = 1 →
          s.localWrite c off n (if c.op = 1 then incoming % 2 ^ (8 * n) else c.reduce (c.elements f.index) mine incoming) = .ok u →
          (c.finished.length + 1 < c.frames → ∃ t, sends (.collDataFrameReceive f) .ack f.index [] t ∧ t.memory = u.memory
            ∧ t.coll c.id = some { c with finished := c.finished ++ [f.index], lastFrame := s.clock.oscillator })
          ∧ (c.finished.length + 1 = c.frames → ∃ t, exec (.collDataFrameReceive f) s = .next t ∧ t.coll c.id = none)))
      ∧ (∀ x y, c.sent = [x] → x.sentAt + 20 * 2500 ≤ s.clock.oscillator → (∀ i < c.nextFrame, i ∈ c.finished ∨ i = x.frame.index) →
        s.localRead c (8192 * x.frame.index) (bytes x.frame.index) = .ok y →
        ∃ t, sends (.collRetransmit c.id) .data x.frame.index (bytesOf (bytes x.frame.index) y) t ∧ t.memory = s.memory)
      ∧ (c.started = true → c.lastFrame + 2500 * (if c.tmo = 0 then g.timeout else c.tmo) ≤ s.clock.oscillator →
        ends (.collStepTimeout c.id) 1
        ∧ ∃ t q, exec (.collStepTimeout c.id) s = .next t ∧ t.group c.vif c.grp = some q ∧ q = { g with ggen := g.ggen + 1, counter := q.counter, spent := q.spent }
          ∧ q.counterFor g.ggen = g.counter ∧ ((∀ x ∈ g.spent, x.1 ≠ g.ggen + 1) → q.counter = 0))

/-- R311, R312: a formation block whose fields, table and digest are in order forms its group under the key of R312, with status 0; one that is
not is given its status and forms nothing. R56, R308: an image is registered when its block, its records and its code pass every check, and its
digest is written; one that fails a check is given the check's code; a deregistered image can no longer be launched. A group formed in the
generation it has keeps its frame counter (R313). R293, R306: an export writes
its header, its signature table and its records at DST, and then STATUS; one that does not fit writes the error status alone. The order of checks
that fail together, and the paths on which an image is checked, are the model's reading (logs 17, 61, 62 and 63, DEDUCED). -/
def Obligations.RequestBlocks : Prop :=
  (∀ (s : State) (vif : Nat) (addr : Word) (lo hi : Vec) (u : State),
     let grp : BitVec 32 := (recordWord lo 0).extractLsb' 0 32
     let ggen : BitVec 32 := (recordWord lo 1).extractLsb' 0 32
     let nmem := ((recordWord lo 2).extractLsb' 0 17).toNat
     let rank := ((recordWord lo 2).extractLsb' 32 16).toNat
     let status (n : Nat) : Prop := s.writeVirtual vif (addr + 0x70) 8 n = .ok u
     let others := s.groups.filter fun g => !(g.vif == vif && g.grp == grp)
     s.serving = true → addr.toNat % 128 = 0 → s.readUnit vif addr = .ok lo → s.readUnit vif (addr + 64) = .ok hi →
       (∀ entries members, formationOk lo = true → s.readUnits vif (recordWord lo 4) (2 * nmem) = .ok entries →
         membersOf entries = some members → (members[rank]?).map (·.digest) = some s.platform.ownDigest → s.keysServed = true →
         others.length < 64 → (others.filter fun g => g.vif == vif).length < 16 → status 0 →
         ∃ t g, exec (.gform vif addr) s = .next t ∧ t.group vif grp = some g ∧ g.ggen = ggen ∧ g.rank = rank ∧ g.members = members
           ∧ g.timeout = ((recordWord lo 3).extractLsb' 0 32).toNat ∧ g.steps = 0
           ∧ (s.group vif grp = none → g.counter = 0) ∧ (∀ h, s.group vif grp = some h → h.ggen = ggen → g.counter = h.counter)
           ∧ g.key = BitVec.ofNat 256 (natOf (hkdfSha384 ((bytesOf 64 hi.toNat).take 48) (sha384 (memberBytes entries))
               ("zwiost-grp".toList.map (fun x => BitVec.ofNat 8 x.toNat) ++ bytesOf 4 grp.toNat ++ bytesOf 4 ggen.toNat) 32))
           ∧ ((∀ c ∈ s.colls, c.started = false) → t.memory = u.memory))
       ∧ (formationOk lo = false → status 2 → exec (.gform vif addr) s = .next u)
       ∧ (∀ e, formationOk lo = true → s.readUnits vif (recordWord lo 4) (2 * nmem) = .error e → status 4 →
         exec (.gform vif addr) s = .next u))
  ∧ (∀ (s : State) (vif : Nat),
       let f := s.iface vif
       s.serving = true →
         (∀ addr lo hi code records u,
           let i := imageOfBlock lo
           let shape := i.shape_
           let digest := digestBits (sha384 ((code ++ records).flatMap fun u => bytesOf 64 u.toNat))
           let result (rcode offset : Nat) : Prop := ∃ v, s.writeVirtual vif (addr + 0x40) 48 digest.toNat = .ok v
             ∧ v.writeVirtual vif (addr + 0x20) 8 (rcode + offset * 2 ^ 24 + (if rcode = 0 then 0 else 2 ^ 62) + 2 ^ 63) = .ok u
           let gives : Prop := exec (.imgreg vif addr) s = .next u
           let listed := (f.images.filter (·.registered)).length
           let image : VImage := { words := code.flatMap wordsOfUnit, ht := shape.1, wd := shape.2.1 }
           addr.toNat % 128 = 0 → s.readUnit vif addr = .ok lo → s.readUnit vif (addr + 64) = .ok hi →
             (imageBlockOk lo hi = false → s.writeVirtual vif (addr + 0x20) 8 (8 + 2 ^ 62 + 2 ^ 63) = .ok u → gives)
             ∧ (imageBlockOk lo hi = true → s.readCode vif i.code (i.clen.toNat / 64) = .ok code →
               s.readUnits vif i.cfg (shape.2.2 * shape.1 * shape.2.1) = .ok records →
               ((f.image i.code).isSome = true → result 10 0 → gives)
               ∧ (f.image i.code = none → 4096 ≤ listed → result 11 0 → gives)
               ∧ (∀ w c, f.image i.code = none → listed < 4096 → image.verify = some (w, c) → c ≠ 0 → result c (16 * w % 2 ^ 32) → gives)
               ∧ (f.image i.code = none → listed < 4096 → image.verify = none → result 0 0 →
                 ∃ t j, exec (.imgreg vif addr) s = .next t ∧ t.memory = u.memory ∧ (t.iface vif).image i.code = some j ∧ j.digest = digest
                   ∧ j.clen = i.clen ∧ j.cfg = i.cfg ∧ j.shape = i.shape)))
         ∧ (∀ code, ∃ t, exec (.imgdel vif code) s = .next t ∧ (t.iface vif).image code = none ∧ (t.iface vif).imgdel = code
           ∧ (∀ c, c ≠ code → (t.iface vif).image c = f.image c) ∧ t.memory = s.memory))
  ∧ (∀ (s u v : State) (vif : Nat) (addr : Word) (b : Vec),
       let sigs := s.exportSigs vif b
       let txs := s.exportTxs vif sigs (exportRanges b)
       let total := 64 + 64 * sigs.length + 128 * txs.length
       let dst := recordWord b 0
       s.serving = true → addr.toNat % 64 = 0 → dst.toNat % 64 = 0 → s.readUnit vif addr = .ok b →
         (total ≤ (recordWord b 1).toNat → s.writeUnits vif dst (s.exportUnits vif b) = .ok u →
           u.writeVirtual vif (addr + 0x30) 8 (total + 2 ^ 63) = .ok v → exec (.jexp vif addr) s = .next v)
         ∧ ((recordWord b 1).toNat < total → s.writeVirtual vif (addr + 0x30) 8 (2 ^ 62 + 2 ^ 63) = .ok v → exec (.jexp vif addr) s = .next v))

/-- R15, R25, R39, R40: as a wall cycle ends, each folio counts it as BUSY where the words of its signature moved, as HELD where nothing but a wait
condition froze it, and as IDLE otherwise; the signature's T rises with the words, its hold counter with the held cycles, and the region counts by
the lead spine's region, where a 65th region moves the counts of the one longest unused to region 0; a sweep counts as BUSY (log 67, DEDUCED). The
credit that a cap leaves an interface, without which its words do not move, is the model's form of R15 (log 8, DESIGN CHOICE).
R309, R310, R394: a port that goes down is up no more; a message on the chosen port sets SYNC by its offset; a servo correction sets the rate
within 1,000 ppm and steps the counter forward, as the wall cycle ends, and never back; 16 sync intervals without a message clear SYNC; the
clock sends on the chosen port, a Delay_Req where it may be no time transmitter, else what its role asks for, a Sync in two steps; and a frame with a
bad FCS is dropped and counted. Which role and message that is, is open (log 92, DESIGN CHOICE); what the events of the clock are and how a correction
is absorbed is the model's reading (logs 51 and 66, DEDUCED). R317, R319, R343: a die buffer takes up to eight records of its folios' staging areas in a cycle, in their order; its oldest record
goes to the ring where there is room. -/
def Obligations.TimeAndTrace : Prop :=
  (∀ (s : State) (rest : List Task) (sig : Nat),
     let g := s.sig sig
     let p := s.spineAnywhere sig
     ((s.iface g.vif).credit + s.shareOf g.vif < 2 ^ 32 → s.runs sig = false)
     ∧ (s.agenda = .startSig sig :: rest → g.status ≠ .saved →
       ∃ t x, step s = .next t ∧ t.clocked = s.clocked ++ [x] ∧ x.sig = sig ∧ x.moves = s.runs sig ∧ t.memory = s.memory
         ∧ (x.held = true ↔ g.held = true ∧ (∀ w ∈ g.waves, w.inForce = false) ∧ ∀ st, g.stop = some st → st.inForce = false)
         ∧ (x.starts = true ↔ g.status = .starting) ∧ (x.sweeps = true ↔ g.status = .starting ∧ 0 < g.sweep) ∧ x.frozen = g.frozen
         ∧ (p.phase = .fetch → x.region = ((p.region.head?).map BitVec.toNat).getD 0)))
  ∧ (∀ (s : State) (rest : List Task), s.agenda = .endCycle :: rest →
     let spent (x : Clocked) (gated : Bool) (busy held : Bool) : Prop :=
       busy = (if x.starts then x.sweeps || !gated && !x.frozen else x.moves) ∧ held = (!x.starts && !x.moves && x.held)
     let one (b : Bool) : Word := if b then 1 else 0
     ∃ t, step s = .next t ∧ t.agenda = rest ∧ t.cycle = s.cycle + 1 ∧ t.clocked = [] ∧ t.memory = s.memory
       ∧ (∀ v < 64, (t.iface v).credit = ((s.iface v).credit + s.shareOf v) % 2 ^ 32)
       ∧ (∀ row < 12, ∀ col < 24,
         let f := s.folio row col
         let counts (busy held : Bool) : Prop := (t.folio row col).busy = f.busy + one busy ∧ (t.folio row col).held = f.held + one held
           ∧ (t.folio row col).idle = f.idle + one (!busy && !held)
         (f.placed = 0 ∨ (∀ x ∈ s.clocked, x.sig + 1 ≠ f.placed) → counts false false)
         ∧ ∀ x ∈ s.clocked, f.placed = x.sig + 1 → (∀ y ∈ s.clocked, y.sig = x.sig → y = x) →
           ∀ busy held, spent x f.gated busy held → counts busy held)
       ∧ ∀ x ∈ s.clocked, (s.clocked.map (·.sig)).Nodup →
         let g := s.sig x.sig
         let q := t.sig x.sig
         let old := g.regions.get RegionCount.zero
         let new := q.regions.get RegionCount.zero
         ∀ busy held, spent x (s.folio g.row0 g.col0).gated busy held → g.status ≠ .saved →
           (x.starts = false → g.status ≠ .starting → q.time = g.time + (if x.moves then 1 else 0) ∧ q.hold = g.hold + one held)
           ∧ (x.starts = true ∨ g.status ≠ .starting →
             (busy = false → held = false → q.regions = g.regions)
             ∧ (busy = true ∨ held = true →
               let counted : RegionCount := ⟨(old x.region).busy + one busy, (old x.region).held + one held, s.cycle⟩
               (g.regions.length < 64 → ∀ k, new k = if k = x.region then counted else old k)
               ∧ (g.regions.length = 64 → (g.regions.map (·.1)).Nodup → 0 ∈ g.regions.map (·.1) → x.region ∉ g.regions.map (·.1) →
                 ∀ d ∈ g.regions, d.1 ≠ 0 → (∀ y ∈ g.regions, y.1 ≠ 0 → y ≠ d → d.2.lastUse < y.2.lastUse) →
                   new x.region = counted ∧ new d.1 = RegionCount.zero ∧ (new 0).busy = (old 0).busy + d.2.busy ∧ (new 0).held = (old 0).held + d.2.held
                   ∧ ∀ k, k ≠ x.region → k ≠ d.1 → k ≠ 0 → new k = old k))))
  ∧ (∀ s : State,
     let c := s.clock
     (∀ port < 8, ∃ t, exec (.ethernetPortDown port) s = .next t ∧ ∀ i, t.platform.ethUp.getLsbD i = (s.platform.ethUp.getLsbD i && i != port))
     ∧ (∀ port offset, s.platform.ptpPort = port →
         exec (.ptpMessageReceive port offset) s = .next { s with clock := { c with heard := true, missed := 0, synced := offset.natAbs < 1000 } })
     ∧ (∀ phase rate, c.correctable = true → ∃ t, exec (.servoCorrection phase rate) s = .next t
         ∧ -1000 ≤ t.clock.ratePpm ∧ t.clock.ratePpm ≤ 1000 ∧ (-1000 ≤ rate → rate ≤ 1000 → t.clock.ratePpm = rate)
         ∧ t.clock.time = c.time ∧ (0 ≤ phase → (t.clock.step : Int) = c.step + 5000000 * phase) ∧ (phase < 0 → t.clock.step = c.step)
         ∧ t.memory = s.memory)
     ∧ (∀ early, (c.tick early).step = 0 ∧ c.time + c.step ≤ (c.tick early).time)
     ∧ (∀ phase rate, c.correctable = false → exec (.servoCorrection phase rate) s = .next s)
     ∧ (∃ t, exec .syncLoss s = .next t ∧ t.clock.heard = false ∧ t.clock.correctable = c.heard ∧ t.clock.time = c.time
         ∧ (c.heard = false → 15 ≤ c.missed → t.clock.synced = false)
         ∧ (c.heard = true ∨ c.missed < 15 → t.clock.synced = c.synced))
     ∧ (∀ port, s.platform.ptpPort = port → s.platform.ethUp.getLsbD port = true →
         ∃ sent, exec (.precisionTimeMessageSend port) s = .next { s with ptpSent := sent ++ s.ptpSent, free := s.free + 1 }
           ∧ (s.platform.ethcfg.getLsbD 19 = false → sent = [(port, 0)])
           ∧ sent ∈ [[(port, 0)], [(port, 2), (port, 1)], [(port, 3)], [(port, 4)]])
     ∧ (∀ f : Frame, f.fcs = false → ∀ i ∈ [Instr.collGrantReceive f, .collDataFrameReceive f, .collAckReceive f],
         exec i s = .next { s with platform := { s.platform with badFcs := s.platform.badFcs + 1 } }))
  ∧ (∀ (s : State) (die : Nat),
       let b := s.dieBuffers.get DieBuffer.zero die
       let p := s.platform
       (die < 9 → ∀ k < 32,
         let rc := dieFolio die k
         let f := s.folio rc.1 rc.2
         (∀ j < 32, j ≠ k → (s.folio (dieFolio die j).1 (dieFolio die j).2).staging.records = []) → b.area.records.length + 64 ≤ 131072 →
         ∃ t, exec (.traceStageDrain die) s = .next t ∧ t.memory = s.memory
           ∧ (t.folio rc.1 rc.2).staging.records = f.staging.records.drop 8
           ∧ (t.dieBuffers.get DieBuffer.zero die).area.records = b.area.records ++ f.staging.records.take 8)
       ∧ (∀ r rest, s.keysServed = true → b.area.records = r :: rest → (p.tringWrite - p.tringRead).toNat ≠ 2 ^ 23 →
         ∃ t, exec (.traceRingCopy die) s = .next t ∧ (t.dieBuffers.get DieBuffer.zero die).area.records = rest
           ∧ t.platform.tringWrite = p.tringWrite + 1 ∧ t.platform.ring.get 0 (p.tringWrite.toNat % 2 ^ 23) = r ∧ t.memory = s.memory))

/-! ### Registers -/

/-- R303, R304, R320, R338, R341, R342, R351: the registers of an interface read and write as their apertures allow, their reserved bits are
dropped, and a closed register, or a write of a read-only one, is recorded; SVC answers in every state; MCAP takes 1,500 to 7,200; TRING's read
index advances to the write index at most; CARVE and ECARVE keep their fields, and ECARVE is written once, in state 2; what a carve-out leaves
behind is open (log 73, DEDUCED). Which bits a write keeps, and when the
carve-out registers take one, is the model's reading (logs 55 and 64, DEDUCED); that CARVE takes no size out of its range is its choice (log 80,
DESIGN CHOICE). -/
def Obligations.RegisterAccess : Prop :=
  ∀ (s : State) (vif : Nat),
    let f := s.iface vif
    let p := s.platform
    let at_ (off : Nat) : Nat := vif * 0x10000 + off
    let plain : List (Nat × Word × Word × (Word → Iface)) :=
      [(0x1000, f.ictl, 0x1FFFF, fun x => { f with ictl := x }), (0x1008, f.iaddr, 0x0003FFFFFFFFFFF8, fun x => { f with iaddr := x }),
       (0x1010, f.farea, 0x00FFFFFFFFFFF01F, fun x => { f with farea := x }), (0x1018, f.troot, 0x0007FFFFFFF00000, fun x => { f with troot := x }),
       (0x1020, f.rtab, 0x0007FFFFFFC00000, fun x => { f with rtab := x }), (0x1028, f.darea, 0x00FFFFFFFFC00000, fun x => { f with darea := x }),
       (0x1030, f.jctl, 0xF, fun x => { f with jctl := x }), (0x1040, f.conf, 0xFFFFF0001, fun x => { f with conf := x })]
    let recorded (off : Nat) : State := s.report vif (FaultInfo.report 0x22 4 off 0)
    let answers (i : Instr) (v : Word) : Prop := exec i s = .next { s with readValue := v }
    (s.serving = true → vif < 64 →
      (∀ e ∈ plain, answers (.registerRead true (at_ e.1)) e.2.1
        ∧ ∀ x, e.1 ≠ 0x1020 → exec (.registerWrite true (at_ e.1) x) s = .next (s.setIface vif (e.2.2.2 (x &&& e.2.2.1))))
      ∧ (∀ x, ∃ t, exec (.registerWrite true (at_ 0x1020) x) s = .next t ∧ t.iface vif = { f with rtab := x &&& 0x0007FFFFFFC00000 }
        ∧ (∀ e ∈ t.journal.addressing, e.1 ≠ vif) ∧ t.memory = s.memory)
      ∧ (∀ off ∈ [0x1000, 0x1008], ∀ x, exec (.registerWrite false (at_ off) x) s = exec (.registerWrite true (at_ off) x) s)
      ∧ (∀ off ∈ [0x1010, 0x1028, 0x1030, 0x1040, 0x2000, 0x47F8, 0x6000, 0x6008], ∀ x, exec (.registerWrite false (at_ off) x) s = .next (recorded off))
      ∧ (∀ off ∈ [0x1018, 0x1020, 0x1090, 0x10B0, 0x10B8, 0x7000, 0x7008, 0x7040, 0x10C0, 0x1004], ∀ x,
        exec (.registerWrite false (at_ off) x) s = .next (recorded off)
        ∧ exec (.registerRead false (at_ off)) s = .next { recorded off with readValue := 0 })
      ∧ answers (.registerRead false (at_ 0x6000)) (BitVec.ofNat 64 s.ns)
      ∧ answers (.registerRead true (0x400030)) p.mcap ∧ answers (.registerRead true 0x400040) p.ecarve
      ∧ answers (.registerRead true 0x400048) (if s.tlbinv.isSome then 1 else 0)
      ∧ (∀ x, exec (.registerWrite true 0x400030 x) s = exec (.mcapWrite x) s ∧ exec (.registerWrite true 0x400038 x) s = exec (.carveWrite x) s)
      ∧ (∀ x, 1500 ≤ x.toNat → x.toNat ≤ 7200 → exec (.mcapWrite x) s = .next { s with platform := { p with mcap := x } })
      ∧ (∀ x, x.toNat < 1500 ∨ 7200 < x.toNat → exec (.mcapWrite x) s = .next s)
      ∧ (∀ x, let new := x.extractLsb' 0 32
        (p.tringWrite - p.tringRead < new - p.tringRead → exec (.tringWrite x) s = .next s)
        ∧ (new - p.tringRead ≤ p.tringWrite - p.tringRead → ∃ t, exec (.tringWrite x) s = .next t ∧ t.platform.tringRead = new
          ∧ t.platform.tringWrite = p.tringWrite ∧ t.memory = s.memory
          ∧ ∀ i < (p.tringWrite - new).toNat, t.platform.ring.get 0 ((new.toNat + i) % 2 ^ 23) = p.ring.get 0 ((new.toNat + i) % 2 ^ 23)))
      ∧ (∀ x, let size := (x.extractLsb' 56 8).toNat
        (1 ≤ size ∧ size ≤ 64 → ∃ t, exec (.carveWrite x) s = .next t ∧ t.platform.carve = x &&& 0xFF07FFFFC0000000 ∧ t.platform.mcap = p.mcap
          ∧ t.memory = if p.service = 3 ∧ x &&& 0xFF07FFFFC0000000 ≠ p.carve then (s.leaveSealed s.carveOuts).memory else s.memory)
        ∧ (size = 0 ∨ 64 < size → exec (.carveWrite x) s = .next s)))
    ∧ answers (.registerRead true 0x400018) (BitVec.ofNat 64
        (p.service % 8 + p.fail % 2 ^ 8 * 2 ^ 8 + (if p.cwait then 2 ^ 18 else 0) + (if p.thermal = 0 then 0 else 2 ^ 19)))
    ∧ (∀ x, p.service = 2 → 1 ≤ (x.extractLsb' 56 8).toNat → (x.extractLsb' 56 8).toNat ≤ 64 →
        (p.ecarveWritten = false → exec (.ecarveWrite x) s = .next { s with
          platform := { p with ecarve := x &&& 0xFF03FFFFC0000000, ecarveWritten := true } })
        ∧ (p.ecarveWritten = true → exec (.ecarveWrite x) s = .next s))

/-- R320, R322, R323, R324: DSEL moves one item between DATA and an element or a spine, under the current generation, where the world of the
folio's active plane permits it while the device is stopped; a debug stop stands for every placed signature and lasts until a RESUME. That DSEL keeps
every bit written is the model's choice (log 80, DESIGN CHOICE); what else a debugger is refused, and the widths of an access, is its reading (log 18,
DEDUCED). -/
def Obligations.Debugging : Prop :=
  ∀ (s : State) (vif : Nat),
    let d := s.debugger
    (s.serving = true → ∀ sel : Word,
      let t := DebugTarget.ofWord sel
      let f := s.folio (t.row / 16) (t.col / 16)
      let e := s.element t.row t.col
      let down : Word := sel &&& 0x7FFFFFFFFFFFFFFF
      let up : Word := sel ||| 0x8000000000000000
      let status (gen : Gen) : Word := gen.setWidth 64 ||| (f.gen.setWidth 64 <<< 16)
      let gets (x : Tile) (gen : Gen) : Prop :=
        exec (.dselRead vif sel) s = .next { s with debugger := { d with dsel := down, data := x, dstat := status gen } }
      let refusedRead : Prop := exec (.dselRead vif sel) s = .next { s with debugger := { d with dsel := down, dstat := 0x100000000 } }
      (s.debugAllowed t = false →
        refusedRead ∧ exec (.dselWrite vif sel) s = .next { s with debugger := { d with dsel := up, dstat := 0x100000000 } })
      ∧ (s.debugAllowed t = true →
        (t.kind = 7 → 0 < t.index → t.index < 32 →
          gets ((f.spine.g.get 0 t.index).setWidth 2048) f.gen
          ∧ ∃ u, exec (.dselWrite vif sel) s = .next u ∧ (u.folio (t.row / 16) (t.col / 16)).spine.g.get 0 t.index = d.data.setWidth 64
            ∧ u.memory = s.memory)
        ∧ (∀ x, e.debugItem t.kind t.index = some x → t.kind < 7 →
          (x.poison = true → refusedRead)
          ∧ (x.poison = false → gets x.value x.gen)
          ∧ ∃ u y, exec (.dselWrite vif sel) s = .next u ∧ (u.element t.row t.col).debugItem t.kind t.index = some y ∧ y.gen = f.gen
            ∧ y.poison = false ∧ y.value.toNat = d.data.toNat % 2 ^ ([512, 2048, 32, 64, 41, 512, 15].getD t.kind 0) ∧ u.memory = s.memory)))
    ∧ (∀ cause code,
      ((s.iface vif).armed = true → d.stopped = false → ∃ t, exec (.debugStop vif cause code) s = .next t ∧ t.debugger.stopped = true
        ∧ t.debugger.cause = cause ∧ t.debugger.code = code ∧ t.debugger.vif = vif ∧ t.memory = s.memory
        ∧ ∀ n ∈ s.placedSigs, ∃ w ∈ (t.sig n).waves, w.cause = .debug ∧ w.from_ = if (s.sig n).held then s.cycle else s.cycle + 12)
      ∧ ((s.iface vif).armed = false ∨ d.stopped = true → exec (.debugStop vif cause code) s = .next s))
    ∧ (d.stopped = true → d.answers = [] → (∀ n ∈ s.placedSigs, ∀ w ∈ (s.sig n).waves, w.parked = false) →
        ∃ t, exec (.dbgResume vif) s = .next t ∧ t.debugger.stopped = false ∧ t.memory = s.memory
        ∧ ∀ n ∈ s.placedSigs, ∀ w, w ∈ (t.sig n).waves ↔ w ∈ (s.sig n).waves ∧ w.cause ≠ .debug)

/-- R351 to R355, R381: an answer that its record permits is accepted once; ABORT ends the launch by fault, or drops a copy of the DMA port;
RESUME passes over the faulting slot; RETRY performs it, or issues its requests again, from where their port stands and once it may; a stop lifts
12 cycles after its last answer. Any other answer, one that its record does not permit among them, is recorded, and one to a lapsed record is discarded; one to a STOP record in a debug stop waits for RESUME (R395). -/
def Obligations.FaultAnswers : Prop :=
  ∀ (s : State) (vif seq : Nat),
    let f := s.iface vif
    let discarded (i : Instr) : Prop := exec i s = .next s
    let recorded (i : Instr) : Prop := exec i s = .next (s.report vif (FaultInfo.report 0x22 4 0x10A8 0))
    let answer : List Instr := [.frespAbort vif seq, .frespResume vif seq, .frespRetry vif seq]
    (f.record seq = none → ∀ i ∈ answer, recorded i)
    ∧ ∀ r, f.record seq = some r →
      let g := s.sig r.sig
      let p := s.spineOf r.sig
      let permits (act : Nat) : Prop := (r.disp = 1 ∨ r.disp = 2) ∧ r.acts / 2 ^ act % 2 = 1
      let lifts (t : State) : Prop :=
        ∀ st, g.vif = vif → (∀ q ∈ f.records, q.disp = 2 → q.sig = r.sig → q.lapsed = true ∨
            (q.seq = seq ∨ q.answered = true) ∧ ∀ x ∈ s.debugger.answers, x.1 = vif → x.2.1 ≠ q.seq) → g.stop = some st →
          st.inForce = true → (t.sig r.sig).stop = some { st with lifts := some (s.cycle + 12) }
      let answered (t : State) : Prop := ∃ q, (t.iface vif).record seq = some q ∧ q.answered = true
      (s.recordLapsed r = true → ∀ i ∈ answer, discarded i)
      ∧ (s.recordLapsed r = false → r.answered = true ∨ r.disp = 0 ∨ r.disp = 3 → ∀ i ∈ answer, recorded i)
      ∧ (s.recordLapsed r = false → ∀ act < 3, ¬permits act → recorded (answer.getD act (.frespAbort vif seq)))
      ∧ (s.recordLapsed r = false → r.answered = false → s.debugger.stopped = true → r.disp = 2 → ∀ act < 3, permits act →
        exec (answer.getD act (.frespAbort vif seq)) s = .next ((s.markAnswered vif seq).parkAnswer vif seq act))
      ∧ (s.recordLapsed r = false → r.answered = false → s.debugger.stopped = false ∨ r.disp = 1 →
        (permits 0 → r.sig ≠ 0 → s.onFabric r.sig = true → ∃ t, exec (.frespAbort vif seq) s = .next t ∧ answered t
          ∧ (t.sig r.sig).status = .draining ∧ (t.sig r.sig).byFault = true ∧ (t.sig r.sig).stop = none ∧ (t.spineOf r.sig).phase = .ended
          ∧ t.memory = s.memory)
        ∧ (permits 0 → r.sig ≠ 0 → g.status = .saved → (∀ x ∈ g.ctxs, x.2.kind ≠ .coll) → ∃ t, exec (.frespAbort vif seq) s = .next t ∧ t.sig r.sig = Sig.unused)
        ∧ (∀ d, r.sig = 0 → s.dma.find? (fun d => d.vif = vif && d.hold = some seq) = some d →
          (permits 0 → ∃ t, exec (.frespAbort vif seq) s = .next t ∧ answered t ∧ t.dma = s.dma.filter (·.id ≠ d.id) ∧ t.memory = s.memory)
          ∧ (permits 2 → ∃ t, exec (.frespRetry vif seq) s = .next t ∧ answered t ∧ t.dma.find? (·.id = d.id) = some { d with hold := none }
            ∧ t.memory = s.memory))
        ∧ (r.sig ≠ 0 → s.onFabric r.sig = true →
          (∀ b, permits 1 → r.unit = 0 → r.request = 0 → p.phase = .faulted b → ∃ t, exec (.frespResume vif seq) s = .next t ∧ answered t
            ∧ (t.spineOf r.sig).phase = .leave ∧ (t.spineOf r.sig).g = p.g ∧ lifts t ∧ t.memory = s.memory)
          ∧ (permits 1 → r.unit ≠ 0 → ∃ t, exec (.frespResume vif seq) s = .next t ∧ answered t ∧ (t.spineOf r.sig).phase = p.phase ∧ lifts t
            ∧ t.memory = s.memory)
          ∧ (∀ b, permits 2 → r.disp = 2 → r.request = 0 → p.phase = .faulted b → ∃ t, exec (.frespRetry vif seq) s = .next t ∧ answered t
            ∧ (t.spineOf r.sig).phase = (if b then .slotB else .slotA) ∧ (t.spineOf r.sig).g = p.g ∧ lifts t ∧ t.memory = s.memory)
          ∧ (∀ q, permits 2 → r.disp = 1 ∨ r.request ≠ 0 → s.requests = [q] → s.joined r.sig seq = [q] → q.source = .spine r.sig → q.key = .world →
            q.va.extractLsb' 56 8 = 0 →
            let die := dieOf g.row0 g.col0
            let goes : Prop := if g.reissue then s.runs r.sig = true else s.portsIssue r.sig = true
            s.tlbHit die q.vif q.va.toNat = none →
            ∃ t, exec (.frespRetry vif seq) s = .next t ∧ answered t ∧ lifts t ∧ t.memory = s.memory
              ∧ (goes → t.requests = [{ q with entered := 0, bad := false, die, stage := .translate }])
              ∧ (¬goes → t.requests = [q.resolved]))))

/-- R91, R377: a world key is drawn for an interface that has none, and is not destroyed while something of its world is left. R365, R368, R369:
an uncorrectable error leaves what it strikes poisoned, broken, invalid, ended or gone, by its place. What a key operation out of its conditions
does, and what the errors of classes 9 to 11 strike, is the model's reading (logs 57 and 65, DEDUCED). -/
def Obligations.KeysAndErrors : Prop :=
  (∀ (s : State) (vif : Nat),
     let f := s.iface vif
     (s.keysServed = true → f.worldKey = none → exec (.worldKeyCreate vif) s =
       .next { s.setIface vif { f with worldKey := some (drawKey s.free) } with free := s.free + 1 })
     ∧ (s.worldInUse vif = false → exec (.worldKeyDestroy vif) s = .next (s.setIface vif { f with worldKey := none }))
     ∧ (s.worldInUse vif = true → exec (.worldKeyDestroy vif) s = .next s))
  ∧ (∀ s : State,
       let strikes (p : ErrorPlace) (t : State) : Prop := exec (.uncorrectableError p) s = .next t
       (∀ row col i,
         let e := s.element row col
         (i < 28 → ∃ t, strikes (.elementRegister row col 0 i) t ∧ (t.element row col).v.get VReg.zero i = { e.v.get VReg.zero i with poison := true }
           ∧ t.memory = s.memory)
         ∧ (i < 1536 → ∃ t, strikes (.granule row col i) t
           ∧ (t.element row col).pad.get (Tagged.zero 512) i = { e.pad.get (Tagged.zero 512) i with poison := true } ∧ t.memory = s.memory))
       ∧ (∀ u, homeOf (64 * u) ≠ none → ∃ t, strikes (.memoryUnit u) t ∧ u ∈ t.poisonedUnits ∧ t.memory = s.memory)
       ∧ (∀ n, (s.keySlot n).live = true → ∃ t, strikes (.wrappedKey n) t ∧ (s.keySlot n).epoch ∈ (t.keySlot n).broken ∧ t.memory = s.memory)
       ∧ (∀ folio plane,
         let f := s.folio (folio / 24) (folio % 24)
         f.placed = 0 → (f.plane plane).state = .loading →
         ∃ t, strikes (.loadingPlane folio plane) t ∧ ((t.folio (folio / 24) (folio % 24)).plane plane).state = .invalid)
       ∧ (∀ sig, s.onFabric sig = true → ∃ t, strikes (.signatureLogic sig) t ∧ (t.sig sig).status = .draining ∧ (t.sig sig).byFault = true)
       ∧ ((∀ n ∈ s.placedSigs, (s.spineOf n).readAhead = [] ∧ ∀ x ∈ (s.sig n).ctxs, x.2.kind = .stream → x.2.units = []) → s.tlb ≠ [] ∨ s.keyCache ≠ [] →
         ∃ t, strikes .cache t ∧ t.tlb.length + t.keyCache.length + 1 = s.tlb.length + s.keyCache.length ∧ t.memory = s.memory)
       ∧ (∀ die,
         let a := (s.dieBuffers.get DieBuffer.zero die).area
         a.records ≠ [] → a.gap = none → s.platform.ring = [] →
         (∀ k < 32, (s.folio (dieFolio die k).1 (dieFolio die k).2).staging.records = []) →
         ∃ t i r g, strikes (.traceRecord die) t ∧ a.records[i]? = some r
           ∧ (t.dieBuffers.get DieBuffer.zero die).area.records = a.records.eraseIdx i ++ [g] ∧ traceEvent g = 0xFF
           ∧ tracePayload g = dropCount r % 2 ^ 64 ∧ t.memory = s.memory)
       ∧ (∀ sig, (s.sig sig).status = .starting → (s.sig sig).image ≠ [] →
         ∃ t, strikes (.savedImage sig) t ∧ (t.sig sig).status = .saved ∧ (t.sig sig).image = (s.sig sig).image ∧ t.memory = s.memory))

/-! ### The journal at work -/

/-- R193, R270, R271, R273, R280, R304: a legal proposal of the engine, where PROPEN permits its class, or of privileged software takes the next number
and is PROPOSED with its after-descriptor stored; JPRV then reads its number, and the engine proposes nothing where PROPEN does not permit it. That each
of the two may have 16 PROPOSED on every interface is the model's choice (log 91, DESIGN CHOICE); that a proposal may stand at any address is its reading
(log 40, DEDUCED). -/
def Obligations.Proposals : Prop :=
  ∀ (s v : State) (vif cls valid thresh trial d : Nat) (object at_ : Word) (after proposal : Vec),
    let n := s.journal.next
    let entered (src : Nat) (i : Instr) (t : State) : Prop :=
      exec i s = .next t ∧ t.journal.next = n + 1 ∧ ∃ x, t.tx n = some x ∧ x.state = .proposed ∧ x.vif = vif ∧ x.cls = cls ∧ x.object = object
        ∧ x.src = src ∧ x.after = d ∧ x.afterBytes = after ∧ x.thresh = (if thresh = 0 then 1311 else thresh)
        ∧ x.wlog = (if trial = 0 then 20 else trial) ∧ x.validUntil = s.cycle + if valid = 0 then 2 ^ 30 else valid
    let legal (src : Nat) : Prop :=
      (s.journal.txs.filter fun t => t.state == .proposed && t.src == src && t.proposer == 0 && t.vif == vif).length < 16
        ∧ s.objectExists vif src 0 cls object after = true ∧ s.descriptorValid vif src cls object after = true
    s.serving = true → proposalFields proposal = some (cls, object, at_, valid, thresh, trial) → s.platform.service = 3 ∨ cls = 3 →
    (∀ x ∈ s.journal.txs, x.num < n) → s.writeDescriptor vif after = some (v, d) →
      ((s.iface vif).jctl.getLsbD cls = true → legal 0 → ∃ t, entered 0 (.engineProposal vif proposal after) t)
      ∧ ((s.iface vif).jctl.getLsbD cls = false → exec (.engineProposal vif proposal after) s = .next s)
      ∧ (∀ addr b b2, s.readBytes vif 3 addr 64 = .ok b → BitVec.ofNat 512 (natOf b) = proposal → s.readBytes vif 3 at_ 64 = .ok b2 →
        BitVec.ofNat 512 (natOf b2) = after → legal 2 →
        ∃ t, entered 2 (.jprv vif addr) t ∧ (t.iface vif).jprv = BitVec.ofNat 64 n)

/-- R274, R277, R280, R281, R289: a POL or a RESERVE is applied at once, a ROUTE and the first step of a move at their signature's seam, an FMT
after its range is closed; each has its before-descriptor stored, and then stands APPLIED, or SETTLED where it has no trial. A proposal whose
validity has ended is WITHDRAWN. -/
def Obligations.Application : Prop :=
  ∀ (s v : State) (number d : Nat) (t : Tx),
    let apply := exec (.transactionApply number) s
    let sig := objSig t.object
    let ridx := objIdx t.object
    let final (u : State) (state : TxState) : Prop := ∃ x, u.tx number = some x ∧ x.state = state ∧ x.before = d ∧ x.beforeBytes = s.beforeOf t
    let stands (u : State) : Prop := final u (if t.noTrial then .settled else .applied)
    let seam : Prop := s.seamTx sig = some t ∧ s.atSeam sig = true
    let nf : BitVec 8 := (blockWord t.afterBytes 1).extractLsb' 0 8
    s.tx number = some t → t.replay = 0 → t.rv = false → s.serving = true →
    (∀ r ∈ s.journal.reverts, r.num ≠ number ∧ number ∉ r.members) →
      (s.mayApply t = true → s.writeDescriptor t.vif (s.beforeOf t) = some (v, d) →
        t.noTrial = true ∨ (t.ended = false ∧ ∃ m, t.measuredSig = some m ∧ s.sigs.any (fun x => x.1 == m) = true) →
        (t.cls = 3 → ∃ u, apply = .next u ∧ stands u ∧ (u.iface t.vif).policy = (s.iface t.vif).policy.withPol t.afterBytes)
        ∧ (t.cls = 0 → partOp t.afterBytes = 2 → s.targetFree t 0 t.target = true → ∃ u, apply = .next u ∧ final u .applied)
        ∧ (t.cls = 1 → seam → s.ethReachable t.afterBytes = true → s.routeInside sig t.afterBytes = true →
          ∃ u, apply = .next u ∧ stands u ∧ u.route sig ridx = t.afterBytes)
        ∧ (∀ w, t.cls = 2 → t.stage = 1 → s.fmtFree t = true → (∃ w, s.applyFmt t = .inr w) → v.applyFmt t = .inr w →
          (t.noTrial = false ∨ s.dependencies t = [] → ∃ u, exec (.fmtApply number) s = .next u ∧ stands u)
          ∧ (s.memory.wf = true → t.spare ≠ ridx → t.spare < 65536 → ridx < 65536 →
            let now := Range.ofVec (w.rangeVec t.vif ridx)
            now.sfmt = nf ∧ now.pbase = (Range.ofVec (v.rangeVec t.vif t.spare)).pbase)))
      ∧ (s.mayApply t = true →
        (t.cls = 2 → t.stage = 0 → apply = .next (s.updateTx number fun t => { t with stage := 1 }))
        ∧ (t.cls = 0 → partOp t.afterBytes ≠ 2 → seam → t.broken = false → t.stage = 0 → s.targetFree t sig t.target = true →
          ∃ u x, apply = .next u ∧ u.tx number = some x ∧ x.stage = 1 ∧ x.state = .proposed ∧ u.memory = s.memory)
        ∧ (t.cls = 1 → seam → s.routeInside sig t.afterBytes = false →
          ∃ u x, apply = .next u ∧ u.tx number = some x ∧ x.state = .aborted ∧ x.cause = 10))
      ∧ (t.state = .proposed → t.validUntil ≤ s.cycle → t.moving = false →
        ∃ u x, exec (.proposalValidityExpiry number) s = .next u ∧ u.tx number = some x ∧ x.state = .withdrawn
          ∧ x.cause = if t.deferred then 4 else 5)

/-- R274, R283, R285: a trial begins with its signature's first unfrozen cycle; when its window ends its rate decides between a revert and
SETTLED; one that never ends is SETTLED after 2^32 wall cycles. R296: a causal trial measures one window, and then one in which every 256 cycles
outside its region ask for F cycles of freeze. -/
def Obligations.TrialsMeasured : Prop :=
  (∀ (s : State) (number m : Nat) (t : Tx),
     let enters (i : Instr) (state : TxState) (x : Tx) : Prop := ∃ u, exec i s = .next u ∧ u.tx number = some x ∧ x.state = state
     let trate := rateOf t.byProg (risen t.trialStart.2 (s.meterNow m))
     let reverted : Prop := 4096 ≤ t.baseline.2.2 ∧ trate * 2 ^ 16 < t.brate * (2 ^ 16 - t.thresh)
     s.tx number = some t → t.measuredSig = some m → s.reverting number = false → t.closing = none → t.stage ≠ 4 →
       (t.state = .applied → t.noTrial = false → t.rv = false → s.runs m = true →
         ∃ x, enters (.trialStart number) .trial x ∧ x.trialStart = ((s.sig m).time, s.meterNow m) ∧ x.trialCycle = s.cycle)
       ∧ (t.state = .trial → t.windowDone = false → t.trialStart.1 + 2 ^ t.wlog ≤ (s.sig m).time →
         (¬reverted → s.depsSettled t = true → ∃ x, enters (.trialWindowEnd number) .settled x ∧ x.trate = trate)
         ∧ (reverted → ∃ u, exec (.trialWindowEnd number) s = .next u ∧ u.reverting number = true))
       ∧ (t.state = .trial → t.windowDone = false → t.trialCycle + 2 ^ 32 ≤ s.cycle → s.depsSettled t = true →
         ∃ x, enters (.trialTimeout number) .settled x ∧ x.cause = 13))
  ∧ (∀ (s : State) (sig region fraction wlog : Nat),
       let g := s.sig sig
       let trial := exec (.causalTrial sig region fraction wlog) s
       (s.causalRun sig = none → sig ∈ s.placedSigs → 1 ≤ fraction → fraction ≤ 255 → 12 ≤ wlog → wlog ≤ 32 →
         ∃ t r, trial = .next t ∧ t.causalRun sig = some r ∧ r.region = region ∧ r.fraction = fraction ∧ r.wlog = wlog ∧ r.started = false
           ∧ t.memory = s.memory)
       ∧ ∀ r, s.causalRun sig = some r →
         ((∀ t ∈ s.journal.txs, t.state ≠ .trial) → s.runs sig = true →
           (r.started = false →
             trial = .next (s.setCausal { r with started := true, start := (g.time, s.meterNow sig), outside := 0, owed := 0 }))
           ∧ (r.started = true → r.start.1 + 2 ^ r.wlog ≤ g.time →
             (r.delaying = false → ∃ t q, trial = .next t ∧ t.causalRun sig = some q ∧ q.delaying = true ∧ q.first = risen r.start.2 (s.meterNow sig)
               ∧ t.memory = s.memory)
             ∧ (r.delaying = true → ∃ t, trial = .next t ∧ t.causalRun sig = none)))
         ∧ (let due := r.delaying = true ∧ 256 ≤ r.outside
           let causal := ∃ w ∈ g.waves, w.cause = .causal
           let delay := exec (.causalDelay sig) s
           (due → ∃ t, delay = .next t ∧ t.causalRun sig = some { r with outside := r.outside - 256, owed := r.owed + r.fraction }
             ∧ t.memory = s.memory)
           ∧ (¬causal → ¬due → r.owed ≠ 0 → ∃ t, delay = .next t ∧ ∃ w ∈ (t.sig sig).waves, w.cause = .causal ∧ w.inForce = false)
           ∧ (causal → ¬due → r.owed = 0 → ∃ t, delay = .next t ∧ ∀ w, w ∈ (t.sig sig).waves ↔ w ∈ g.waves ∧ w.cause ≠ .causal)))

/-- R275, R286, R287, R304, R389: a forced revert is taken for a transaction of the interface that stands in trial or is settled, and JREV reads
0, or it is refused with its CAUSE in JREV. The members of a compound revert are undone latest first, each by its before-descriptor. What is
refused with CAUSE 14, and the record of a compound revert, is the model's reading (logs 37 and 46, DEDUCED). -/
def Obligations.Reverts : Prop :=
  ∀ s : State,
    (s.serving = true → ∀ (vif : Nat) (number : Word),
      let n := number.toNat
      let refused (c : Word) : Prop := ∃ u, exec (.jrev vif number) s = .next u ∧ (u.iface vif).jrev = c
      (s.tx n = none → refused 14)
      ∧ ∀ t, s.tx n = some t →
        let standing : Prop := (t.state = .trial ∨ t.state = .settled) ∧ s.reverting n = false
        (t.vif ≠ vif ∨ ¬standing → refused 14)
        ∧ (t.vif = vif → standing → t.rv = true → refused 12)
        ∧ (t.vif = vif → standing → t.rv = false → s.settledDependent n = true → refused 11)
        ∧ (t.vif = vif → standing → t.rv = false → s.settledDependent n = false → t.stage ≠ 4 →
          ∃ u, exec (.jrev vif number) s = .next u ∧ (u.iface vif).jrev = 0 ∧ u.reverting n = true))
    ∧ ∀ (number : Nat) (r : CompoundRevert) (t : Tx),
      let undo := exec (.compoundRevertUndo number) s
      let undone (u : State) : Prop :=
        ∃ x, u.tx t.num = some x ∧ x.state = .reverted ∧ x.link = number ∧ x.cause = if r.ofReplay then 15 else if t.num = r.target then r.cause else 3
      let seam : Prop := t.stage ≠ 3 ∧ s.atSeam (objSig t.object) = true
      s.journal.reverts.find? (fun r => r.num = number) = some r → r.next.bind s.tx = some t → (∀ q ∈ s.journal.reverts, q.num ≠ t.num) →
      t.state ≠ .proposed → s.dependedOn t.num = false → s.serving = true →
        (t.cls = 0 → partOp t.afterBytes = 2 → ∃ u, undo = .next u ∧ undone u)
        ∧ (t.cls = 0 → partOp t.afterBytes ≠ 2 → seam → t.stage = 0 → t.broken = false → s.beforeReadable t = true →
          s.targetFree t (objSig t.object) t.vacated = true → ∃ u x, undo = .next u ∧ u.tx t.num = some x ∧ x.stage = 1)
        ∧ (t.cls = 1 → seam → s.beforeReadable t = true →
          ∃ u, undo = .next u ∧ undone u ∧ u.route (objSig t.object) (objIdx t.object) = t.beforeBytes)
        ∧ (t.cls = 2 → t.stage = 0 → undo = .next (s.updateTx t.num fun t => { t with stage := 1 }))
        ∧ (∀ w, t.cls = 2 → t.stage ≠ 0 → s.fmtFree t = true → s.beforeReadable t = true → s.undoFmt t = some w → ∃ u, undo = .next u ∧ undone u)
        ∧ (t.cls = 3 → s.beforeReadable t = true →
          ∃ u, undo = .next u ∧ undone u ∧ (u.iface t.vif).policy = (s.iface t.vif).policy.withPol t.beforeBytes)

/-! ### The platform -/

/-- R330 to R332, R341: a module reset leaves every part of the module as after reset, and keeps host memory, where what a carve-out leaves behind is open (log 73, DEDUCED); a component whose signature
verifies under the fused key extends its measurement register, and one that does not halts the module with its order as cause. R331, R335 to
R337: the early path leads to service state 2; the move to state 3 freezes every placed signature, waits for CARVE, and then lets them go on; a
training failure halts with its cause, but that of an Ethernet port only keeps the port down. What a reset keeps, and the cause of a failure in
VERIFY off the service path, is the model's reading (logs 52 and 53, DEDUCED). -/
def Obligations.BringUpAndService : Prop :=
  (∀ s : State,
     let p := s.platform
     let left := s.leaveSealed s.hostCarveOut
     let reset (i : Instr) (running : Bool) : Prop :=
       ∃ t, exec i s = .next t ∧ t.platform = { State.reset.platform with running } ∧ t.sigs = [] ∧ t.requests = [] ∧ t.ifaces = State.reset.ifaces
         ∧ t.journal = State.reset.journal ∧ t.elements = [] ∧ t.folios = [] ∧ t.tlb = [] ∧ t.keySlots = State.reset.keySlots ∧ t.cycle = 0
         ∧ t.inputs = s.inputs ∧ (left.memory.wf = true → ∀ a, t.memory.read a = if 2 ^ 50 ≤ a then left.memory.read a else State.reset.memory.read a)
     (p.running = false → reset .rstNDeassert true)
     ∧ reset .rstNAssert false
     ∧ (∀ bytes keyX keyY sigR sigS, p.running = true → p.service ≤ 1 → 1 ≤ p.order → p.order ≤ 6 →
         let component := exec (.verifyComponent p.order bytes keyX keyY sigR sigS) s
         let genuine := componentVerified bytes keyX keyY sigR sigS
         (genuine = true → ∃ t, component = .next t ∧ t.platform.order = p.order + 1 ∧ t.platform.service = 1
           ∧ (∀ i < 16, t.platform.measurements.get 0 i = if i + 1 = p.order then
               digestBits (sha384 (digestBytes (p.measurements.get 0 i) ++ sha384 bytes)) else p.measurements.get 0 i)
           ∧ (p.order ≠ 2 → p.order ≠ 3 → t.platform.fwver = p.fwver) ∧ t.memory = s.memory)
         ∧ (genuine = false → ∃ t, component = .next t ∧ t.platform.service = 4 ∧ t.platform.fail = p.order
           ∧ t.platform.measurements = p.measurements ∧ t.memory = s.memory)))
  ∧ (∀ s : State,
       let p := s.platform
       let full := exec .fullServiceTransition s
       (p.service = 1 → p.order = 7 → exec .earlyTrainingComplete s = .next { s with platform := { p with service := 2 } })
       ∧ (p.service = 2 → p.moving = false → s.debugger.stopped = false → s.placedSigs ≠ [] → (∀ n ∈ s.placedSigs, (s.sig n).waves = []) →
           ∃ t, full = .next t ∧ t.platform.service = 2 ∧ t.platform.moving = true ∧ t.memory = s.memory
             ∧ ∀ n ∈ s.placedSigs, ∃ w ∈ (t.sig n).waves, w.cause = .service ∧ w.inForce = false)
       ∧ (p.service = 2 → p.moving = true → s.movedFrozen = true →
           (p.carve = 0 → full = .next { s with platform := { p with trained := true, cwait := true } })
           ∧ (p.carve ≠ 0 → ∃ t, full = .next t ∧ t.platform.service = 3 ∧ t.platform.cwait = false ∧ t.platform.moving = false
             ∧ t.platform.ethUp = ~~~p.ethFailed ∧ t.memory = (s.leaveSealed s.hostCarveOut).memory
             ∧ ∀ n ∈ s.placedSigs, ∀ w, w ∈ (t.sig n).waves ↔ w ∈ (s.sig n).waves ∧ w.cause ≠ .service))
       ∧ (∀ service die, die < 9 → p.service = 1 ∨ p.service = 2 →
           exec (.trainingFailure service die) s = .next { s with
             platform := { p with service := 4, fail := if p.service = 1 ∧ service = true then 0x28 else 0x20 + die } })
       ∧ (∀ port < 8, ∃ t, exec (.ethernetTrainingFailure port) s = .next t ∧ t.platform.service = p.service
           ∧ ∀ i, t.platform.ethUp.getLsbD i = (p.ethUp.getLsbD i && i != port)))

/-- R338, R340: every 2^20 wall cycles of service the shares are set from the estimated power, each within its CSHARE, and all of them scaled
where the sum exceeds the cap; the emergency actions begin at 100 °C, 110 °C and 120 °C and end 5 °C lower. What an estimate weighs, that a share lowers the
power of an activity but not its leakage, and how shares are rounded, is the model's (log 8, DESIGN CHOICE); that every thermal event acts on the temperature it brings is its reading (log 51,
DEDUCED). -/
def Obligations.PowerAndCooling : Prop :=
  ∀ s : State,
    let p := s.platform
    let est (v : Nat) : Nat := s.estimate v
    let power (v : Nat) : Nat := (s.iface v).activity.watts
    let shares (v : Nat) : Nat := (s.iface v).cappedShare (s.shareOf v) (power v) (s.leakOf v)
    let dynamic := ((List.range 64).map fun v => power v * shares v / max 1 (s.shareOf v)).sum
    let leak := ((List.range 64).map s.leakOf).sum
    (s.serving = true → s.cycle % 2 ^ 20 = 0 → ∃ t, exec .powerEnforcementWindow s = .next t ∧ t.memory = s.memory
        ∧ t.platform.power.toNat = min ((List.range 64).map est).sum 8191
        ∧ ∀ v < 64, (t.iface v).share = max 1 (if p.cap < dynamic + leak then shares v * (p.cap - leak) / max 1 dynamic else shares v) ∧ (t.iface v).activity = Activity.zero)
    ∧ (p.running = true → p.service ≠ 4 → ∀ temp die, die < 16 → temp < 65536 →
        let capped : Prop := 1600 ≤ temp ∨ (p.thermal.getLsbD 0 = true ∧ 1520 < temp)
        let limited : Prop := 1760 ≤ temp ∨ (p.thermal.getLsbD 1 = true ∧ 1680 < temp)
        ∀ i ∈ [Instr.thermalEmergencyCap temp die, .thermalShareLimit temp die, .thermalHalt temp die, .thermalRelease temp die],
          ∃ t, exec i s = .next t ∧ t.platform.temp = BitVec.ofNat 64 (temp + die * 2 ^ 16) ∧ t.platform.mcap = p.mcap ∧ t.memory = s.memory
            ∧ (t.platform.thermal.getLsbD 0 = true ↔ capped) ∧ (t.platform.thermal.getLsbD 1 = true ↔ limited)
            ∧ (temp < 1920 → t.platform.service = p.service)
            ∧ (1920 ≤ temp → t.platform.service = 4 ∧ t.platform.fail = 0x30))

/-- R333: on a path the requests lead from version to capabilities to algorithms; then digests, certificates, challenges and measurements are
answered from slot 0; a request out of order, or one that is not supported, is answered with an error and changes nothing else. The layout of the
messages is the model's (log 16, PRESUMED). -/
def Obligations.Attestation : Prop :=
  ∀ (s : State) (path : Bool),
    let c := s.spdm path
    let answered (i : Instr) (stage code : Nat) : Prop := ∃ t, exec i s = .next t ∧ (t.spdm path).stage = stage ∧ (t.spdm (!path)) = s.spdm (!path)
      ∧ (t.spdm path).response.take 2 = [0x12, BitVec.ofNat 8 code] ∧ t.memory = s.memory
    let error (i : Instr) : Prop := answered i c.stage 0x7F ∧ ∀ t, exec i s = .next t → (t.spdm path).transcript = c.transcript
    s.serving = true →
      (∃ t, exec (.getVersion path) s = .next t ∧ (t.spdm path).stage = 1 ∧ t.memory = s.memory)
      ∧ (c.stage = 1 → answered (.getCapabilities path) 2 0x61)
      ∧ (c.stage ≠ 1 → error (.getCapabilities path))
      ∧ (∀ asym hash, c.stage = 2 → (asym = 0x80 ∧ hash = 2 → answered (.negotiateAlgorithms path asym hash) 3 0x63)
          ∧ (¬(asym = 0x80 ∧ hash = 2) → error (.negotiateAlgorithms path asym hash)))
      ∧ (c.stage = 3 →
        answered (.getDigests path) 3 0x01
        ∧ answered (.getCertificate path 0) 3 0x02 ∧ (∀ slot, slot ≠ 0 → error (.getCertificate path slot))
        ∧ (∀ nonce, ∀ summary ∈ [0, 0xFF], answered (.challenge path 0 summary nonce) 3 0x03)
        ∧ (∀ slot summary nonce, slot ≠ 0 → error (.challenge path slot summary nonce))
        ∧ (∀ index nonce, 1 ≤ index.toNat ∧ index.toNat ≤ 16 ∨ index = 0xFF → answered (.getMeasurements path index nonce) 3 0x60)
        ∧ (∀ nonce, error (.getMeasurements path 0 nonce)))
      ∧ (c.stage ≠ 3 → ∀ slot summary index nonce, error (.getDigests path) ∧ error (.getCertificate path slot)
          ∧ error (.challenge path slot summary nonce) ∧ error (.getMeasurements path index nonce))
      ∧ (∀ code, error (.unsupportedRequest path code))
end

