-- ==== Sys2Proof/Laws/Encoding.lean ====
section
/-!
SUPPORT. A slot's fields and opcode read back from the slot they were put in (R130).
-/

namespace Sys2Proof

theorem field_lowest {v w : Nat} (x : BitVec v) (y : BitVec w) : BitVec.extractLsb' 0 w (x ++ y) = y := by
  rw [BitVec.extractLsb'_append_eq_of_add_le (by omega)]
  simp

theorem field_above {v w : Nat} (x : BitVec v) (y : BitVec w) (start len : Nat) (h : w ≤ start) :
    BitVec.extractLsb' start len (x ++ y) = BitVec.extractLsb' (start - w) len x :=
  BitVec.extractLsb'_append_eq_of_le h

@[simp] theorem AV.ofSlot_toSlot (op : BitVec 8) (f : AV) : AV.ofSlot (f.toSlot op) = f := by
  obtain ⟨vd, va, vb, vc, ty, md, kp, kz, rx, sub⟩ := f
  simp only [AV.ofSlot, AV.toSlot, AV.mk.injEq]
  refine ⟨?_, ?_, ?_, ?_, ?_, ?_, ?_, ?_, ?_, ?_⟩ <;>
    (change BitVec.extractLsb' (n := 8+5+5+5+5+4+3+3+1+4+13) _ _ _ = _
     repeat rw [field_above _ _ _ _ (by decide)]
     exact field_lowest _ _)

@[simp] theorem AV.slotOp_toSlot (op : BitVec 8) (f : AV) : slotOp (f.toSlot op) = op := by
  simp only [slotOp, AV.toSlot]
  change BitVec.extractLsb' (n := 8+5+5+5+5+4+3+3+1+4+13) _ _ _ = _
  repeat rw [field_above _ _ _ _ (by decide)]
  exact BitVec.extractLsb'_eq_self

@[simp] theorem AI.ofSlot_toSlot (op : BitVec 8) (f : AI) : AI.ofSlot (f.toSlot op) = f := by
  obtain ⟨vd, va, ty, kp, kz, imm⟩ := f
  simp only [AI.ofSlot, AI.toSlot, AI.mk.injEq]
  refine ⟨?_, ?_, ?_, ?_, ?_, ?_⟩ <;>
    (change BitVec.extractLsb' (n := 8+5+5+4+3+1+30) _ _ _ = _
     repeat rw [field_above _ _ _ _ (by decide)]
     exact field_lowest _ _)

@[simp] theorem AI.slotOp_toSlot (op : BitVec 8) (f : AI) : slotOp (f.toSlot op) = op := by
  simp only [slotOp, AI.toSlot]
  change BitVec.extractLsb' (n := 8+5+5+4+3+1+30) _ _ _ = _
  repeat rw [field_above _ _ _ _ (by decide)]
  exact BitVec.extractLsb'_eq_self

@[simp] theorem AM.ofSlot_toSlot (op : BitVec 8) (f : AM) : AM.ofSlot (f.toSlot op) = f := by
  obtain ⟨ad, va, vb, vc, fa, fb, sm, ov, rm, rx, sub⟩ := f
  simp only [AM.ofSlot, AM.toSlot, AM.mk.injEq]
  refine ⟨?_, ?_, ?_, ?_, ?_, ?_, ?_, ?_, ?_, ?_, ?_⟩ <;>
    (change BitVec.extractLsb' (n := 8+3+5+5+5+4+4+2+1+3+4+12) _ _ _ = _
     repeat rw [field_above _ _ _ _ (by decide)]
     exact field_lowest _ _)

@[simp] theorem AM.slotOp_toSlot (op : BitVec 8) (f : AM) : slotOp (f.toSlot op) = op := by
  simp only [slotOp, AM.toSlot]
  change BitVec.extractLsb' (n := 8+3+5+5+5+4+4+2+1+3+4+12) _ _ _ = _
  repeat rw [field_above _ _ _ _ (by decide)]
  exact BitVec.extractLsb'_eq_self

@[simp] theorem AS.ofSlot_toSlot (op : BitVec 8) (f : AS) : AS.ofSlot (f.toSlot op) = f := by
  obtain ⟨sd, sa, sb, imm, sub⟩ := f
  simp only [AS.ofSlot, AS.toSlot, AS.mk.injEq]
  refine ⟨?_, ?_, ?_, ?_, ?_⟩ <;>
    (change BitVec.extractLsb' (n := 8+4+4+4+32+4) _ _ _ = _
     repeat rw [field_above _ _ _ _ (by decide)]
     exact field_lowest _ _)

@[simp] theorem AS.slotOp_toSlot (op : BitVec 8) (f : AS) : slotOp (f.toSlot op) = op := by
  simp only [slotOp, AS.toSlot]
  change BitVec.extractLsb' (n := 8+4+4+4+32+4) _ _ _ = _
  repeat rw [field_above _ _ _ _ (by decide)]
  exact BitVec.extractLsb'_eq_self

@[simp] theorem AK.ofSlot_toSlot (op : BitVec 8) (f : AK) : AK.ofSlot (f.toSlot op) = f := by
  obtain ⟨kd, ka, kb, va, sa, sub⟩ := f
  simp only [AK.ofSlot, AK.toSlot, AK.mk.injEq]
  refine ⟨?_, ?_, ?_, ?_, ?_, ?_⟩ <;>
    (change BitVec.extractLsb' (n := 8+3+3+3+5+4+30) _ _ _ = _
     repeat rw [field_above _ _ _ _ (by decide)]
     exact field_lowest _ _)

@[simp] theorem AK.slotOp_toSlot (op : BitVec 8) (f : AK) : slotOp (f.toSlot op) = op := by
  simp only [slotOp, AK.toSlot]
  change BitVec.extractLsb' (n := 8+3+3+3+5+4+30) _ _ _ = _
  repeat rw [field_above _ _ _ _ (by decide)]
  exact BitVec.extractLsb'_eq_self

@[simp] theorem BL.ofSlot_toSlot (op : BitVec 8) (f : BL) : BL.ofSlot (f.toSlot op) = f := by
  obtain ⟨vr, sb, off, bf, kp, mode, rx, sz, sub⟩ := f
  simp only [BL.ofSlot, BL.toSlot, BL.mk.injEq]
  refine ⟨?_, ?_, ?_, ?_, ?_, ?_, ?_, ?_, ?_⟩ <;>
    (change BitVec.extractLsb' (n := 8+5+4+17+3+3+3+4+3+6) _ _ _ = _
     repeat rw [field_above _ _ _ _ (by decide)]
     exact field_lowest _ _)

@[simp] theorem BL.slotOp_toSlot (op : BitVec 8) (f : BL) : slotOp (f.toSlot op) = op := by
  simp only [slotOp, BL.toSlot]
  change BitVec.extractLsb' (n := 8+5+4+17+3+3+3+4+3+6) _ _ _ = _
  repeat rw [field_above _ _ _ _ (by decide)]
  exact BitVec.extractLsb'_eq_self

@[simp] theorem BT.ofSlot_toSlot (op : BitVec 8) (f : BT) : BT.ofSlot (f.toSlot op) = f := by
  obtain ⟨e, s, w, n, lv, lw, sub⟩ := f
  simp only [BT.ofSlot, BT.toSlot, BT.mk.injEq]
  refine ⟨?_, ?_, ?_, ?_, ?_, ?_, ?_⟩ <;>
    (change BitVec.extractLsb' (n := 8+8+8+8+8+5+5+6) _ _ _ = _
     repeat rw [field_above _ _ _ _ (by decide)]
     exact field_lowest _ _)

@[simp] theorem BT.slotOp_toSlot (op : BitVec 8) (f : BT) : slotOp (f.toSlot op) = op := by
  simp only [slotOp, BT.toSlot]
  change BitVec.extractLsb' (n := 8+8+8+8+8+5+5+6) _ _ _ = _
  repeat rw [field_above _ _ _ _ (by decide)]
  exact BitVec.extractLsb'_eq_self

@[simp] theorem BD.ofSlot_toSlot (op : BitVec 8) (f : BD) : BD.ofSlot (f.toSlot op) = f := by
  obtain ⟨b, sb, n, st, vr, sub⟩ := f
  simp only [BD.ofSlot, BD.toSlot, BD.mk.injEq]
  refine ⟨?_, ?_, ?_, ?_, ?_, ?_⟩ <;>
    (change BitVec.extractLsb' (n := 8+3+4+17+2+5+17) _ _ _ = _
     repeat rw [field_above _ _ _ _ (by decide)]
     exact field_lowest _ _)

@[simp] theorem BD.slotOp_toSlot (op : BitVec 8) (f : BD) : slotOp (f.toSlot op) = op := by
  simp only [slotOp, BD.toSlot]
  change BitVec.extractLsb' (n := 8+3+4+17+2+5+17) _ _ _ = _
  repeat rw [field_above _ _ _ _ (by decide)]
  exact BitVec.extractLsb'_eq_self

@[simp] theorem SG.ofSlot_toSlot (op : BitVec 8) (f : SG) : SG.ofSlot (f.toSlot op) = f := by
  obtain ⟨gd, ga, gb, sub⟩ := f
  simp only [SG.ofSlot, SG.toSlot, SG.mk.injEq]
  refine ⟨?_, ?_, ?_, ?_⟩ <;>
    (change BitVec.extractLsb' (n := 8+5+5+5+33) _ _ _ = _
     repeat rw [field_above _ _ _ _ (by decide)]
     exact field_lowest _ _)

@[simp] theorem SG.slotOp_toSlot (op : BitVec 8) (f : SG) : slotOp (f.toSlot op) = op := by
  simp only [slotOp, SG.toSlot]
  change BitVec.extractLsb' (n := 8+5+5+5+33) _ _ _ = _
  repeat rw [field_above _ _ _ _ (by decide)]
  exact BitVec.extractLsb'_eq_self

@[simp] theorem SI.ofSlot_toSlot (op : BitVec 8) (f : SI) : SI.ofSlot (f.toSlot op) = f := by
  obtain ⟨gd, ga, imm, sub⟩ := f
  simp only [SI.ofSlot, SI.toSlot, SI.mk.injEq]
  refine ⟨?_, ?_, ?_, ?_⟩ <;>
    (change BitVec.extractLsb' (n := 8+5+5+32+6) _ _ _ = _
     repeat rw [field_above _ _ _ _ (by decide)]
     exact field_lowest _ _)

@[simp] theorem SI.slotOp_toSlot (op : BitVec 8) (f : SI) : slotOp (f.toSlot op) = op := by
  simp only [slotOp, SI.toSlot]
  change BitVec.extractLsb' (n := 8+5+5+32+6) _ _ _ = _
  repeat rw [field_above _ _ _ _ (by decide)]
  exact BitVec.extractLsb'_eq_self

@[simp] theorem SB.ofSlot_toSlot (op : BitVec 8) (f : SB) : SB.ofSlot (f.toSlot op) = f := by
  obtain ⟨ga, gb, cond, disp⟩ := f
  simp only [SB.ofSlot, SB.toSlot, SB.mk.injEq]
  refine ⟨?_, ?_, ?_, ?_⟩ <;>
    (change BitVec.extractLsb' (n := 8+5+5+3+35) _ _ _ = _
     repeat rw [field_above _ _ _ _ (by decide)]
     exact field_lowest _ _)

@[simp] theorem SB.slotOp_toSlot (op : BitVec 8) (f : SB) : slotOp (f.toSlot op) = op := by
  simp only [slotOp, SB.toSlot]
  change BitVec.extractLsb' (n := 8+5+5+3+35) _ _ _ = _
  repeat rw [field_above _ _ _ _ (by decide)]
  exact BitVec.extractLsb'_eq_self

@[simp] theorem SO.ofSlot_toSlot (op : BitVec 8) (f : SO) : SO.ofSlot (f.toSlot op) = f := by
  obtain ⟨lvl, cg, cimm, last⟩ := f
  simp only [SO.ofSlot, SO.toSlot, SO.mk.injEq]
  refine ⟨?_, ?_, ?_, ?_⟩ <;>
    (change BitVec.extractLsb' (n := 8+2+5+20+21) _ _ _ = _
     repeat rw [field_above _ _ _ _ (by decide)]
     exact field_lowest _ _)

@[simp] theorem SO.slotOp_toSlot (op : BitVec 8) (f : SO) : slotOp (f.toSlot op) = op := by
  simp only [slotOp, SO.toSlot]
  change BitVec.extractLsb' (n := 8+2+5+20+21) _ _ _ = _
  repeat rw [field_above _ _ _ _ (by decide)]
  exact BitVec.extractLsb'_eq_self

@[simp] theorem SM.ofSlot_toSlot (op : BitVec 8) (f : SM) : SM.ofSlot (f.toSlot op) = f := by
  obtain ⟨gv, gb, off, sz, scope, ord, sub⟩ := f
  simp only [SM.ofSlot, SM.toSlot, SM.mk.injEq]
  refine ⟨?_, ?_, ?_, ?_, ?_, ?_, ?_⟩ <;>
    (change BitVec.extractLsb' (n := 8+5+5+24+3+3+2+6) _ _ _ = _
     repeat rw [field_above _ _ _ _ (by decide)]
     exact field_lowest _ _)

@[simp] theorem SM.slotOp_toSlot (op : BitVec 8) (f : SM) : slotOp (f.toSlot op) = op := by
  simp only [slotOp, SM.toSlot]
  change BitVec.extractLsb' (n := 8+5+5+24+3+3+2+6) _ _ _ = _
  repeat rw [field_above _ _ _ _ (by decide)]
  exact BitVec.extractLsb'_eq_self

@[simp] theorem SE.ofSlot_toSlot (op : BitVec 8) (f : SE) : SE.ofSlot (f.toSlot op) = f := by
  obtain ⟨h, gp, gc, disp, scope, sub⟩ := f
  simp only [SE.ofSlot, SE.toSlot, SE.mk.injEq]
  refine ⟨?_, ?_, ?_, ?_, ?_, ?_⟩ <;>
    (change BitVec.extractLsb' (n := 8+4+5+5+24+3+7) _ _ _ = _
     repeat rw [field_above _ _ _ _ (by decide)]
     exact field_lowest _ _)

@[simp] theorem SE.slotOp_toSlot (op : BitVec 8) (f : SE) : slotOp (f.toSlot op) = op := by
  simp only [slotOp, SE.toSlot]
  change BitVec.extractLsb' (n := 8+4+5+5+24+3+7) _ _ _ = _
  repeat rw [field_above _ _ _ _ (by decide)]
  exact BitVec.extractLsb'_eq_self

/-! ### Minor codes: what a slot's checks say of its sub field -/

@[simp] theorem firstBroken_eq_none (checks : List (Nat × Bool)) :
    firstBroken checks = none ↔ ∀ c ∈ checks, c.2 = false := by
  induction checks with
  | nil => simp [firstBroken]
  | cons c rest ih =>
    obtain ⟨k, b⟩ := c
    cases b <;> simp [firstBroken, ih]

theorem SG.minor_of_cntr {f : SG} {op : BitVec 3} {a b c : Bool} (h : f.cntr op a b c = none) : f.sub.extractLsb' 0 3 = op := by
  simp only [SG.cntr, firstBroken_eq_none] at h
  simpa using h (13, _) (List.mem_cons_of_mem _ (List.mem_singleton_self _))

theorem BD.minor_of_bstate {f : BD} {st : BitVec 2} (h : f.bstate st = none) : f.st = st := by
  simp only [BD.bstate, firstBroken_eq_none] at h
  simpa using h (13, _) (List.mem_cons_of_mem _ (List.mem_singleton_self _))

theorem BD.from_of_egr {f : BD} {from_ : BitVec 17} (h : f.egr from_ = none) : f.sub.getLsbD 0 = from_.getLsbD 0 := by
  simp only [BD.egr, firstBroken_eq_none] at h
  have : f.sub.extractLsb' 0 1 = from_.extractLsb' 0 1 := by
    simpa using h (13, _) (List.mem_cons_of_mem _ (List.mem_singleton_self _))
  simpa using congrArg (·.getLsbD 0) this

theorem BD.minor_of_cnt {f : BD} {op : BitVec 3} {a b c : Bool} (h : f.cnt op a b c = none) : f.sub.extractLsb' 0 3 = op := by
  simp only [BD.cnt, firstBroken_eq_none] at h
  have := h (13, _) (List.mem_cons_of_mem _ (List.mem_singleton_self _))
  simp only [Bool.or_eq_false_iff] at this
  simpa using this.1

end Sys2Proof
end

