-- ==== Sys2Proof/Laws/Memory.lean ====
section
/-!
SUPPORT. The laws of physical memory: every operation keeps the canonical form, and what a read finds after a write.
-/

namespace Sys2Proof.Machine

/-! ### The canonical form, said of the head and of the rest -/

/-- Every listed address is at least `a`. -/
def Memory.From (a : Nat) (m : Memory) : Prop := ∀ c ∈ m, a ≤ c.1

theorem Memory.wf_cons {j : Nat} {x : Byte} {rest : Memory} :
    Memory.wf ((j, x) :: rest) = true ↔ x ≠ Memory.default ∧ Memory.From (j + 1) rest ∧ Memory.wf rest = true := by
  induction rest generalizing j x with
  | nil => simp [Memory.wf, Memory.From]
  | cons c rest ih =>
    obtain ⟨i, y⟩ := c
    rw [Memory.wf]
    simp only [Bool.and_eq_true, bne_iff_ne, ne_eq, decide_eq_true_eq, ih, Memory.From, List.mem_cons, forall_eq_or_imp]
    constructor
    · rintro ⟨⟨hx, hlt⟩, hy, hrest, hw⟩
      exact ⟨hx, ⟨hlt, fun c hc => by have := hrest c hc; omega⟩, hy, hrest, hw⟩
    · rintro ⟨hx, ⟨hlt, -⟩, hy, hrest, hw⟩
      exact ⟨⟨hx, hlt⟩, hy, hrest, hw⟩

theorem Memory.wf_nil : Memory.wf [] = true := rfl

theorem Memory.write_from {m : Memory} {a b : Nat} (x : Byte) (h : Memory.From a m) (hb : a ≤ b) : Memory.From a (m.write b x) := by
  induction m with
  | nil => unfold Memory.write; split <;> simp_all [Memory.From]
  | cons c rest ih =>
    obtain ⟨j, y⟩ := c
    have hj : a ≤ j := h (j, y) (List.mem_cons_self ..)
    have hr : Memory.From a rest := fun c hc => h c (List.mem_cons_of_mem _ hc)
    unfold Memory.write
    split_ifs <;> intro c hc
    · exact h c hc
    · rcases List.mem_cons.1 hc with rfl | hc
      · exact hb
      · exact h c hc
    · exact hr c hc
    · rcases List.mem_cons.1 hc with rfl | hc
      · exact hb
      · exact hr c hc
    · rcases List.mem_cons.1 hc with rfl | hc
      · exact hj
      · exact ih hr c hc

/-- A store of one byte keeps the canonical form. -/
theorem Memory.write_wf {m : Memory} (a : Nat) (x : Byte) (h : m.wf = true) : (m.write a x).wf = true := by
  induction m with
  | nil => unfold Memory.write; split <;> simp_all [Memory.wf]
  | cons c rest ih =>
    obtain ⟨j, y⟩ := c
    obtain ⟨hy, hf, hw⟩ := Memory.wf_cons.1 h
    unfold Memory.write
    split_ifs with h1 h2 h3 h4
    · exact h
    · refine Memory.wf_cons.2 ⟨h2, fun c hc => ?_, h⟩
      rcases List.mem_cons.1 hc with rfl | hc
      · exact h1
      · have := hf c hc; omega
    · exact hw
    · subst h3; exact Memory.wf_cons.2 ⟨h4, hf, hw⟩
    · exact Memory.wf_cons.2 ⟨hy, Memory.write_from x hf (by omega), ih hw⟩

/-- A store of several bytes keeps the canonical form. -/
theorem Memory.writeNat_wf {m : Memory} (a n data mask : Nat) (h : m.wf = true) : (m.writeNat a n data mask).wf = true := by
  induction n generalizing m a data mask with
  | zero => exact h
  | succ n ih =>
    unfold Memory.writeNat
    apply ih
    split
    · exact Memory.write_wf _ _ h
    · exact h

/-- A store of a memory unit keeps the canonical form. -/
theorem Memory.setUnit_wf {m : Memory} (u : Nat) (v : Vec) (h : m.wf = true) : (m.setUnit u v).wf = true :=
  Memory.writeNat_wf _ _ _ _ h

/-- What a module reset leaves of memory, the part that a test of addresses keeps, is in canonical form. -/
theorem Memory.filter_wf {m : Memory} (p : Host.Cell → Bool) (h : m.wf = true) : Memory.wf (m.filter p) = true := by
  induction m with
  | nil => rfl
  | cons c rest ih =>
    obtain ⟨j, y⟩ := c
    obtain ⟨hy, hf, hw⟩ := Memory.wf_cons.1 h
    rw [List.filter_cons]
    split
    · exact Memory.wf_cons.2 ⟨hy, fun c hc => hf c (List.mem_filter.1 hc).1, ih hw⟩
    · exact ih hw

/-- Memory after reset is in canonical form. -/
theorem State.reset_memory_wf : State.reset.memory.wf = true := rfl

/-! ### Reads after writes -/

theorem Memory.read_of_from {m : Memory} {a b : Nat} (h : Memory.From b m) (hb : a < b) : m.read a = Memory.default := by
  induction m with
  | nil => rfl
  | cons c rest ih =>
    obtain ⟨j, y⟩ := c
    have hj : b ≤ j := h (j, y) (List.mem_cons_self ..)
    unfold Memory.read
    rw [if_neg (by omega)]
    exact ih fun c hc => h c (List.mem_cons_of_mem _ hc)

/-- A byte reads as the byte stored there. -/
theorem Memory.read_write_same {m : Memory} (a : Nat) (x : Byte) (h : m.wf = true) : (m.write a x).read a = x := by
  induction m with
  | nil => unfold Memory.write; split <;> simp_all [Memory.read]
  | cons c rest ih =>
    obtain ⟨j, y⟩ := c
    obtain ⟨hy, hf, hw⟩ := Memory.wf_cons.1 h
    unfold Memory.write
    split_ifs with h1 h2 h3 h4
    · unfold Memory.read
      rw [if_neg (by omega), h2]
      exact Memory.read_of_from hf (by omega)
    · simp [Memory.read]
    · rw [h4]; exact Memory.read_of_from hf (by omega)
    · simp [Memory.read]
    · unfold Memory.read
      rw [if_neg (by omega)]
      exact ih hw

/-- A store leaves every other byte alone. -/
theorem Memory.read_write_other {m : Memory} {a b : Nat} (x : Byte) (hne : b ≠ a) : (m.write a x).read b = m.read b := by
  induction m with
  | nil => unfold Memory.write; split <;> simp [Memory.read, Ne.symm hne]
  | cons c rest ih =>
    obtain ⟨j, y⟩ := c
    unfold Memory.write
    split_ifs with h1 h2 h3 h4
    · rfl
    · rw [Memory.read, if_neg (Ne.symm hne)]
    · subst h3
      conv_rhs => rw [Memory.read, if_neg (Ne.symm hne)]
    · subst h3
      rw [Memory.read, Memory.read, if_neg (Ne.symm hne), if_neg (Ne.symm hne)]
    · rw [Memory.read, Memory.read, ih]

/-- A store of n bytes at a leaves every byte outside them alone. -/
theorem Memory.read_writeNat_outside {m : Memory} {a n b : Nat} (data mask : Nat) (h : b < a ∨ a + n ≤ b) :
    (m.writeNat a n data mask).read b = m.read b := by
  induction n generalizing m a data mask with
  | zero => rfl
  | succ n ih =>
    unfold Memory.writeNat
    rw [ih _ _ (by omega)]
    split
    · exact Memory.read_write_other _ (by omega)
    · rfl

/-- Inside a store of n bytes, byte k reads as byte k of the number where its mask bit is set, and as before where it is not. -/
theorem Memory.read_writeNat_inside {m : Memory} {a n : Nat} (data mask k : Nat) (hw : m.wf = true) (hk : k < n) :
    (m.writeNat a n data mask).read (a + k) =
      if mask.testBit k then BitVec.ofNat 8 (data / 256 ^ k) else m.read (a + k) := by
  induction n generalizing m a data mask k with
  | zero => omega
  | succ n ih =>
    unfold Memory.writeNat
    have hw' : (if mask % 2 = 1 then m.write a (BitVec.ofNat 8 data) else m).wf = true := by
      split
      · exact Memory.write_wf _ _ hw
      · exact hw
    cases k with
    | zero =>
      rw [Nat.add_zero, Memory.read_writeNat_outside _ _ (by omega)]
      by_cases hm : mask % 2 = 1
      · simp [hm, Memory.read_write_same _ _ hw, Nat.testBit_zero]
      · simp [hm, Nat.testBit_zero]
    | succ k =>
      rw [show a + (k + 1) = a + 1 + k by omega, ih _ _ _ hw' (by omega), Nat.testBit_succ, Nat.div_div_eq_div_mul,
        Nat.pow_succ, Nat.mul_comm 256]
      split
      · rfl
      · split
        · exact Memory.read_write_other _ (by omega)
        · rfl

/-- Two memories in canonical form that read alike are equal. -/
theorem Memory.eq_of_reads {m m' : Memory} (h : m.wf = true) (h' : m'.wf = true) (same : ∀ a, m.read a = m'.read a) : m = m' := by
  induction m generalizing m' with
  | nil =>
    cases m' with
    | nil => rfl
    | cons c rest =>
      obtain ⟨j, y⟩ := c
      have := same j
      simp only [Memory.read, if_true] at this
      exact absurd this.symm (Memory.wf_cons.1 h').1
  | cons c rest ih =>
    obtain ⟨j, y⟩ := c
    obtain ⟨hy, hf, hw⟩ := Memory.wf_cons.1 h
    cases m' with
    | nil =>
      have := same j
      simp only [Memory.read, if_true] at this
      exact absurd this hy
    | cons c' rest' =>
      obtain ⟨j', y'⟩ := c'
      obtain ⟨hy', hf', hw'⟩ := Memory.wf_cons.1 h'
      have hj : j = j' := by
        rcases Nat.lt_trichotomy j j' with hlt | heq | hgt
        · have := same j
          rw [Memory.read, if_pos rfl, Memory.read, if_neg (by omega), Memory.read_of_from hf' (by omega)] at this
          exact absurd this hy
        · exact heq
        · have := same j'
          rw [Memory.read, if_neg (by omega), Memory.read, if_pos rfl, Memory.read_of_from hf (by omega)] at this
          exact absurd this.symm hy'
      subst hj
      have hv : y = y' := by simpa [Memory.read] using same j
      subst hv
      congr 1
      refine ih hw hw' fun a => ?_
      by_cases ha : a ≤ j
      · rw [Memory.read_of_from hf (by omega), Memory.read_of_from hf' (by omega)]
      · have := same a
        rwa [Memory.read, if_neg (by omega), Memory.read, if_neg (by omega)] at this

end Sys2Proof.Machine
end

