-- ==== Sys2Proof/Laws/PerInstr.lean ====
section
/-!
SUPPORT. The per-instruction laws. Family Encodes: the decoder reads back, from the slot the encoder writes for an instruction whose
fields pass their checks, that instruction with every field as it was (R130 to R137).
-/

namespace Sys2Proof.Laws

/-- The opcode maps read instruction i from the slot it is encoded in. An operation of the device has no encoding. -/
def Encodes.Statement (i : Instr) : Prop :=
  ∀ m b, encode i = some (m, b) → i.slotItem = none → decodeMap m b = some i

theorem Encodes.ofEvent {i : Instr} (h : encode i = none) : Encodes.Statement i := by
  intro m b h'
  rw [h] at h'
  cases h'

theorem AV.encodes {c : AV → Instr} {f : AV} {m : SlotMap} {op : BitVec 8} (h : encode (c f) = some (m, f.toSlot op))
    (d : ∀ b, slotOp b = op → decodeMap m b = some (c (.ofSlot b))) : Encodes.Statement (c f) := by
  rintro m b h' -
  rw [h] at h'
  cases h'
  rw [d _ (AV.slotOp_toSlot op f), AV.ofSlot_toSlot]

theorem AI.encodes {c : AI → Instr} {f : AI} {m : SlotMap} {op : BitVec 8} (h : encode (c f) = some (m, f.toSlot op))
    (d : ∀ b, slotOp b = op → decodeMap m b = some (c (.ofSlot b))) : Encodes.Statement (c f) := by
  rintro m b h' -
  rw [h] at h'
  cases h'
  rw [d _ (AI.slotOp_toSlot op f), AI.ofSlot_toSlot]

theorem AM.encodes {c : AM → Instr} {f : AM} {m : SlotMap} {op : BitVec 8} (h : encode (c f) = some (m, f.toSlot op))
    (d : ∀ b, slotOp b = op → decodeMap m b = some (c (.ofSlot b))) : Encodes.Statement (c f) := by
  rintro m b h' -
  rw [h] at h'
  cases h'
  rw [d _ (AM.slotOp_toSlot op f), AM.ofSlot_toSlot]

theorem AS.encodes {c : AS → Instr} {f : AS} {m : SlotMap} {op : BitVec 8} (h : encode (c f) = some (m, f.toSlot op))
    (d : ∀ b, slotOp b = op → decodeMap m b = some (c (.ofSlot b))) : Encodes.Statement (c f) := by
  rintro m b h' -
  rw [h] at h'
  cases h'
  rw [d _ (AS.slotOp_toSlot op f), AS.ofSlot_toSlot]

theorem AK.encodes {c : AK → Instr} {f : AK} {m : SlotMap} {op : BitVec 8} (h : encode (c f) = some (m, f.toSlot op))
    (d : ∀ b, slotOp b = op → decodeMap m b = some (c (.ofSlot b))) : Encodes.Statement (c f) := by
  rintro m b h' -
  rw [h] at h'
  cases h'
  rw [d _ (AK.slotOp_toSlot op f), AK.ofSlot_toSlot]

theorem BL.encodes {c : BL → Instr} {f : BL} {m : SlotMap} {op : BitVec 8} (h : encode (c f) = some (m, f.toSlot op))
    (d : ∀ b, slotOp b = op → decodeMap m b = some (c (.ofSlot b))) : Encodes.Statement (c f) := by
  rintro m b h' -
  rw [h] at h'
  cases h'
  rw [d _ (BL.slotOp_toSlot op f), BL.ofSlot_toSlot]

theorem BT.encodes {c : BT → Instr} {f : BT} {m : SlotMap} {op : BitVec 8} (h : encode (c f) = some (m, f.toSlot op))
    (d : ∀ b, slotOp b = op → decodeMap m b = some (c (.ofSlot b))) : Encodes.Statement (c f) := by
  rintro m b h' -
  rw [h] at h'
  cases h'
  rw [d _ (BT.slotOp_toSlot op f), BT.ofSlot_toSlot]

theorem BD.encodes {c : BD → Instr} {f : BD} {m : SlotMap} {op : BitVec 8} (h : encode (c f) = some (m, f.toSlot op))
    (d : ∀ b, slotOp b = op → decodeMap m b = some (c (.ofSlot b))) : Encodes.Statement (c f) := by
  rintro m b h' -
  rw [h] at h'
  cases h'
  rw [d _ (BD.slotOp_toSlot op f), BD.ofSlot_toSlot]

theorem SG.encodes {c : SG → Instr} {f : SG} {m : SlotMap} {op : BitVec 8} (h : encode (c f) = some (m, f.toSlot op))
    (d : ∀ b, slotOp b = op → decodeMap m b = some (c (.ofSlot b))) : Encodes.Statement (c f) := by
  rintro m b h' -
  rw [h] at h'
  cases h'
  rw [d _ (SG.slotOp_toSlot op f), SG.ofSlot_toSlot]

theorem SI.encodes {c : SI → Instr} {f : SI} {m : SlotMap} {op : BitVec 8} (h : encode (c f) = some (m, f.toSlot op))
    (d : ∀ b, slotOp b = op → decodeMap m b = some (c (.ofSlot b))) : Encodes.Statement (c f) := by
  rintro m b h' -
  rw [h] at h'
  cases h'
  rw [d _ (SI.slotOp_toSlot op f), SI.ofSlot_toSlot]

theorem SB.encodes {c : SB → Instr} {f : SB} {m : SlotMap} {op : BitVec 8} (h : encode (c f) = some (m, f.toSlot op))
    (d : ∀ b, slotOp b = op → decodeMap m b = some (c (.ofSlot b))) : Encodes.Statement (c f) := by
  rintro m b h' -
  rw [h] at h'
  cases h'
  rw [d _ (SB.slotOp_toSlot op f), SB.ofSlot_toSlot]

theorem SO.encodes {c : SO → Instr} {f : SO} {m : SlotMap} {op : BitVec 8} (h : encode (c f) = some (m, f.toSlot op))
    (d : ∀ b, slotOp b = op → decodeMap m b = some (c (.ofSlot b))) : Encodes.Statement (c f) := by
  rintro m b h' -
  rw [h] at h'
  cases h'
  rw [d _ (SO.slotOp_toSlot op f), SO.ofSlot_toSlot]

theorem SM.encodes {c : SM → Instr} {f : SM} {m : SlotMap} {op : BitVec 8} (h : encode (c f) = some (m, f.toSlot op))
    (d : ∀ b, slotOp b = op → decodeMap m b = some (c (.ofSlot b))) : Encodes.Statement (c f) := by
  rintro m b h' -
  rw [h] at h'
  cases h'
  rw [d _ (SM.slotOp_toSlot op f), SM.ofSlot_toSlot]

theorem SE.encodes {c : SE → Instr} {f : SE} {m : SlotMap} {op : BitVec 8} (h : encode (c f) = some (m, f.toSlot op))
    (d : ∀ b, slotOp b = op → decodeMap m b = some (c (.ofSlot b))) : Encodes.Statement (c f) := by
  rintro m b h' -
  rw [h] at h'
  cases h'
  rw [d _ (SE.slotOp_toSlot op f), SE.ofSlot_toSlot]

theorem Encodes.br (f : SB) : Encodes.Statement (.br f) :=
  SB.encodes (c := .br) (m := .spine) (op := 0x01) rfl fun b h => by rw [decodeMap, decodeSpine, h]; rfl

theorem Encodes.brc (f : SB) : Encodes.Statement (.brc f) :=
  SB.encodes (c := .brc) (m := .spine) (op := 0x02) rfl fun b h => by rw [decodeMap, decodeSpine, h]; rfl

theorem Encodes.call (f : SB) : Encodes.Statement (.call f) :=
  SB.encodes (c := .call) (m := .spine) (op := 0x03) rfl fun b h => by rw [decodeMap, decodeSpine, h]; rfl

theorem Encodes.ret (f : SG) : Encodes.Statement (.ret f) :=
  SG.encodes (c := .ret) (m := .spine) (op := 0x04) rfl fun b h => by rw [decodeMap, decodeSpine, h]; rfl

theorem Encodes.loop (f : SO) : Encodes.Statement (.loop f) :=
  SO.encodes (c := .loop) (m := .spine) (op := 0x05) rfl fun b h => by rw [decodeMap, decodeSpine, h]; rfl

theorem Encodes.loopx (f : SO) : Encodes.Statement (.loopx f) :=
  SO.encodes (c := .loopx) (m := .spine) (op := 0x06) rfl fun b h => by rw [decodeMap, decodeSpine, h]; rfl

theorem Encodes.endLaunch (f : SG) : Encodes.Statement (.endLaunch f) :=
  SG.encodes (c := .endLaunch) (m := .spine) (op := 0x07) rfl fun b h => by rw [decodeMap, decodeSpine, h]; rfl

theorem Encodes.waitv (f : SG) : Encodes.Statement (.waitv f) :=
  SG.encodes (c := .waitv) (m := .spine) (op := 0x08) rfl fun b h => by rw [decodeMap, decodeSpine, h]; rfl

theorem Encodes.bri (f : SG) : Encodes.Statement (.bri f) :=
  SG.encodes (c := .bri) (m := .spine) (op := 0x09) rfl fun b h => by rw [decodeMap, decodeSpine, h]; rfl

theorem Encodes.add (f : SG) : Encodes.Statement (.add f) :=
  SG.encodes (c := .add) (m := .spine) (op := 0x10) rfl fun b h => by rw [decodeMap, decodeSpine, h]; rfl

theorem Encodes.sub (f : SG) : Encodes.Statement (.sub f) :=
  SG.encodes (c := .sub) (m := .spine) (op := 0x11) rfl fun b h => by rw [decodeMap, decodeSpine, h]; rfl

theorem Encodes.mul (f : SG) : Encodes.Statement (.mul f) :=
  SG.encodes (c := .mul) (m := .spine) (op := 0x12) rfl fun b h => by rw [decodeMap, decodeSpine, h]; rfl

theorem Encodes.mulh (f : SG) : Encodes.Statement (.mulh f) :=
  SG.encodes (c := .mulh) (m := .spine) (op := 0x13) rfl fun b h => by rw [decodeMap, decodeSpine, h]; rfl

theorem Encodes.mulhu (f : SG) : Encodes.Statement (.mulhu f) :=
  SG.encodes (c := .mulhu) (m := .spine) (op := 0x14) rfl fun b h => by rw [decodeMap, decodeSpine, h]; rfl

theorem Encodes.div (f : SG) : Encodes.Statement (.div f) :=
  SG.encodes (c := .div) (m := .spine) (op := 0x15) rfl fun b h => by rw [decodeMap, decodeSpine, h]; rfl

theorem Encodes.divu (f : SG) : Encodes.Statement (.divu f) :=
  SG.encodes (c := .divu) (m := .spine) (op := 0x16) rfl fun b h => by rw [decodeMap, decodeSpine, h]; rfl

theorem Encodes.rem (f : SG) : Encodes.Statement (.rem f) :=
  SG.encodes (c := .rem) (m := .spine) (op := 0x17) rfl fun b h => by rw [decodeMap, decodeSpine, h]; rfl

theorem Encodes.remu (f : SG) : Encodes.Statement (.remu f) :=
  SG.encodes (c := .remu) (m := .spine) (op := 0x18) rfl fun b h => by rw [decodeMap, decodeSpine, h]; rfl

theorem Encodes.and (f : SG) : Encodes.Statement (.and f) :=
  SG.encodes (c := .and) (m := .spine) (op := 0x19) rfl fun b h => by rw [decodeMap, decodeSpine, h]; rfl

theorem Encodes.or (f : SG) : Encodes.Statement (.or f) :=
  SG.encodes (c := .or) (m := .spine) (op := 0x1a) rfl fun b h => by rw [decodeMap, decodeSpine, h]; rfl

theorem Encodes.xor (f : SG) : Encodes.Statement (.xor f) :=
  SG.encodes (c := .xor) (m := .spine) (op := 0x1b) rfl fun b h => by rw [decodeMap, decodeSpine, h]; rfl

theorem Encodes.shl (f : SG) : Encodes.Statement (.shl f) :=
  SG.encodes (c := .shl) (m := .spine) (op := 0x1c) rfl fun b h => by rw [decodeMap, decodeSpine, h]; rfl

theorem Encodes.shr (f : SG) : Encodes.Statement (.shr f) :=
  SG.encodes (c := .shr) (m := .spine) (op := 0x1d) rfl fun b h => by rw [decodeMap, decodeSpine, h]; rfl

theorem Encodes.sra (f : SG) : Encodes.Statement (.sra f) :=
  SG.encodes (c := .sra) (m := .spine) (op := 0x1e) rfl fun b h => by rw [decodeMap, decodeSpine, h]; rfl

theorem Encodes.min (f : SG) : Encodes.Statement (.min f) :=
  SG.encodes (c := .min) (m := .spine) (op := 0x1f) rfl fun b h => by rw [decodeMap, decodeSpine, h]; rfl

theorem Encodes.max (f : SG) : Encodes.Statement (.max f) :=
  SG.encodes (c := .max) (m := .spine) (op := 0x20) rfl fun b h => by rw [decodeMap, decodeSpine, h]; rfl

theorem Encodes.minu (f : SG) : Encodes.Statement (.minu f) :=
  SG.encodes (c := .minu) (m := .spine) (op := 0x21) rfl fun b h => by rw [decodeMap, decodeSpine, h]; rfl

theorem Encodes.maxu (f : SG) : Encodes.Statement (.maxu f) :=
  SG.encodes (c := .maxu) (m := .spine) (op := 0x22) rfl fun b h => by rw [decodeMap, decodeSpine, h]; rfl

theorem Encodes.slt (f : SG) : Encodes.Statement (.slt f) :=
  SG.encodes (c := .slt) (m := .spine) (op := 0x23) rfl fun b h => by rw [decodeMap, decodeSpine, h]; rfl

theorem Encodes.sltu (f : SG) : Encodes.Statement (.sltu f) :=
  SG.encodes (c := .sltu) (m := .spine) (op := 0x24) rfl fun b h => by rw [decodeMap, decodeSpine, h]; rfl

theorem Encodes.sel (f : SG) : Encodes.Statement (.sel f) :=
  SG.encodes (c := .sel) (m := .spine) (op := 0x25) rfl fun b h => by rw [decodeMap, decodeSpine, h]; rfl

theorem Encodes.clz (f : SG) : Encodes.Statement (.clz f) :=
  SG.encodes (c := .clz) (m := .spine) (op := 0x26) rfl fun b h => by rw [decodeMap, decodeSpine, h]; rfl

theorem Encodes.popc (f : SG) : Encodes.Statement (.popc f) :=
  SG.encodes (c := .popc) (m := .spine) (op := 0x27) rfl fun b h => by rw [decodeMap, decodeSpine, h]; rfl

theorem Encodes.ext (f : SG) : Encodes.Statement (.ext f) :=
  SG.encodes (c := .ext) (m := .spine) (op := 0x28) rfl fun b h => by rw [decodeMap, decodeSpine, h]; rfl

theorem Encodes.ins (f : SG) : Encodes.Statement (.ins f) :=
  SG.encodes (c := .ins) (m := .spine) (op := 0x29) rfl fun b h => by rw [decodeMap, decodeSpine, h]; rfl

theorem Encodes.addi (f : SI) : Encodes.Statement (.addi f) :=
  SI.encodes (c := .addi) (m := .spine) (op := 0x30) rfl fun b h => by rw [decodeMap, decodeSpine, h]; rfl

theorem Encodes.andi (f : SI) : Encodes.Statement (.andi f) :=
  SI.encodes (c := .andi) (m := .spine) (op := 0x31) rfl fun b h => by rw [decodeMap, decodeSpine, h]; rfl

theorem Encodes.ori (f : SI) : Encodes.Statement (.ori f) :=
  SI.encodes (c := .ori) (m := .spine) (op := 0x32) rfl fun b h => by rw [decodeMap, decodeSpine, h]; rfl

theorem Encodes.xori (f : SI) : Encodes.Statement (.xori f) :=
  SI.encodes (c := .xori) (m := .spine) (op := 0x33) rfl fun b h => by rw [decodeMap, decodeSpine, h]; rfl

theorem Encodes.shli (f : SI) : Encodes.Statement (.shli f) :=
  SI.encodes (c := .shli) (m := .spine) (op := 0x34) rfl fun b h => by rw [decodeMap, decodeSpine, h]; rfl

theorem Encodes.shri (f : SI) : Encodes.Statement (.shri f) :=
  SI.encodes (c := .shri) (m := .spine) (op := 0x35) rfl fun b h => by rw [decodeMap, decodeSpine, h]; rfl

theorem Encodes.srai (f : SI) : Encodes.Statement (.srai f) :=
  SI.encodes (c := .srai) (m := .spine) (op := 0x36) rfl fun b h => by rw [decodeMap, decodeSpine, h]; rfl

theorem Encodes.movi (f : SI) : Encodes.Statement (.movi f) :=
  SI.encodes (c := .movi) (m := .spine) (op := 0x37) rfl fun b h => by rw [decodeMap, decodeSpine, h]; rfl

theorem Encodes.movhi (f : SI) : Encodes.Statement (.movhi f) :=
  SI.encodes (c := .movhi) (m := .spine) (op := 0x38) rfl fun b h => by rw [decodeMap, decodeSpine, h]; rfl

theorem Encodes.slti (f : SI) : Encodes.Statement (.slti f) :=
  SI.encodes (c := .slti) (m := .spine) (op := 0x39) rfl fun b h => by rw [decodeMap, decodeSpine, h]; rfl

theorem Encodes.ldg (f : SM) : Encodes.Statement (.ldg f) :=
  SM.encodes (c := .ldg) (m := .spine) (op := 0x40) rfl fun b h => by rw [decodeMap, decodeSpine, h]; rfl

theorem Encodes.stg (f : SM) : Encodes.Statement (.stg f) :=
  SM.encodes (c := .stg) (m := .spine) (op := 0x41) rfl fun b h => by rw [decodeMap, decodeSpine, h]; rfl

theorem Encodes.atom (f : SM) : Encodes.Statement (.atom f) :=
  SM.encodes (c := .atom) (m := .spine) (op := 0x42) rfl fun b h => by rw [decodeMap, decodeSpine, h]; rfl

theorem Encodes.ldlit (f : SM) : Encodes.Statement (.ldlit f) :=
  SM.encodes (c := .ldlit) (m := .spine) (op := 0x43) rfl fun b h => by rw [decodeMap, decodeSpine, h]; rfl

theorem Encodes.fence (f : SM) : Encodes.Statement (.fence f) :=
  SM.encodes (c := .fence) (m := .spine) (op := 0x44) rfl fun b h => by rw [decodeMap, decodeSpine, h]; rfl

theorem Encodes.strm (f : SE) : Encodes.Statement (.strm f) :=
  SE.encodes (c := .strm) (m := .spine) (op := 0x50) rfl fun b h => by rw [decodeMap, decodeSpine, h]; rfl

theorem Encodes.swait (f : SE) : Encodes.Statement (.swait f) :=
  SE.encodes (c := .swait) (m := .spine) (op := 0x51) rfl fun b h => by rw [decodeMap, decodeSpine, h]; rfl

theorem Encodes.cpy (f : SE) : Encodes.Statement (.cpy f) :=
  SE.encodes (c := .cpy) (m := .spine) (op := 0x52) rfl fun b h => by rw [decodeMap, decodeSpine, h]; rfl

theorem Encodes.coll (f : SE) : Encodes.Statement (.coll f) :=
  SE.encodes (c := .coll) (m := .spine) (op := 0x53) rfl fun b h => by rw [decodeMap, decodeSpine, h]; rfl

theorem Encodes.waitc (f : SE) : Encodes.Statement (.waitc f) :=
  SE.encodes (c := .waitc) (m := .spine) (op := 0x54) rfl fun b h => by rw [decodeMap, decodeSpine, h]; rfl

theorem Encodes.signal (f : SE) : Encodes.Statement (.signal f) :=
  SE.encodes (c := .signal) (m := .spine) (op := 0x55) rfl fun b h => by rw [decodeMap, decodeSpine, h]; rfl

theorem Encodes.bar (f : SE) : Encodes.Statement (.bar f) :=
  SE.encodes (c := .bar) (m := .spine) (op := 0x56) rfl fun b h => by rw [decodeMap, decodeSpine, h]; rfl

theorem Encodes.arrv (f : SE) : Encodes.Statement (.arrv f) :=
  SE.encodes (c := .arrv) (m := .spine) (op := 0x57) rfl fun b h => by rw [decodeMap, decodeSpine, h]; rfl

theorem Encodes.bwait (f : SE) : Encodes.Statement (.bwait f) :=
  SE.encodes (c := .bwait) (m := .spine) (op := 0x58) rfl fun b h => by rw [decodeMap, decodeSpine, h]; rfl

theorem Encodes.launch (f : SE) : Encodes.Statement (.launch f) :=
  SE.encodes (c := .launch) (m := .spine) (op := 0x59) rfl fun b h => by rw [decodeMap, decodeSpine, h]; rfl

theorem Encodes.fbc (f : SG) : Encodes.Statement (.fbc f) :=
  SG.encodes (c := .fbc) (m := .spine) (op := 0x5a) rfl fun b h => by rw [decodeMap, decodeSpine, h]; rfl

theorem Encodes.setm (f : SI) : Encodes.Statement (.setm f) :=
  SI.encodes (c := .setm) (m := .spine) (op := 0x5b) rfl fun b h => by rw [decodeMap, decodeSpine, h]; rfl

theorem Encodes.cfgld (f : SE) : Encodes.Statement (.cfgld f) :=
  SE.encodes (c := .cfgld) (m := .spine) (op := 0x5c) rfl fun b h => by rw [decodeMap, decodeSpine, h]; rfl

theorem Encodes.plsw (f : SG) : Encodes.Statement (.plsw f) :=
  SG.encodes (c := .plsw) (m := .spine) (op := 0x5d) rfl fun b h => by rw [decodeMap, decodeSpine, h]; rfl

theorem Encodes.enter (f : SI) : Encodes.Statement (.enter f) :=
  SI.encodes (c := .enter) (m := .spine) (op := 0x60) rfl fun b h => by rw [decodeMap, decodeSpine, h]; rfl

theorem Encodes.leave (f : SG) : Encodes.Statement (.leave f) :=
  SG.encodes (c := .leave) (m := .spine) (op := 0x61) rfl fun b h => by rw [decodeMap, decodeSpine, h]; rfl

theorem Encodes.trace (f : SG) : Encodes.Statement (.trace f) :=
  SG.encodes (c := .trace) (m := .spine) (op := 0x62) rfl fun b h => by rw [decodeMap, decodeSpine, h]; rfl

theorem Encodes.prog (f : SI) : Encodes.Statement (.prog f) :=
  SI.encodes (c := .prog) (m := .spine) (op := 0x63) rfl fun b h => by rw [decodeMap, decodeSpine, h]; rfl

theorem Encodes.rdcyc (f : SG) : Encodes.Statement (.rdcyc f) :=
  SG.encodes (c := .rdcyc) (m := .spine) (op := 0x64) rfl fun b h => by rw [decodeMap, decodeSpine, h]; rfl

theorem Encodes.rdtime (f : SG) : Encodes.Statement (.rdtime f) :=
  SG.encodes (c := .rdtime) (m := .spine) (op := 0x65) rfl fun b h => by rw [decodeMap, decodeSpine, h]; rfl

theorem Encodes.cntrCfg (f : SG) : Encodes.Statement (.cntrCfg f) := by
  rintro m b h ok
  cases h
  have := SG.minor_of_cntr ok
  simp [decodeMap, decodeSpine, decodeCntr, this]

theorem Encodes.cntrStart (f : SG) : Encodes.Statement (.cntrStart f) := by
  rintro m b h ok
  cases h
  have := SG.minor_of_cntr ok
  simp [decodeMap, decodeSpine, decodeCntr, this]

theorem Encodes.cntrStop (f : SG) : Encodes.Statement (.cntrStop f) := by
  rintro m b h ok
  cases h
  have := SG.minor_of_cntr ok
  simp [decodeMap, decodeSpine, decodeCntr, this]

theorem Encodes.cntrRead (f : SG) : Encodes.Statement (.cntrRead f) := by
  rintro m b h ok
  cases h
  have := SG.minor_of_cntr ok
  simp [decodeMap, decodeSpine, decodeCntr, this]

theorem Encodes.bkpt (f : SI) : Encodes.Statement (.bkpt f) :=
  SI.encodes (c := .bkpt) (m := .spine) (op := 0x67) rfl fun b h => by rw [decodeMap, decodeSpine, h]; rfl

theorem Encodes.jsub (f : SG) : Encodes.Statement (.jsub f) :=
  SG.encodes (c := .jsub) (m := .spine) (op := 0x70) rfl fun b h => by rw [decodeMap, decodeSpine, h]; rfl

theorem Encodes.junsub (f : SG) : Encodes.Statement (.junsub f) :=
  SG.encodes (c := .junsub) (m := .spine) (op := 0x71) rfl fun b h => by rw [decodeMap, decodeSpine, h]; rfl

theorem Encodes.jpin (f : SG) : Encodes.Statement (.jpin f) :=
  SG.encodes (c := .jpin) (m := .spine) (op := 0x72) rfl fun b h => by rw [decodeMap, decodeSpine, h]; rfl

theorem Encodes.junpin (f : SG) : Encodes.Statement (.junpin f) :=
  SG.encodes (c := .junpin) (m := .spine) (op := 0x73) rfl fun b h => by rw [decodeMap, decodeSpine, h]; rfl

theorem Encodes.jprop (f : SG) : Encodes.Statement (.jprop f) :=
  SG.encodes (c := .jprop) (m := .spine) (op := 0x74) rfl fun b h => by rw [decodeMap, decodeSpine, h]; rfl

theorem Encodes.jload (f : SG) : Encodes.Statement (.jload f) :=
  SG.encodes (c := .jload) (m := .spine) (op := 0x75) rfl fun b h => by rw [decodeMap, decodeSpine, h]; rfl

theorem Encodes.jread (f : SG) : Encodes.Statement (.jread f) :=
  SG.encodes (c := .jread) (m := .spine) (op := 0x76) rfl fun b h => by rw [decodeMap, decodeSpine, h]; rfl

theorem Encodes.jwait (f : SG) : Encodes.Statement (.jwait f) :=
  SG.encodes (c := .jwait) (m := .spine) (op := 0x77) rfl fun b h => by rw [decodeMap, decodeSpine, h]; rfl

theorem Encodes.seqnew (f : SG) : Encodes.Statement (.seqnew f) :=
  SG.encodes (c := .seqnew) (m := .spine) (op := 0x78) rfl fun b h => by rw [decodeMap, decodeSpine, h]; rfl

theorem Encodes.seqrot (f : SG) : Encodes.Statement (.seqrot f) :=
  SG.encodes (c := .seqrot) (m := .spine) (op := 0x79) rfl fun b h => by rw [decodeMap, decodeSpine, h]; rfl

theorem Encodes.seqend (f : SG) : Encodes.Statement (.seqend f) :=
  SG.encodes (c := .seqend) (m := .spine) (op := 0x7a) rfl fun b h => by rw [decodeMap, decodeSpine, h]; rfl

theorem Encodes.trap (f : SI) : Encodes.Statement (.trap f) :=
  SI.encodes (c := .trap) (m := .spine) (op := 0x80) rfl fun b h => by rw [decodeMap, decodeSpine, h]; rfl

theorem Encodes.csrr (f : SI) : Encodes.Statement (.csrr f) :=
  SI.encodes (c := .csrr) (m := .spine) (op := 0x81) rfl fun b h => by rw [decodeMap, decodeSpine, h]; rfl

theorem Encodes.csrw (f : SI) : Encodes.Statement (.csrw f) :=
  SI.encodes (c := .csrw) (m := .spine) (op := 0x82) rfl fun b h => by rw [decodeMap, decodeSpine, h]; rfl

theorem Encodes.genadv (f : SG) : Encodes.Statement (.genadv f) :=
  SG.encodes (c := .genadv) (m := .spine) (op := 0x83) rfl fun b h => by rw [decodeMap, decodeSpine, h]; rfl

theorem Encodes.yield (f : SG) : Encodes.Statement (.yield f) :=
  SG.encodes (c := .yield) (m := .spine) (op := 0x84) rfl fun b h => by rw [decodeMap, decodeSpine, h]; rfl

theorem Encodes.vadd (f : AV) : Encodes.Statement (.vadd f) :=
  AV.encodes (c := .vadd) (m := .fabricA) (op := 0x01) rfl fun b h => by rw [decodeMap, decodeFabricA, h]; rfl

theorem Encodes.vsub (f : AV) : Encodes.Statement (.vsub f) :=
  AV.encodes (c := .vsub) (m := .fabricA) (op := 0x02) rfl fun b h => by rw [decodeMap, decodeFabricA, h]; rfl

theorem Encodes.vmul (f : AV) : Encodes.Statement (.vmul f) :=
  AV.encodes (c := .vmul) (m := .fabricA) (op := 0x03) rfl fun b h => by rw [decodeMap, decodeFabricA, h]; rfl

theorem Encodes.vmulh (f : AV) : Encodes.Statement (.vmulh f) :=
  AV.encodes (c := .vmulh) (m := .fabricA) (op := 0x04) rfl fun b h => by rw [decodeMap, decodeFabricA, h]; rfl

theorem Encodes.vmad (f : AV) : Encodes.Statement (.vmad f) :=
  AV.encodes (c := .vmad) (m := .fabricA) (op := 0x05) rfl fun b h => by rw [decodeMap, decodeFabricA, h]; rfl

theorem Encodes.vand (f : AV) : Encodes.Statement (.vand f) :=
  AV.encodes (c := .vand) (m := .fabricA) (op := 0x06) rfl fun b h => by rw [decodeMap, decodeFabricA, h]; rfl

theorem Encodes.vor (f : AV) : Encodes.Statement (.vor f) :=
  AV.encodes (c := .vor) (m := .fabricA) (op := 0x07) rfl fun b h => by rw [decodeMap, decodeFabricA, h]; rfl

theorem Encodes.vxor (f : AV) : Encodes.Statement (.vxor f) :=
  AV.encodes (c := .vxor) (m := .fabricA) (op := 0x08) rfl fun b h => by rw [decodeMap, decodeFabricA, h]; rfl

theorem Encodes.vshl (f : AV) : Encodes.Statement (.vshl f) :=
  AV.encodes (c := .vshl) (m := .fabricA) (op := 0x09) rfl fun b h => by rw [decodeMap, decodeFabricA, h]; rfl

theorem Encodes.vshr (f : AV) : Encodes.Statement (.vshr f) :=
  AV.encodes (c := .vshr) (m := .fabricA) (op := 0x0a) rfl fun b h => by rw [decodeMap, decodeFabricA, h]; rfl

theorem Encodes.vsra (f : AV) : Encodes.Statement (.vsra f) :=
  AV.encodes (c := .vsra) (m := .fabricA) (op := 0x0b) rfl fun b h => by rw [decodeMap, decodeFabricA, h]; rfl

theorem Encodes.vmin (f : AV) : Encodes.Statement (.vmin f) :=
  AV.encodes (c := .vmin) (m := .fabricA) (op := 0x0c) rfl fun b h => by rw [decodeMap, decodeFabricA, h]; rfl

theorem Encodes.vmax (f : AV) : Encodes.Statement (.vmax f) :=
  AV.encodes (c := .vmax) (m := .fabricA) (op := 0x0d) rfl fun b h => by rw [decodeMap, decodeFabricA, h]; rfl

theorem Encodes.vabs (f : AV) : Encodes.Statement (.vabs f) :=
  AV.encodes (c := .vabs) (m := .fabricA) (op := 0x0e) rfl fun b h => by rw [decodeMap, decodeFabricA, h]; rfl

theorem Encodes.vcmp (f : AV) : Encodes.Statement (.vcmp f) :=
  AV.encodes (c := .vcmp) (m := .fabricA) (op := 0x0f) rfl fun b h => by rw [decodeMap, decodeFabricA, h]; rfl

theorem Encodes.vsel (f : AV) : Encodes.Statement (.vsel f) :=
  AV.encodes (c := .vsel) (m := .fabricA) (op := 0x10) rfl fun b h => by rw [decodeMap, decodeFabricA, h]; rfl

theorem Encodes.vclz (f : AV) : Encodes.Statement (.vclz f) :=
  AV.encodes (c := .vclz) (m := .fabricA) (op := 0x11) rfl fun b h => by rw [decodeMap, decodeFabricA, h]; rfl

theorem Encodes.vpopc (f : AV) : Encodes.Statement (.vpopc f) :=
  AV.encodes (c := .vpopc) (m := .fabricA) (op := 0x12) rfl fun b h => by rw [decodeMap, decodeFabricA, h]; rfl

theorem Encodes.vaddi (f : AI) : Encodes.Statement (.vaddi f) :=
  AI.encodes (c := .vaddi) (m := .fabricA) (op := 0x13) rfl fun b h => by rw [decodeMap, decodeFabricA, h]; rfl

theorem Encodes.vmuli (f : AI) : Encodes.Statement (.vmuli f) :=
  AI.encodes (c := .vmuli) (m := .fabricA) (op := 0x14) rfl fun b h => by rw [decodeMap, decodeFabricA, h]; rfl

theorem Encodes.vandi (f : AI) : Encodes.Statement (.vandi f) :=
  AI.encodes (c := .vandi) (m := .fabricA) (op := 0x15) rfl fun b h => by rw [decodeMap, decodeFabricA, h]; rfl

theorem Encodes.vshli (f : AI) : Encodes.Statement (.vshli f) :=
  AI.encodes (c := .vshli) (m := .fabricA) (op := 0x16) rfl fun b h => by rw [decodeMap, decodeFabricA, h]; rfl

theorem Encodes.vshri (f : AI) : Encodes.Statement (.vshri f) :=
  AI.encodes (c := .vshri) (m := .fabricA) (op := 0x17) rfl fun b h => by rw [decodeMap, decodeFabricA, h]; rfl

theorem Encodes.vmovi (f : AI) : Encodes.Statement (.vmovi f) :=
  AI.encodes (c := .vmovi) (m := .fabricA) (op := 0x18) rfl fun b h => by rw [decodeMap, decodeFabricA, h]; rfl

theorem Encodes.fadd (f : AV) : Encodes.Statement (.fadd f) :=
  AV.encodes (c := .fadd) (m := .fabricA) (op := 0x20) rfl fun b h => by rw [decodeMap, decodeFabricA, h]; rfl

theorem Encodes.fsub (f : AV) : Encodes.Statement (.fsub f) :=
  AV.encodes (c := .fsub) (m := .fabricA) (op := 0x21) rfl fun b h => by rw [decodeMap, decodeFabricA, h]; rfl

theorem Encodes.fmul (f : AV) : Encodes.Statement (.fmul f) :=
  AV.encodes (c := .fmul) (m := .fabricA) (op := 0x22) rfl fun b h => by rw [decodeMap, decodeFabricA, h]; rfl

theorem Encodes.ffma (f : AV) : Encodes.Statement (.ffma f) :=
  AV.encodes (c := .ffma) (m := .fabricA) (op := 0x23) rfl fun b h => by rw [decodeMap, decodeFabricA, h]; rfl

theorem Encodes.fmin (f : AV) : Encodes.Statement (.fmin f) :=
  AV.encodes (c := .fmin) (m := .fabricA) (op := 0x24) rfl fun b h => by rw [decodeMap, decodeFabricA, h]; rfl

theorem Encodes.fmax (f : AV) : Encodes.Statement (.fmax f) :=
  AV.encodes (c := .fmax) (m := .fabricA) (op := 0x25) rfl fun b h => by rw [decodeMap, decodeFabricA, h]; rfl

theorem Encodes.fabs (f : AV) : Encodes.Statement (.fabs f) :=
  AV.encodes (c := .fabs) (m := .fabricA) (op := 0x26) rfl fun b h => by rw [decodeMap, decodeFabricA, h]; rfl

theorem Encodes.fneg (f : AV) : Encodes.Statement (.fneg f) :=
  AV.encodes (c := .fneg) (m := .fabricA) (op := 0x27) rfl fun b h => by rw [decodeMap, decodeFabricA, h]; rfl

theorem Encodes.fcmp (f : AV) : Encodes.Statement (.fcmp f) :=
  AV.encodes (c := .fcmp) (m := .fabricA) (op := 0x28) rfl fun b h => by rw [decodeMap, decodeFabricA, h]; rfl

theorem Encodes.frcp (f : AV) : Encodes.Statement (.frcp f) :=
  AV.encodes (c := .frcp) (m := .fabricA) (op := 0x29) rfl fun b h => by rw [decodeMap, decodeFabricA, h]; rfl

theorem Encodes.frsq (f : AV) : Encodes.Statement (.frsq f) :=
  AV.encodes (c := .frsq) (m := .fabricA) (op := 0x2a) rfl fun b h => by rw [decodeMap, decodeFabricA, h]; rfl

theorem Encodes.fexp2 (f : AV) : Encodes.Statement (.fexp2 f) :=
  AV.encodes (c := .fexp2) (m := .fabricA) (op := 0x2b) rfl fun b h => by rw [decodeMap, decodeFabricA, h]; rfl

theorem Encodes.flog2 (f : AV) : Encodes.Statement (.flog2 f) :=
  AV.encodes (c := .flog2) (m := .fabricA) (op := 0x2c) rfl fun b h => by rw [decodeMap, decodeFabricA, h]; rfl

theorem Encodes.ftanh (f : AV) : Encodes.Statement (.ftanh f) :=
  AV.encodes (c := .ftanh) (m := .fabricA) (op := 0x2d) rfl fun b h => by rw [decodeMap, decodeFabricA, h]; rfl

theorem Encodes.fcvt (f : AV) : Encodes.Statement (.fcvt f) :=
  AV.encodes (c := .fcvt) (m := .fabricA) (op := 0x2e) rfl fun b h => by rw [decodeMap, decodeFabricA, h]; rfl

theorem Encodes.frndi (f : AV) : Encodes.Statement (.frndi f) :=
  AV.encodes (c := .frndi) (m := .fabricA) (op := 0x2f) rfl fun b h => by rw [decodeMap, decodeFabricA, h]; rfl

theorem Encodes.fscl (f : AV) : Encodes.Statement (.fscl f) :=
  AV.encodes (c := .fscl) (m := .fabricA) (op := 0x30) rfl fun b h => by rw [decodeMap, decodeFabricA, h]; rfl

theorem Encodes.fmuli (f : AI) : Encodes.Statement (.fmuli f) :=
  AI.encodes (c := .fmuli) (m := .fabricA) (op := 0x31) rfl fun b h => by rw [decodeMap, decodeFabricA, h]; rfl

theorem Encodes.vred (f : AV) : Encodes.Statement (.vred f) :=
  AV.encodes (c := .vred) (m := .fabricA) (op := 0x40) rfl fun b h => by rw [decodeMap, decodeFabricA, h]; rfl

theorem Encodes.vshuf (f : AV) : Encodes.Statement (.vshuf f) :=
  AV.encodes (c := .vshuf) (m := .fabricA) (op := 0x41) rfl fun b h => by rw [decodeMap, decodeFabricA, h]; rfl

theorem Encodes.vrot (f : AV) : Encodes.Statement (.vrot f) :=
  AV.encodes (c := .vrot) (m := .fabricA) (op := 0x42) rfl fun b h => by rw [decodeMap, decodeFabricA, h]; rfl

theorem Encodes.vbcst (f : AV) : Encodes.Statement (.vbcst f) :=
  AV.encodes (c := .vbcst) (m := .fabricA) (op := 0x43) rfl fun b h => by rw [decodeMap, decodeFabricA, h]; rfl

theorem Encodes.vins (f : AV) : Encodes.Statement (.vins f) :=
  AV.encodes (c := .vins) (m := .fabricA) (op := 0x44) rfl fun b h => by rw [decodeMap, decodeFabricA, h]; rfl

theorem Encodes.vext (f : AV) : Encodes.Statement (.vext f) :=
  AV.encodes (c := .vext) (m := .fabricA) (op := 0x45) rfl fun b h => by rw [decodeMap, decodeFabricA, h]; rfl

theorem Encodes.vscan (f : AV) : Encodes.Statement (.vscan f) :=
  AV.encodes (c := .vscan) (m := .fabricA) (op := 0x46) rfl fun b h => by rw [decodeMap, decodeFabricA, h]; rfl

theorem Encodes.mma (f : AM) : Encodes.Statement (.mma f) :=
  AM.encodes (c := .mma) (m := .fabricA) (op := 0x50) rfl fun b h => by rw [decodeMap, decodeFabricA, h]; rfl

theorem Encodes.mmas (f : AM) : Encodes.Statement (.mmas f) :=
  AM.encodes (c := .mmas) (m := .fabricA) (op := 0x51) rfl fun b h => by rw [decodeMap, decodeFabricA, h]; rfl

theorem Encodes.mzero (f : AM) : Encodes.Statement (.mzero f) :=
  AM.encodes (c := .mzero) (m := .fabricA) (op := 0x52) rfl fun b h => by rw [decodeMap, decodeFabricA, h]; rfl

theorem Encodes.mdrn (f : AM) : Encodes.Statement (.mdrn f) :=
  AM.encodes (c := .mdrn) (m := .fabricA) (op := 0x53) rfl fun b h => by rw [decodeMap, decodeFabricA, h]; rfl

theorem Encodes.mdrq (f : AM) : Encodes.Statement (.mdrq f) :=
  AM.encodes (c := .mdrq) (m := .fabricA) (op := 0x54) rfl fun b h => by rw [decodeMap, decodeFabricA, h]; rfl

theorem Encodes.mldr (f : AM) : Encodes.Statement (.mldr f) :=
  AM.encodes (c := .mldr) (m := .fabricA) (op := 0x55) rfl fun b h => by rw [decodeMap, decodeFabricA, h]; rfl

theorem Encodes.mtrn (f : AM) : Encodes.Statement (.mtrn f) :=
  AM.encodes (c := .mtrn) (m := .fabricA) (op := 0x56) rfl fun b h => by rw [decodeMap, decodeFabricA, h]; rfl

theorem Encodes.sadd (f : AS) : Encodes.Statement (.sadd f) :=
  AS.encodes (c := .sadd) (m := .fabricA) (op := 0x60) rfl fun b h => by rw [decodeMap, decodeFabricA, h]; rfl

theorem Encodes.ssub (f : AS) : Encodes.Statement (.ssub f) :=
  AS.encodes (c := .ssub) (m := .fabricA) (op := 0x61) rfl fun b h => by rw [decodeMap, decodeFabricA, h]; rfl

theorem Encodes.smul (f : AS) : Encodes.Statement (.smul f) :=
  AS.encodes (c := .smul) (m := .fabricA) (op := 0x62) rfl fun b h => by rw [decodeMap, decodeFabricA, h]; rfl

theorem Encodes.sand (f : AS) : Encodes.Statement (.sand f) :=
  AS.encodes (c := .sand) (m := .fabricA) (op := 0x63) rfl fun b h => by rw [decodeMap, decodeFabricA, h]; rfl

theorem Encodes.sor (f : AS) : Encodes.Statement (.sor f) :=
  AS.encodes (c := .sor) (m := .fabricA) (op := 0x64) rfl fun b h => by rw [decodeMap, decodeFabricA, h]; rfl

theorem Encodes.sxor (f : AS) : Encodes.Statement (.sxor f) :=
  AS.encodes (c := .sxor) (m := .fabricA) (op := 0x65) rfl fun b h => by rw [decodeMap, decodeFabricA, h]; rfl

theorem Encodes.sshl (f : AS) : Encodes.Statement (.sshl f) :=
  AS.encodes (c := .sshl) (m := .fabricA) (op := 0x66) rfl fun b h => by rw [decodeMap, decodeFabricA, h]; rfl

theorem Encodes.sshr (f : AS) : Encodes.Statement (.sshr f) :=
  AS.encodes (c := .sshr) (m := .fabricA) (op := 0x67) rfl fun b h => by rw [decodeMap, decodeFabricA, h]; rfl

theorem Encodes.smovi (f : AS) : Encodes.Statement (.smovi f) :=
  AS.encodes (c := .smovi) (m := .fabricA) (op := 0x68) rfl fun b h => by rw [decodeMap, decodeFabricA, h]; rfl

theorem Encodes.sslt (f : AS) : Encodes.Statement (.sslt f) :=
  AS.encodes (c := .sslt) (m := .fabricA) (op := 0x69) rfl fun b h => by rw [decodeMap, decodeFabricA, h]; rfl

theorem Encodes.saddi (f : AS) : Encodes.Statement (.saddi f) :=
  AS.encodes (c := .saddi) (m := .fabricA) (op := 0x6a) rfl fun b h => by rw [decodeMap, decodeFabricA, h]; rfl

theorem Encodes.kand (f : AK) : Encodes.Statement (.kand f) :=
  AK.encodes (c := .kand) (m := .fabricA) (op := 0x70) rfl fun b h => by rw [decodeMap, decodeFabricA, h]; rfl

theorem Encodes.kor (f : AK) : Encodes.Statement (.kor f) :=
  AK.encodes (c := .kor) (m := .fabricA) (op := 0x71) rfl fun b h => by rw [decodeMap, decodeFabricA, h]; rfl

theorem Encodes.kxor (f : AK) : Encodes.Statement (.kxor f) :=
  AK.encodes (c := .kxor) (m := .fabricA) (op := 0x72) rfl fun b h => by rw [decodeMap, decodeFabricA, h]; rfl

theorem Encodes.knot (f : AK) : Encodes.Statement (.knot f) :=
  AK.encodes (c := .knot) (m := .fabricA) (op := 0x73) rfl fun b h => by rw [decodeMap, decodeFabricA, h]; rfl

theorem Encodes.kmov (f : AK) : Encodes.Statement (.kmov f) :=
  AK.encodes (c := .kmov) (m := .fabricA) (op := 0x74) rfl fun b h => by rw [decodeMap, decodeFabricA, h]; rfl

theorem Encodes.kpopc (f : AK) : Encodes.Statement (.kpopc f) :=
  AK.encodes (c := .kpopc) (m := .fabricA) (op := 0x75) rfl fun b h => by rw [decodeMap, decodeFabricA, h]; rfl

theorem Encodes.vote (f : AK) : Encodes.Statement (.vote f) :=
  AK.encodes (c := .vote) (m := .fabricA) (op := 0x78) rfl fun b h => by rw [decodeMap, decodeFabricA, h]; rfl

theorem Encodes.elid (f : AS) : Encodes.Statement (.elid f) :=
  AS.encodes (c := .elid) (m := .fabricA) (op := 0x79) rfl fun b h => by rw [decodeMap, decodeFabricA, h]; rfl

theorem Encodes.ld (f : BL) : Encodes.Statement (.ld f) :=
  BL.encodes (c := .ld) (m := .fabricB) (op := 0x01) rfl fun b h => by rw [decodeMap, decodeFabricB, h]; rfl

theorem Encodes.st (f : BL) : Encodes.Statement (.st f) :=
  BL.encodes (c := .st) (m := .fabricB) (op := 0x02) rfl fun b h => by rw [decodeMap, decodeFabricB, h]; rfl

theorem Encodes.lds (f : BL) : Encodes.Statement (.lds f) :=
  BL.encodes (c := .lds) (m := .fabricB) (op := 0x03) rfl fun b h => by rw [decodeMap, decodeFabricB, h]; rfl

theorem Encodes.sts (f : BL) : Encodes.Statement (.sts f) :=
  BL.encodes (c := .sts) (m := .fabricB) (op := 0x04) rfl fun b h => by rw [decodeMap, decodeFabricB, h]; rfl

theorem Encodes.ldx (f : BL) : Encodes.Statement (.ldx f) :=
  BL.encodes (c := .ldx) (m := .fabricB) (op := 0x05) rfl fun b h => by rw [decodeMap, decodeFabricB, h]; rfl

theorem Encodes.stx (f : BL) : Encodes.Statement (.stx f) :=
  BL.encodes (c := .stx) (m := .fabricB) (op := 0x06) rfl fun b h => by rw [decodeMap, decodeFabricB, h]; rfl

theorem Encodes.ldb (f : BL) : Encodes.Statement (.ldb f) :=
  BL.encodes (c := .ldb) (m := .fabricB) (op := 0x07) rfl fun b h => by rw [decodeMap, decodeFabricB, h]; rfl

theorem Encodes.stb (f : BL) : Encodes.Statement (.stb f) :=
  BL.encodes (c := .stb) (m := .fabricB) (op := 0x08) rfl fun b h => by rw [decodeMap, decodeFabricB, h]; rfl

theorem Encodes.satom (f : BL) : Encodes.Statement (.satom f) :=
  BL.encodes (c := .satom) (m := .fabricB) (op := 0x09) rfl fun b h => by rw [decodeMap, decodeFabricB, h]; rfl

theorem Encodes.bdecl (f : BD) : Encodes.Statement (.bdecl f) :=
  BD.encodes (c := .bdecl) (m := .fabricB) (op := 0x10) rfl fun b h => by rw [decodeMap, decodeFabricB, h]; rfl

theorem Encodes.bstateFull (f : BD) : Encodes.Statement (.bstateFull f) := by
  rintro m b h ok
  cases h
  have := BD.minor_of_bstate ok
  simp [decodeMap, decodeFabricB, decodeBstate, this]

theorem Encodes.bstateEmpty (f : BD) : Encodes.Statement (.bstateEmpty f) := by
  rintro m b h ok
  cases h
  have := BD.minor_of_bstate ok
  simp [decodeMap, decodeFabricB, decodeBstate, this]

theorem Encodes.bqry (f : BD) : Encodes.Statement (.bqry f) :=
  BD.encodes (c := .bqry) (m := .fabricB) (op := 0x12) rfl fun b h => by rw [decodeMap, decodeFabricB, h]; rfl

theorem Encodes.rt (f : BT) : Encodes.Statement (.rt f) :=
  BT.encodes (c := .rt) (m := .fabricB) (op := 0x20) rfl fun b h => by rw [decodeMap, decodeFabricB, h]; rfl

theorem Encodes.vmov (f : BD) : Encodes.Statement (.vmov f) :=
  BD.encodes (c := .vmov) (m := .fabricB) (op := 0x30) rfl fun b h => by rw [decodeMap, decodeFabricB, h]; rfl

theorem Encodes.smov (f : BD) : Encodes.Statement (.smov f) :=
  BD.encodes (c := .smov) (m := .fabricB) (op := 0x31) rfl fun b h => by rw [decodeMap, decodeFabricB, h]; rfl

theorem Encodes.ringset (f : BD) : Encodes.Statement (.ringset f) :=
  BD.encodes (c := .ringset) (m := .fabricB) (op := 0x32) rfl fun b h => by rw [decodeMap, decodeFabricB, h]; rfl

theorem Encodes.vfroms (f : BD) : Encodes.Statement (.vfroms f) :=
  BD.encodes (c := .vfroms) (m := .fabricB) (op := 0x33) rfl fun b h => by rw [decodeMap, decodeFabricB, h]; rfl

theorem Encodes.egrVector (f : BD) : Encodes.Statement (.egrVector f) := by
  rintro m b h ok
  cases h
  have from_ := BD.from_of_egr ok
  simp at from_
  simp [decodeMap, decodeFabricB, decodeEgr, from_]

theorem Encodes.egrBuffer (f : BD) : Encodes.Statement (.egrBuffer f) := by
  rintro m b h ok
  cases h
  have from_ := BD.from_of_egr ok
  simp at from_
  simp [decodeMap, decodeFabricB, decodeEgr, from_]

theorem Encodes.cntSel (f : BD) : Encodes.Statement (.cntSel f) := by
  rintro m b h ok
  cases h
  have := BD.minor_of_cnt ok
  simp [decodeMap, decodeFabricB, decodeCnt, this]

theorem Encodes.cntRdlo (f : BD) : Encodes.Statement (.cntRdlo f) := by
  rintro m b h ok
  cases h
  have := BD.minor_of_cnt ok
  simp [decodeMap, decodeFabricB, decodeCnt, this]

theorem Encodes.cntRdhi (f : BD) : Encodes.Statement (.cntRdhi f) := by
  rintro m b h ok
  cases h
  have := BD.minor_of_cnt ok
  simp [decodeMap, decodeFabricB, decodeCnt, this]

theorem Encodes.cntClr (f : BD) : Encodes.Statement (.cntClr f) := by
  rintro m b h ok
  cases h
  have := BD.minor_of_cnt ok
  simp [decodeMap, decodeFabricB, decodeCnt, this]

theorem Encodes.cntHlo (f : BD) : Encodes.Statement (.cntHlo f) := by
  rintro m b h ok
  cases h
  have := BD.minor_of_cnt ok
  simp [decodeMap, decodeFabricB, decodeCnt, this]

theorem Encodes.cntHhi (f : BD) : Encodes.Statement (.cntHhi f) := by
  rintro m b h ok
  cases h
  have := BD.minor_of_cnt ok
  simp [decodeMap, decodeFabricB, decodeCnt, this]

theorem Encodes.spineEmitWord (sig : Nat) : Encodes.Statement (.spineEmitWord sig) := Encodes.ofEvent rfl

theorem Encodes.fetchBlockArrives (sig block : Nat) : Encodes.Statement (.fetchBlockArrives sig block) := Encodes.ofEvent rfl

theorem Encodes.resultLands (sig row col : Nat) : Encodes.Statement (.resultLands sig row col) := Encodes.ofEvent rfl

theorem Encodes.voteResultDelivered (sig : Nat) : Encodes.Statement (.voteResultDelivered sig) := Encodes.ofEvent rfl

theorem Encodes.routeValueLands (sig row col : Nat) : Encodes.Statement (.routeValueLands sig row col) := Encodes.ofEvent rfl

theorem Encodes.waitConditionCheck (sig : Nat) : Encodes.Statement (.waitConditionCheck sig) := Encodes.ofEvent rfl

theorem Encodes.holdFreeze (sig : Nat) : Encodes.Statement (.holdFreeze sig) := Encodes.ofEvent rfl

theorem Encodes.holdRelease (sig : Nat) : Encodes.Statement (.holdRelease sig) := Encodes.ofEvent rfl

theorem Encodes.spineWaitSatisfied (sig : Nat) : Encodes.Statement (.spineWaitSatisfied sig) := Encodes.ofEvent rfl

theorem Encodes.waitcPoll (sig : Nat) : Encodes.Statement (.waitcPoll sig) := Encodes.ofEvent rfl

theorem Encodes.cwaitPoll (vif : Nat) : Encodes.Statement (.cwaitPoll vif) := Encodes.ofEvent rfl

theorem Encodes.priorityAging (vif : Nat) : Encodes.Statement (.priorityAging vif) := Encodes.ofEvent rfl

theorem Encodes.candidateBecomesBlocking (vif : Nat) : Encodes.Statement (.candidateBecomesBlocking vif) := Encodes.ofEvent rfl

theorem Encodes.freezeWaveEffect (sig : Nat) : Encodes.Statement (.freezeWaveEffect sig) := Encodes.ofEvent rfl

theorem Encodes.imageSave (sig : Nat) : Encodes.Statement (.imageSave sig) := Encodes.ofEvent rfl

theorem Encodes.imageRestore (sig row col : Nat) : Encodes.Statement (.imageRestore sig row col) := Encodes.ofEvent rfl

theorem Encodes.wrapSweep (sig : Nat) : Encodes.Statement (.wrapSweep sig) := Encodes.ofEvent rfl

theorem Encodes.seamPlaneSwitch (sig : Nat) : Encodes.Statement (.seamPlaneSwitch sig) := Encodes.ofEvent rfl

theorem Encodes.seamGenerationAdvance (sig : Nat) : Encodes.Statement (.seamGenerationAdvance sig) := Encodes.ofEvent rfl

theorem Encodes.launchComplete (sig : Nat) : Encodes.Statement (.launchComplete sig) := Encodes.ofEvent rfl

theorem Encodes.interruptWindowExpiry (vif : Nat) : Encodes.Statement (.interruptWindowExpiry vif) := Encodes.ofEvent rfl

theorem Encodes.planeLoadComplete (folio plane : Nat) : Encodes.Statement (.planeLoadComplete folio plane) := Encodes.ofEvent rfl

theorem Encodes.streamRequestIssue (sig ctx : Nat) : Encodes.Statement (.streamRequestIssue sig ctx) := Encodes.ofEvent rfl

theorem Encodes.tlbWalkComplete (request : Nat) : Encodes.Statement (.tlbWalkComplete request) := Encodes.ofEvent rfl

theorem Encodes.keyCacheUnwrap (request : Nat) : Encodes.Statement (.keyCacheUnwrap request) := Encodes.ofEvent rfl

theorem Encodes.homeApplyRequest (request : Nat) : Encodes.Statement (.homeApplyRequest request) := Encodes.ofEvent rfl

theorem Encodes.requestReply (request : Nat) : Encodes.Statement (.requestReply request) := Encodes.ofEvent rfl

theorem Encodes.fillHalfLands (sig ctx : Nat) : Encodes.Statement (.fillHalfLands sig ctx) := Encodes.ofEvent rfl

theorem Encodes.deferredVoid (sig ctx : Nat) : Encodes.Statement (.deferredVoid sig ctx) := Encodes.ofEvent rfl

theorem Encodes.egressGranuleTaken (sig row col : Nat) : Encodes.Statement (.egressGranuleTaken sig row col) := Encodes.ofEvent rfl

theorem Encodes.streamComplete (sig ctx : Nat) : Encodes.Statement (.streamComplete sig ctx) := Encodes.ofEvent rfl

theorem Encodes.readAheadExpiry (sig : Nat) : Encodes.Statement (.readAheadExpiry sig) := Encodes.ofEvent rfl

theorem Encodes.cpyUnitTransfer (copy : CopyRef) : Encodes.Statement (.cpyUnitTransfer copy) := Encodes.ofEvent rfl

theorem Encodes.collStepStart (step : Nat) : Encodes.Statement (.collStepStart step) := Encodes.ofEvent rfl

theorem Encodes.collRetransmit (step : Nat) : Encodes.Statement (.collRetransmit step) := Encodes.ofEvent rfl

theorem Encodes.collStepTimeout (step : Nat) : Encodes.Statement (.collStepTimeout step) := Encodes.ofEvent rfl

theorem Encodes.faultStopFreeze (sig : Nat) : Encodes.Statement (.faultStopFreeze sig) := Encodes.ofEvent rfl

theorem Encodes.faultStopResume (sig : Nat) : Encodes.Statement (.faultStopResume sig) := Encodes.ofEvent rfl

theorem Encodes.launchEndByFault (sig : Nat) : Encodes.Statement (.launchEndByFault sig) := Encodes.ofEvent rfl

theorem Encodes.transactionApply (number : Nat) : Encodes.Statement (.transactionApply number) := Encodes.ofEvent rfl

theorem Encodes.fmtApply (number : Nat) : Encodes.Statement (.fmtApply number) := Encodes.ofEvent rfl

theorem Encodes.trialStart (number : Nat) : Encodes.Statement (.trialStart number) := Encodes.ofEvent rfl

theorem Encodes.trialWindowEnd (number : Nat) : Encodes.Statement (.trialWindowEnd number) := Encodes.ofEvent rfl

theorem Encodes.trialTimeout (number : Nat) : Encodes.Statement (.trialTimeout number) := Encodes.ofEvent rfl

theorem Encodes.proposalValidityExpiry (number : Nat) : Encodes.Statement (.proposalValidityExpiry number) := Encodes.ofEvent rfl

theorem Encodes.compoundRevertUndo (number : Nat) : Encodes.Statement (.compoundRevertUndo number) := Encodes.ofEvent rfl

theorem Encodes.causalTrial (sig region fraction : Nat) (wlog : Nat) : Encodes.Statement (.causalTrial sig region fraction wlog) := Encodes.ofEvent rfl

theorem Encodes.causalDelay (sig : Nat) : Encodes.Statement (.causalDelay sig) := Encodes.ofEvent rfl

theorem Encodes.folioPowerGate (folio : Nat) : Encodes.Statement (.folioPowerGate folio) := Encodes.ofEvent rfl

theorem Encodes.folioUngateComplete (folio : Nat) : Encodes.Statement (.folioUngateComplete folio) := Encodes.ofEvent rfl

theorem Encodes.traceStageDrain (die : Nat) : Encodes.Statement (.traceStageDrain die) := Encodes.ofEvent rfl

theorem Encodes.traceRingCopy (die : Nat) : Encodes.Statement (.traceRingCopy die) := Encodes.ofEvent rfl

theorem Encodes.launchWindowWrite (vif offset size : Nat) (record : Vec) : Encodes.Statement (.launchWindowWrite vif offset size record) := Encodes.ofEvent rfl

theorem Encodes.binderyStep : Encodes.Statement .binderyStep := Encodes.ofEvent rfl

theorem Encodes.planeLoadError (folio plane : Nat) : Encodes.Statement (.planeLoadError folio plane) := Encodes.ofEvent rfl

theorem Encodes.tlbinvAll : Encodes.Statement .tlbinvAll := Encodes.ofEvent rfl

theorem Encodes.tlbinvInterface (vif : Nat) : Encodes.Statement (.tlbinvInterface vif) := Encodes.ofEvent rfl

theorem Encodes.tlbinvPage (vif addr : Nat) : Encodes.Statement (.tlbinvPage vif addr) := Encodes.ofEvent rfl

theorem Encodes.tlbinvPageAll (addr : Nat) : Encodes.Statement (.tlbinvPageAll addr) := Encodes.ofEvent rfl

theorem Encodes.tlbinvComplete : Encodes.Statement .tlbinvComplete := Encodes.ofEvent rfl

theorem Encodes.dmaWindowWrite (priv : Bool) (vif offset size : Nat) (block : Vec) : Encodes.Statement (.dmaWindowWrite priv vif offset size block) := Encodes.ofEvent rfl

theorem Encodes.dataImageCopy (vif : Nat) (block : Vec) : Encodes.Statement (.dataImageCopy vif block) := Encodes.ofEvent rfl

theorem Encodes.dmaCopyStart : Encodes.Statement .dmaCopyStart := Encodes.ofEvent rfl

theorem Encodes.collGrantReceive (frame : Frame) : Encodes.Statement (.collGrantReceive frame) := Encodes.ofEvent rfl

theorem Encodes.collDataFrameReceive (frame : Frame) : Encodes.Statement (.collDataFrameReceive frame) := Encodes.ofEvent rfl

theorem Encodes.collAckReceive (frame : Frame) : Encodes.Statement (.collAckReceive frame) := Encodes.ofEvent rfl

theorem Encodes.ethernetPortDown (port : Nat) : Encodes.Statement (.ethernetPortDown port) := Encodes.ofEvent rfl

theorem Encodes.ptpMessageReceive (port : Nat) (offset : Int) : Encodes.Statement (.ptpMessageReceive port offset) := Encodes.ofEvent rfl

theorem Encodes.servoCorrection (phase ratePpm : Int) : Encodes.Statement (.servoCorrection phase ratePpm) := Encodes.ofEvent rfl

theorem Encodes.syncLoss : Encodes.Statement .syncLoss := Encodes.ofEvent rfl

theorem Encodes.gform (vif : Nat) (addr : Word) : Encodes.Statement (.gform vif addr) := Encodes.ofEvent rfl

theorem Encodes.imgreg (vif : Nat) (addr : Word) : Encodes.Statement (.imgreg vif addr) := Encodes.ofEvent rfl

theorem Encodes.imgdel (vif : Nat) (code : Word) : Encodes.Statement (.imgdel vif code) := Encodes.ofEvent rfl

theorem Encodes.jexp (vif : Nat) (addr : Word) : Encodes.Statement (.jexp vif addr) := Encodes.ofEvent rfl

theorem Encodes.jrev (vif : Nat) (number : Word) : Encodes.Statement (.jrev vif number) := Encodes.ofEvent rfl

theorem Encodes.jprv (vif : Nat) (addr : Word) : Encodes.Statement (.jprv vif addr) := Encodes.ofEvent rfl

theorem Encodes.frespAbort (vif seq : Nat) : Encodes.Statement (.frespAbort vif seq) := Encodes.ofEvent rfl

theorem Encodes.frespResume (vif seq : Nat) : Encodes.Statement (.frespResume vif seq) := Encodes.ofEvent rfl

theorem Encodes.frespRetry (vif seq : Nat) : Encodes.Statement (.frespRetry vif seq) := Encodes.ofEvent rfl

theorem Encodes.dbgResume (vif : Nat) : Encodes.Statement (.dbgResume vif) := Encodes.ofEvent rfl

theorem Encodes.dselRead (vif : Nat) (sel : Word) : Encodes.Statement (.dselRead vif sel) := Encodes.ofEvent rfl

theorem Encodes.dselWrite (vif : Nat) (sel : Word) : Encodes.Statement (.dselWrite vif sel) := Encodes.ofEvent rfl

theorem Encodes.tringWrite (value : Word) : Encodes.Statement (.tringWrite value) := Encodes.ofEvent rfl

theorem Encodes.mcapWrite (value : Word) : Encodes.Statement (.mcapWrite value) := Encodes.ofEvent rfl

theorem Encodes.carveWrite (value : Word) : Encodes.Statement (.carveWrite value) := Encodes.ofEvent rfl

theorem Encodes.ecarveWrite (value : Word) : Encodes.Statement (.ecarveWrite value) := Encodes.ofEvent rfl

theorem Encodes.registerWrite (priv : Bool) (offset : Nat) (value : Word) : Encodes.Statement (.registerWrite priv offset value) := Encodes.ofEvent rfl

theorem Encodes.debugStop (vif cause code : Nat) : Encodes.Statement (.debugStop vif cause code) := Encodes.ofEvent rfl

theorem Encodes.uncorrectableError (place : ErrorPlace) : Encodes.Statement (.uncorrectableError place) := Encodes.ofEvent rfl

theorem Encodes.engineProposal (vif : Nat) (proposal : Vec) (after : Vec) : Encodes.Statement (.engineProposal vif proposal after) := Encodes.ofEvent rfl

theorem Encodes.rstNDeassert : Encodes.Statement .rstNDeassert := Encodes.ofEvent rfl

theorem Encodes.rstNAssert : Encodes.Statement .rstNAssert := Encodes.ofEvent rfl

theorem Encodes.verifyComponent (order : Nat) (bytes : List Byte) (keyX keyY sigR sigS : Nat) : Encodes.Statement (.verifyComponent order bytes keyX keyY sigR sigS) := Encodes.ofEvent rfl

theorem Encodes.earlyTrainingComplete : Encodes.Statement .earlyTrainingComplete := Encodes.ofEvent rfl

theorem Encodes.fullServiceTransition : Encodes.Statement .fullServiceTransition := Encodes.ofEvent rfl

theorem Encodes.trainingFailure (service : Bool) (die : Nat) : Encodes.Statement (.trainingFailure service die) := Encodes.ofEvent rfl

theorem Encodes.ethernetTrainingFailure (port : Nat) : Encodes.Statement (.ethernetTrainingFailure port) := Encodes.ofEvent rfl

theorem Encodes.getVersion (path : Bool) : Encodes.Statement (.getVersion path) := Encodes.ofEvent rfl

theorem Encodes.getCapabilities (path : Bool) : Encodes.Statement (.getCapabilities path) := Encodes.ofEvent rfl

theorem Encodes.negotiateAlgorithms (path : Bool) (asym hash : BitVec 32) : Encodes.Statement (.negotiateAlgorithms path asym hash) := Encodes.ofEvent rfl

theorem Encodes.getDigests (path : Bool) : Encodes.Statement (.getDigests path) := Encodes.ofEvent rfl

theorem Encodes.getCertificate (path : Bool) (slot : BitVec 8) : Encodes.Statement (.getCertificate path slot) := Encodes.ofEvent rfl

theorem Encodes.challenge (path : Bool) (slot summary : BitVec 8) (nonce : BitVec 256) : Encodes.Statement (.challenge path slot summary nonce) := Encodes.ofEvent rfl

theorem Encodes.getMeasurements (path : Bool) (index : BitVec 8) (nonce : BitVec 256) : Encodes.Statement (.getMeasurements path index nonce) := Encodes.ofEvent rfl

theorem Encodes.unsupportedRequest (path : Bool) (code : BitVec 8) : Encodes.Statement (.unsupportedRequest path code) := Encodes.ofEvent rfl

theorem Encodes.powerEnforcementWindow : Encodes.Statement .powerEnforcementWindow := Encodes.ofEvent rfl

theorem Encodes.thermalEmergencyCap (temp die : Nat) : Encodes.Statement (.thermalEmergencyCap temp die) := Encodes.ofEvent rfl

theorem Encodes.thermalShareLimit (temp die : Nat) : Encodes.Statement (.thermalShareLimit temp die) := Encodes.ofEvent rfl

theorem Encodes.thermalHalt (temp die : Nat) : Encodes.Statement (.thermalHalt temp die) := Encodes.ofEvent rfl

theorem Encodes.thermalRelease (temp die : Nat) : Encodes.Statement (.thermalRelease temp die) := Encodes.ofEvent rfl

theorem Encodes.registerRead (priv : Bool) (offset : Nat) : Encodes.Statement (.registerRead priv offset) := Encodes.ofEvent rfl

theorem Encodes.worldKeyCreate (vif : Nat) : Encodes.Statement (.worldKeyCreate vif) := Encodes.ofEvent rfl

theorem Encodes.worldKeyDestroy (vif : Nat) : Encodes.Statement (.worldKeyDestroy vif) := Encodes.ofEvent rfl

theorem Encodes.precisionTimeMessageSend (port : Nat) : Encodes.Statement (.precisionTimeMessageSend port) := Encodes.ofEvent rfl

theorem Encodes.nop : Encodes.Statement .nop := by
  rintro m b h -
  cases h
  rfl

end Sys2Proof.Laws
end

