-- ==== Sys2Proof/Laws/State.lean ====
section
/-!
SUPPORT. The small laws of the state: a table's entry after a change of it, and each field after each update of an entry.
-/

namespace Sys2Proof.Machine

/-! ### Tables -/

section Tables

variable {α : Type} {d : α} {t : Tab α}

@[simp] theorem Tab.get_nil (d : α) (k : Nat) : Tab.get d ([] : Tab α) k = d := rfl

theorem Tab.get_insert_same (k : Nat) (x : α) (h : ∀ p ∈ t, p.1 ≠ k) : Tab.get d (Tab.insert k x t) k = x := by
  induction t with
  | nil => simp [Tab.insert, Tab.get]
  | cons p rest ih =>
    obtain ⟨j, y⟩ := p
    have hj : j ≠ k := h (j, y) (List.mem_cons_self ..)
    unfold Tab.insert
    split
    · simp [Tab.get]
    · rw [Tab.get, if_neg hj]
      exact ih fun q hq => h q (List.mem_cons_of_mem _ hq)

theorem Tab.get_insert_other {k i : Nat} (x : α) (h : i ≠ k) : Tab.get d (Tab.insert k x t) i = Tab.get d t i := by
  induction t with
  | nil => simp [Tab.insert, Tab.get, Ne.symm h]
  | cons p rest ih =>
    obtain ⟨j, y⟩ := p
    unfold Tab.insert
    split
    · rw [Tab.get, if_neg (Ne.symm h)]
    · rw [Tab.get, Tab.get, ih]

theorem Tab.mem_erase {k : Nat} {p : Nat × α} (h : p ∈ Tab.erase k t) : p ∈ t ∧ p.1 ≠ k := by
  induction t with
  | nil => simp [Tab.erase] at h
  | cons q rest ih =>
    obtain ⟨j, y⟩ := q
    unfold Tab.erase at h
    split at h
    · exact ⟨List.mem_cons_of_mem _ (ih h).1, (ih h).2⟩
    · rcases List.mem_cons.1 h with rfl | h
      · exact ⟨List.mem_cons_self .., ‹_›⟩
      · exact ⟨List.mem_cons_of_mem _ (ih h).1, (ih h).2⟩

theorem Tab.get_erase_same (k : Nat) : Tab.get d (Tab.erase k t) k = d := by
  induction t with
  | nil => rfl
  | cons q rest ih =>
    obtain ⟨j, y⟩ := q
    unfold Tab.erase
    split
    · exact ih
    · rw [Tab.get, if_neg ‹_›, ih]

theorem Tab.get_erase_other {k i : Nat} (h : i ≠ k) : Tab.get d (Tab.erase k t) i = Tab.get d t i := by
  induction t with
  | nil => rfl
  | cons q rest ih =>
    obtain ⟨j, y⟩ := q
    unfold Tab.erase
    split
    · subst j; rw [ih, Tab.get, if_neg (Ne.symm h)]
    · rw [Tab.get, Tab.get, ih]

/-- An entry that was set reads as it was set, the default of the table among the values. -/
@[simp] theorem Tab.get_set_same [DecidableEq α] (d : α) (t : Tab α) (k : Nat) (x : α) : Tab.get d (t.set d k x) k = x := by
  unfold Tab.set
  split
  · rw [Tab.get_erase_same, ‹x = d›]
  · exact Tab.get_insert_same _ _ fun p hp => (Tab.mem_erase hp).2

/-- Setting an entry leaves every other entry alone. -/
theorem Tab.get_set_other [DecidableEq α] (d : α) (t : Tab α) {k i : Nat} (x : α) (h : i ≠ k) :
    Tab.get d (t.set d k x) i = Tab.get d t i := by
  unfold Tab.set
  split
  · exact Tab.get_erase_other h
  · rw [Tab.get_insert_other _ h, Tab.get_erase_other h]

theorem Tab.get_set [DecidableEq α] (d : α) (t : Tab α) (k i : Nat) (x : α) :
    Tab.get d (t.set d k x) i = if i = k then x else Tab.get d t i := by
  split
  · subst i; exact Tab.get_set_same ..
  · exact Tab.get_set_other _ _ _ ‹_›

@[simp] theorem Tab.erase_erase (t : Tab α) (k : Nat) : Tab.erase k (Tab.erase k t) = Tab.erase k t := by
  induction t with
  | nil => rfl
  | cons p rest ih =>
    obtain ⟨j, y⟩ := p
    by_cases hj : j = k <;> simp [Tab.erase, hj, ih]

theorem Tab.erase_insert (k : Nat) (x : α) : Tab.erase k (Tab.insert k x t) = Tab.erase k t := by
  induction t with
  | nil => simp [Tab.erase, Tab.insert]
  | cons p rest ih =>
    obtain ⟨j, y⟩ := p
    unfold Tab.insert
    split
    · simp [Tab.erase]
    · by_cases hj : j = k <;> simp [Tab.erase, hj, ih]

/-- The later of two settings of an entry stands. -/
@[simp] theorem Tab.set_set [DecidableEq α] (d : α) (t : Tab α) (k : Nat) (x y : α) : (t.set d k x).set d k y = t.set d k y := by
  have h : Tab.erase k (Tab.set d t k x) = Tab.erase k t := by
    unfold Tab.set
    split
    · exact Tab.erase_erase t k
    · rw [Tab.erase_insert, Tab.erase_erase]
  unfold Tab.set at h ⊢
  rw [h]

end Tables

/-! ### Entries of the state's tables -/

@[simp] theorem State.element_setElement (s : State) (row col : Nat) (e : Element) : (s.setElement row col e).element row col = e := by
  simp [State.element, State.setElement]

theorem State.element_setElement_other (s : State) {row col r c : Nat} (e : Element) (h : r * 384 + c ≠ row * 384 + col) :
    (s.setElement row col e).element r c = s.element r c := by
  simp [State.element, State.setElement, Tab.get_set_other _ _ _ h]

@[simp] theorem State.folio_setFolio (s : State) (row col : Nat) (f : Folio) : (s.setFolio row col f).folio row col = f := by
  simp [State.folio, State.setFolio]

theorem State.folio_setFolio_other (s : State) {row col r c : Nat} (f : Folio) (h : r * 24 + c ≠ row * 24 + col) :
    (s.setFolio row col f).folio r c = s.folio r c := by
  simp [State.folio, State.setFolio, Tab.get_set_other _ _ _ h]

@[simp] theorem State.sig_setSig (s : State) (n : Nat) (g : Sig) : (s.setSig n g).sig n = g := by
  simp [State.sig, State.setSig]

theorem State.sig_setSig_other (s : State) {n m : Nat} (g : Sig) (h : m ≠ n) : (s.setSig n g).sig m = s.sig m := by
  simp [State.sig, State.setSig, Tab.get_set_other _ _ _ h]

@[simp] theorem State.iface_setIface (s : State) (v : Nat) (f : Iface) : (s.setIface v f).iface v = f := by
  simp [State.iface, State.setIface]

theorem State.iface_setIface_other (s : State) {v u : Nat} (f : Iface) (h : u ≠ v) : (s.setIface v f).iface u = s.iface u := by
  simp [State.iface, State.setIface, Tab.get_set_other _ _ _ h]

@[simp] theorem State.sig_setElement (s : State) (row col n : Nat) (e : Element) : (s.setElement row col e).sig n = s.sig n := rfl
@[simp] theorem State.sig_setFolio (s : State) (row col n : Nat) (f : Folio) : (s.setFolio row col f).sig n = s.sig n := rfl
@[simp] theorem State.sig_setIface (s : State) (v n : Nat) (f : Iface) : (s.setIface v f).sig n = s.sig n := rfl
@[simp] theorem State.folio_setElement (s : State) (row col r c : Nat) (e : Element) : (s.setElement row col e).folio r c = s.folio r c := rfl
@[simp] theorem State.folio_setSig (s : State) (n r c : Nat) (g : Sig) : (s.setSig n g).folio r c = s.folio r c := rfl
@[simp] theorem State.folio_setIface (s : State) (v r c : Nat) (f : Iface) : (s.setIface v f).folio r c = s.folio r c := rfl
@[simp] theorem State.element_setFolio (s : State) (row col r c : Nat) (f : Folio) : (s.setFolio row col f).element r c = s.element r c := rfl
@[simp] theorem State.element_setSig (s : State) (n r c : Nat) (g : Sig) : (s.setSig n g).element r c = s.element r c := rfl
@[simp] theorem State.element_setIface (s : State) (v r c : Nat) (f : Iface) : (s.setIface v f).element r c = s.element r c := rfl
@[simp] theorem State.iface_setElement (s : State) (row col v : Nat) (e : Element) : (s.setElement row col e).iface v = s.iface v := rfl
@[simp] theorem State.iface_setFolio (s : State) (row col v : Nat) (f : Folio) : (s.setFolio row col f).iface v = s.iface v := rfl
@[simp] theorem State.iface_setSig (s : State) (n v : Nat) (g : Sig) : (s.setSig n g).iface v = s.iface v := rfl

@[simp] theorem State.setElement_setElement (s : State) (row col : Nat) (e e' : Element) :
    (s.setElement row col e).setElement row col e' = s.setElement row col e' := by
  simp [State.setElement]

@[simp] theorem State.setFolio_setFolio (s : State) (row col : Nat) (f f' : Folio) :
    (s.setFolio row col f).setFolio row col f' = s.setFolio row col f' := by
  simp [State.setFolio]

@[simp] theorem State.setSig_setSig (s : State) (n : Nat) (g g' : Sig) : (s.setSig n g).setSig n g' = s.setSig n g' := by
  simp [State.setSig]

@[simp] theorem State.setIface_setIface (s : State) (v : Nat) (f f' : Iface) : (s.setIface v f).setIface v f' = s.setIface v f' := by
  simp [State.setIface]

/-! ### Fields after an update -/

@[simp] theorem State.setElement_cycle (s : State) (row col : Nat) (e : Element) : (s.setElement row col e).cycle = s.cycle := rfl
@[simp] theorem State.setElement_folios (s : State) (row col : Nat) (e : Element) : (s.setElement row col e).folios = s.folios := rfl
@[simp] theorem State.setElement_sigs (s : State) (row col : Nat) (e : Element) : (s.setElement row col e).sigs = s.sigs := rfl
@[simp] theorem State.setElement_ifaces (s : State) (row col : Nat) (e : Element) : (s.setElement row col e).ifaces = s.ifaces := rfl
@[simp] theorem State.setElement_nextSig (s : State) (row col : Nat) (e : Element) : (s.setElement row col e).nextSig = s.nextSig := rfl
@[simp] theorem State.setElement_nextOrder (s : State) (row col : Nat) (e : Element) : (s.setElement row col e).nextOrder = s.nextOrder := rfl
@[simp] theorem State.setElement_visit (s : State) (row col : Nat) (e : Element) : (s.setElement row col e).visit = s.visit := rfl
@[simp] theorem State.setElement_visitPlaced (s : State) (row col : Nat) (e : Element) : (s.setElement row col e).visitPlaced = s.visitPlaced := rfl
@[simp] theorem State.setElement_memory (s : State) (row col : Nat) (e : Element) : (s.setElement row col e).memory = s.memory := rfl
@[simp] theorem State.setElement_poisonedUnits (s : State) (row col : Nat) (e : Element) : (s.setElement row col e).poisonedUnits = s.poisonedUnits := rfl
@[simp] theorem State.setElement_requests (s : State) (row col : Nat) (e : Element) : (s.setElement row col e).requests = s.requests := rfl
@[simp] theorem State.setElement_nextRequest (s : State) (row col : Nat) (e : Element) : (s.setElement row col e).nextRequest = s.nextRequest := rfl
@[simp] theorem State.setElement_tlb (s : State) (row col : Nat) (e : Element) : (s.setElement row col e).tlb = s.tlb := rfl
@[simp] theorem State.setElement_tlbinv (s : State) (row col : Nat) (e : Element) : (s.setElement row col e).tlbinv = s.tlbinv := rfl
@[simp] theorem State.setElement_keySlots (s : State) (row col : Nat) (e : Element) : (s.setElement row col e).keySlots = s.keySlots := rfl
@[simp] theorem State.setElement_keyCache (s : State) (row col : Nat) (e : Element) : (s.setElement row col e).keyCache = s.keyCache := rfl
@[simp] theorem State.setElement_dma (s : State) (row col : Nat) (e : Element) : (s.setElement row col e).dma = s.dma := rfl
@[simp] theorem State.setElement_nextDma (s : State) (row col : Nat) (e : Element) : (s.setElement row col e).nextDma = s.nextDma := rfl
@[simp] theorem State.setElement_groups (s : State) (row col : Nat) (e : Element) : (s.setElement row col e).groups = s.groups := rfl
@[simp] theorem State.setElement_colls (s : State) (row col : Nat) (e : Element) : (s.setElement row col e).colls = s.colls := rfl
@[simp] theorem State.setElement_nextColl (s : State) (row col : Nat) (e : Element) : (s.setElement row col e).nextColl = s.nextColl := rfl
@[simp] theorem State.setElement_sentFrames (s : State) (row col : Nat) (e : Element) : (s.setElement row col e).sentFrames = s.sentFrames := rfl
@[simp] theorem State.setElement_ptpSent (s : State) (row col : Nat) (e : Element) : (s.setElement row col e).ptpSent = s.ptpSent := rfl
@[simp] theorem State.setElement_dieBuffers (s : State) (row col : Nat) (e : Element) : (s.setElement row col e).dieBuffers = s.dieBuffers := rfl
@[simp] theorem State.setElement_clock (s : State) (row col : Nat) (e : Element) : (s.setElement row col e).clock = s.clock := rfl
@[simp] theorem State.setElement_platform (s : State) (row col : Nat) (e : Element) : (s.setElement row col e).platform = s.platform := rfl
@[simp] theorem State.setElement_debugger (s : State) (row col : Nat) (e : Element) : (s.setElement row col e).debugger = s.debugger := rfl
@[simp] theorem State.setElement_journal (s : State) (row col : Nat) (e : Element) : (s.setElement row col e).journal = s.journal := rfl
@[simp] theorem State.setElement_readValue (s : State) (row col : Nat) (e : Element) : (s.setElement row col e).readValue = s.readValue := rfl
@[simp] theorem State.setElement_interrupts (s : State) (row col : Nat) (e : Element) : (s.setElement row col e).interrupts = s.interrupts := rfl
@[simp] theorem State.setElement_focus (s : State) (row col : Nat) (e : Element) : (s.setElement row col e).focus = s.focus := rfl
@[simp] theorem State.setElement_clocked (s : State) (row col : Nat) (e : Element) : (s.setElement row col e).clocked = s.clocked := rfl
@[simp] theorem State.setElement_serviceQueue (s : State) (row col : Nat) (e : Element) : (s.setElement row col e).serviceQueue = s.serviceQueue := rfl
@[simp] theorem State.setElement_agenda (s : State) (row col : Nat) (e : Element) : (s.setElement row col e).agenda = s.agenda := rfl
@[simp] theorem State.setElement_inputs (s : State) (row col : Nat) (e : Element) : (s.setElement row col e).inputs = s.inputs := rfl
@[simp] theorem State.setElement_free (s : State) (row col : Nat) (e : Element) : (s.setElement row col e).free = s.free := rfl

@[simp] theorem State.setFolio_cycle (s : State) (row col : Nat) (f : Folio) : (s.setFolio row col f).cycle = s.cycle := rfl
@[simp] theorem State.setFolio_elements (s : State) (row col : Nat) (f : Folio) : (s.setFolio row col f).elements = s.elements := rfl
@[simp] theorem State.setFolio_sigs (s : State) (row col : Nat) (f : Folio) : (s.setFolio row col f).sigs = s.sigs := rfl
@[simp] theorem State.setFolio_ifaces (s : State) (row col : Nat) (f : Folio) : (s.setFolio row col f).ifaces = s.ifaces := rfl
@[simp] theorem State.setFolio_nextSig (s : State) (row col : Nat) (f : Folio) : (s.setFolio row col f).nextSig = s.nextSig := rfl
@[simp] theorem State.setFolio_nextOrder (s : State) (row col : Nat) (f : Folio) : (s.setFolio row col f).nextOrder = s.nextOrder := rfl
@[simp] theorem State.setFolio_visit (s : State) (row col : Nat) (f : Folio) : (s.setFolio row col f).visit = s.visit := rfl
@[simp] theorem State.setFolio_visitPlaced (s : State) (row col : Nat) (f : Folio) : (s.setFolio row col f).visitPlaced = s.visitPlaced := rfl
@[simp] theorem State.setFolio_memory (s : State) (row col : Nat) (f : Folio) : (s.setFolio row col f).memory = s.memory := rfl
@[simp] theorem State.setFolio_poisonedUnits (s : State) (row col : Nat) (f : Folio) : (s.setFolio row col f).poisonedUnits = s.poisonedUnits := rfl
@[simp] theorem State.setFolio_requests (s : State) (row col : Nat) (f : Folio) : (s.setFolio row col f).requests = s.requests := rfl
@[simp] theorem State.setFolio_nextRequest (s : State) (row col : Nat) (f : Folio) : (s.setFolio row col f).nextRequest = s.nextRequest := rfl
@[simp] theorem State.setFolio_tlb (s : State) (row col : Nat) (f : Folio) : (s.setFolio row col f).tlb = s.tlb := rfl
@[simp] theorem State.setFolio_tlbinv (s : State) (row col : Nat) (f : Folio) : (s.setFolio row col f).tlbinv = s.tlbinv := rfl
@[simp] theorem State.setFolio_keySlots (s : State) (row col : Nat) (f : Folio) : (s.setFolio row col f).keySlots = s.keySlots := rfl
@[simp] theorem State.setFolio_keyCache (s : State) (row col : Nat) (f : Folio) : (s.setFolio row col f).keyCache = s.keyCache := rfl
@[simp] theorem State.setFolio_dma (s : State) (row col : Nat) (f : Folio) : (s.setFolio row col f).dma = s.dma := rfl
@[simp] theorem State.setFolio_nextDma (s : State) (row col : Nat) (f : Folio) : (s.setFolio row col f).nextDma = s.nextDma := rfl
@[simp] theorem State.setFolio_groups (s : State) (row col : Nat) (f : Folio) : (s.setFolio row col f).groups = s.groups := rfl
@[simp] theorem State.setFolio_colls (s : State) (row col : Nat) (f : Folio) : (s.setFolio row col f).colls = s.colls := rfl
@[simp] theorem State.setFolio_nextColl (s : State) (row col : Nat) (f : Folio) : (s.setFolio row col f).nextColl = s.nextColl := rfl
@[simp] theorem State.setFolio_sentFrames (s : State) (row col : Nat) (f : Folio) : (s.setFolio row col f).sentFrames = s.sentFrames := rfl
@[simp] theorem State.setFolio_ptpSent (s : State) (row col : Nat) (f : Folio) : (s.setFolio row col f).ptpSent = s.ptpSent := rfl
@[simp] theorem State.setFolio_dieBuffers (s : State) (row col : Nat) (f : Folio) : (s.setFolio row col f).dieBuffers = s.dieBuffers := rfl
@[simp] theorem State.setFolio_clock (s : State) (row col : Nat) (f : Folio) : (s.setFolio row col f).clock = s.clock := rfl
@[simp] theorem State.setFolio_platform (s : State) (row col : Nat) (f : Folio) : (s.setFolio row col f).platform = s.platform := rfl
@[simp] theorem State.setFolio_debugger (s : State) (row col : Nat) (f : Folio) : (s.setFolio row col f).debugger = s.debugger := rfl
@[simp] theorem State.setFolio_journal (s : State) (row col : Nat) (f : Folio) : (s.setFolio row col f).journal = s.journal := rfl
@[simp] theorem State.setFolio_readValue (s : State) (row col : Nat) (f : Folio) : (s.setFolio row col f).readValue = s.readValue := rfl
@[simp] theorem State.setFolio_interrupts (s : State) (row col : Nat) (f : Folio) : (s.setFolio row col f).interrupts = s.interrupts := rfl
@[simp] theorem State.setFolio_focus (s : State) (row col : Nat) (f : Folio) : (s.setFolio row col f).focus = s.focus := rfl
@[simp] theorem State.setFolio_clocked (s : State) (row col : Nat) (f : Folio) : (s.setFolio row col f).clocked = s.clocked := rfl
@[simp] theorem State.setFolio_serviceQueue (s : State) (row col : Nat) (f : Folio) : (s.setFolio row col f).serviceQueue = s.serviceQueue := rfl
@[simp] theorem State.setFolio_agenda (s : State) (row col : Nat) (f : Folio) : (s.setFolio row col f).agenda = s.agenda := rfl
@[simp] theorem State.setFolio_inputs (s : State) (row col : Nat) (f : Folio) : (s.setFolio row col f).inputs = s.inputs := rfl
@[simp] theorem State.setFolio_free (s : State) (row col : Nat) (f : Folio) : (s.setFolio row col f).free = s.free := rfl

@[simp] theorem State.setSig_cycle (s : State) (n : Nat) (g : Sig) : (s.setSig n g).cycle = s.cycle := rfl
@[simp] theorem State.setSig_elements (s : State) (n : Nat) (g : Sig) : (s.setSig n g).elements = s.elements := rfl
@[simp] theorem State.setSig_folios (s : State) (n : Nat) (g : Sig) : (s.setSig n g).folios = s.folios := rfl
@[simp] theorem State.setSig_ifaces (s : State) (n : Nat) (g : Sig) : (s.setSig n g).ifaces = s.ifaces := rfl
@[simp] theorem State.setSig_nextSig (s : State) (n : Nat) (g : Sig) : (s.setSig n g).nextSig = s.nextSig := rfl
@[simp] theorem State.setSig_nextOrder (s : State) (n : Nat) (g : Sig) : (s.setSig n g).nextOrder = s.nextOrder := rfl
@[simp] theorem State.setSig_visit (s : State) (n : Nat) (g : Sig) : (s.setSig n g).visit = s.visit := rfl
@[simp] theorem State.setSig_visitPlaced (s : State) (n : Nat) (g : Sig) : (s.setSig n g).visitPlaced = s.visitPlaced := rfl
@[simp] theorem State.setSig_memory (s : State) (n : Nat) (g : Sig) : (s.setSig n g).memory = s.memory := rfl
@[simp] theorem State.setSig_poisonedUnits (s : State) (n : Nat) (g : Sig) : (s.setSig n g).poisonedUnits = s.poisonedUnits := rfl
@[simp] theorem State.setSig_requests (s : State) (n : Nat) (g : Sig) : (s.setSig n g).requests = s.requests := rfl
@[simp] theorem State.setSig_nextRequest (s : State) (n : Nat) (g : Sig) : (s.setSig n g).nextRequest = s.nextRequest := rfl
@[simp] theorem State.setSig_tlb (s : State) (n : Nat) (g : Sig) : (s.setSig n g).tlb = s.tlb := rfl
@[simp] theorem State.setSig_tlbinv (s : State) (n : Nat) (g : Sig) : (s.setSig n g).tlbinv = s.tlbinv := rfl
@[simp] theorem State.setSig_keySlots (s : State) (n : Nat) (g : Sig) : (s.setSig n g).keySlots = s.keySlots := rfl
@[simp] theorem State.setSig_keyCache (s : State) (n : Nat) (g : Sig) : (s.setSig n g).keyCache = s.keyCache := rfl
@[simp] theorem State.setSig_dma (s : State) (n : Nat) (g : Sig) : (s.setSig n g).dma = s.dma := rfl
@[simp] theorem State.setSig_nextDma (s : State) (n : Nat) (g : Sig) : (s.setSig n g).nextDma = s.nextDma := rfl
@[simp] theorem State.setSig_groups (s : State) (n : Nat) (g : Sig) : (s.setSig n g).groups = s.groups := rfl
@[simp] theorem State.setSig_colls (s : State) (n : Nat) (g : Sig) : (s.setSig n g).colls = s.colls := rfl
@[simp] theorem State.setSig_nextColl (s : State) (n : Nat) (g : Sig) : (s.setSig n g).nextColl = s.nextColl := rfl
@[simp] theorem State.setSig_sentFrames (s : State) (n : Nat) (g : Sig) : (s.setSig n g).sentFrames = s.sentFrames := rfl
@[simp] theorem State.setSig_ptpSent (s : State) (n : Nat) (g : Sig) : (s.setSig n g).ptpSent = s.ptpSent := rfl
@[simp] theorem State.setSig_dieBuffers (s : State) (n : Nat) (g : Sig) : (s.setSig n g).dieBuffers = s.dieBuffers := rfl
@[simp] theorem State.setSig_clock (s : State) (n : Nat) (g : Sig) : (s.setSig n g).clock = s.clock := rfl
@[simp] theorem State.setSig_platform (s : State) (n : Nat) (g : Sig) : (s.setSig n g).platform = s.platform := rfl
@[simp] theorem State.setSig_debugger (s : State) (n : Nat) (g : Sig) : (s.setSig n g).debugger = s.debugger := rfl
@[simp] theorem State.setSig_journal (s : State) (n : Nat) (g : Sig) : (s.setSig n g).journal = s.journal := rfl
@[simp] theorem State.setSig_readValue (s : State) (n : Nat) (g : Sig) : (s.setSig n g).readValue = s.readValue := rfl
@[simp] theorem State.setSig_interrupts (s : State) (n : Nat) (g : Sig) : (s.setSig n g).interrupts = s.interrupts := rfl
@[simp] theorem State.setSig_focus (s : State) (n : Nat) (g : Sig) : (s.setSig n g).focus = s.focus := rfl
@[simp] theorem State.setSig_clocked (s : State) (n : Nat) (g : Sig) : (s.setSig n g).clocked = s.clocked := rfl
@[simp] theorem State.setSig_serviceQueue (s : State) (n : Nat) (g : Sig) : (s.setSig n g).serviceQueue = s.serviceQueue := rfl
@[simp] theorem State.setSig_agenda (s : State) (n : Nat) (g : Sig) : (s.setSig n g).agenda = s.agenda := rfl
@[simp] theorem State.setSig_inputs (s : State) (n : Nat) (g : Sig) : (s.setSig n g).inputs = s.inputs := rfl
@[simp] theorem State.setSig_free (s : State) (n : Nat) (g : Sig) : (s.setSig n g).free = s.free := rfl

@[simp] theorem State.setIface_cycle (s : State) (v : Nat) (f : Iface) : (s.setIface v f).cycle = s.cycle := rfl
@[simp] theorem State.setIface_elements (s : State) (v : Nat) (f : Iface) : (s.setIface v f).elements = s.elements := rfl
@[simp] theorem State.setIface_folios (s : State) (v : Nat) (f : Iface) : (s.setIface v f).folios = s.folios := rfl
@[simp] theorem State.setIface_sigs (s : State) (v : Nat) (f : Iface) : (s.setIface v f).sigs = s.sigs := rfl
@[simp] theorem State.setIface_nextSig (s : State) (v : Nat) (f : Iface) : (s.setIface v f).nextSig = s.nextSig := rfl
@[simp] theorem State.setIface_nextOrder (s : State) (v : Nat) (f : Iface) : (s.setIface v f).nextOrder = s.nextOrder := rfl
@[simp] theorem State.setIface_visit (s : State) (v : Nat) (f : Iface) : (s.setIface v f).visit = s.visit := rfl
@[simp] theorem State.setIface_visitPlaced (s : State) (v : Nat) (f : Iface) : (s.setIface v f).visitPlaced = s.visitPlaced := rfl
@[simp] theorem State.setIface_memory (s : State) (v : Nat) (f : Iface) : (s.setIface v f).memory = s.memory := rfl
@[simp] theorem State.setIface_poisonedUnits (s : State) (v : Nat) (f : Iface) : (s.setIface v f).poisonedUnits = s.poisonedUnits := rfl
@[simp] theorem State.setIface_requests (s : State) (v : Nat) (f : Iface) : (s.setIface v f).requests = s.requests := rfl
@[simp] theorem State.setIface_nextRequest (s : State) (v : Nat) (f : Iface) : (s.setIface v f).nextRequest = s.nextRequest := rfl
@[simp] theorem State.setIface_tlb (s : State) (v : Nat) (f : Iface) : (s.setIface v f).tlb = s.tlb := rfl
@[simp] theorem State.setIface_tlbinv (s : State) (v : Nat) (f : Iface) : (s.setIface v f).tlbinv = s.tlbinv := rfl
@[simp] theorem State.setIface_keySlots (s : State) (v : Nat) (f : Iface) : (s.setIface v f).keySlots = s.keySlots := rfl
@[simp] theorem State.setIface_keyCache (s : State) (v : Nat) (f : Iface) : (s.setIface v f).keyCache = s.keyCache := rfl
@[simp] theorem State.setIface_dma (s : State) (v : Nat) (f : Iface) : (s.setIface v f).dma = s.dma := rfl
@[simp] theorem State.setIface_nextDma (s : State) (v : Nat) (f : Iface) : (s.setIface v f).nextDma = s.nextDma := rfl
@[simp] theorem State.setIface_groups (s : State) (v : Nat) (f : Iface) : (s.setIface v f).groups = s.groups := rfl
@[simp] theorem State.setIface_colls (s : State) (v : Nat) (f : Iface) : (s.setIface v f).colls = s.colls := rfl
@[simp] theorem State.setIface_nextColl (s : State) (v : Nat) (f : Iface) : (s.setIface v f).nextColl = s.nextColl := rfl
@[simp] theorem State.setIface_sentFrames (s : State) (v : Nat) (f : Iface) : (s.setIface v f).sentFrames = s.sentFrames := rfl
@[simp] theorem State.setIface_ptpSent (s : State) (v : Nat) (f : Iface) : (s.setIface v f).ptpSent = s.ptpSent := rfl
@[simp] theorem State.setIface_dieBuffers (s : State) (v : Nat) (f : Iface) : (s.setIface v f).dieBuffers = s.dieBuffers := rfl
@[simp] theorem State.setIface_clock (s : State) (v : Nat) (f : Iface) : (s.setIface v f).clock = s.clock := rfl
@[simp] theorem State.setIface_platform (s : State) (v : Nat) (f : Iface) : (s.setIface v f).platform = s.platform := rfl
@[simp] theorem State.setIface_debugger (s : State) (v : Nat) (f : Iface) : (s.setIface v f).debugger = s.debugger := rfl
@[simp] theorem State.setIface_journal (s : State) (v : Nat) (f : Iface) : (s.setIface v f).journal = s.journal := rfl
@[simp] theorem State.setIface_readValue (s : State) (v : Nat) (f : Iface) : (s.setIface v f).readValue = s.readValue := rfl
@[simp] theorem State.setIface_interrupts (s : State) (v : Nat) (f : Iface) : (s.setIface v f).interrupts = s.interrupts := rfl
@[simp] theorem State.setIface_focus (s : State) (v : Nat) (f : Iface) : (s.setIface v f).focus = s.focus := rfl
@[simp] theorem State.setIface_clocked (s : State) (v : Nat) (f : Iface) : (s.setIface v f).clocked = s.clocked := rfl
@[simp] theorem State.setIface_serviceQueue (s : State) (v : Nat) (f : Iface) : (s.setIface v f).serviceQueue = s.serviceQueue := rfl
@[simp] theorem State.setIface_agenda (s : State) (v : Nat) (f : Iface) : (s.setIface v f).agenda = s.agenda := rfl
@[simp] theorem State.setIface_inputs (s : State) (v : Nat) (f : Iface) : (s.setIface v f).inputs = s.inputs := rfl
@[simp] theorem State.setIface_free (s : State) (v : Nat) (f : Iface) : (s.setIface v f).free = s.free := rfl

end Sys2Proof.Machine
end

