-- ==== Sys2Proof/Laws/Spine.lean ====
section
/-!
SUPPORT. The lead spine's shared operations: what a read and a write of its registers, a finished slot, a register result and a control
transfer do (R128, R157).
-/

namespace Sys2Proof.Machine

/-! ### The spine of a signature -/

@[simp] theorem State.spineOf_setSpineOf (s : State) (sig : Nat) (p : Spine) : (s.setSpineOf sig p).spineOf sig = p := by
  simp [State.spineOf, State.setSpineOf]

@[simp] theorem State.setSpineOf_setSpineOf (s : State) (sig : Nat) (p q : Spine) :
    (s.setSpineOf sig p).setSpineOf sig q = s.setSpineOf sig q := by
  simp [State.setSpineOf]

@[simp] theorem State.sig_setSpineOf (s : State) (sig n : Nat) (p : Spine) : (s.setSpineOf sig p).sig n = s.sig n := rfl
@[simp] theorem State.focus_setSpineOf (s : State) (sig : Nat) (p : Spine) : (s.setSpineOf sig p).focus = s.focus := rfl
@[simp] theorem State.memory_setSpineOf (s : State) (sig : Nat) (p : Spine) : (s.setSpineOf sig p).memory = s.memory := rfl
@[simp] theorem State.element_setSpineOf (s : State) (sig r c : Nat) (p : Spine) : (s.setSpineOf sig p).element r c = s.element r c := rfl

@[simp] theorem State.here_setHere (s : State) (p : Spine) : (s.setHere p).here = p := State.spineOf_setSpineOf ..
@[simp] theorem State.setHere_setHere (s : State) (p q : Spine) : (s.setHere p).setHere q = s.setHere q := State.setSpineOf_setSpineOf ..
@[simp] theorem State.focus_setHere (s : State) (p : Spine) : (s.setHere p).focus = s.focus := rfl
@[simp] theorem State.sig_setHere (s : State) (n : Nat) (p : Spine) : (s.setHere p).sig n = s.sig n := rfl
@[simp] theorem State.memory_setHere (s : State) (p : Spine) : (s.setHere p).memory = s.memory := rfl
@[simp] theorem State.element_setHere (s : State) (r c : Nat) (p : Spine) : (s.setHere p).element r c = s.element r c := rfl

/-! ### Registers and finished slots -/

/-- A slot that is done leaves the spine it stood at, after the slot. -/
theorem State.slotDone_eq (s : State) : s.slotDone = s.setHere s.here.afterSlot := by
  cases h : s.here.phase <;> simp [State.slotDone, Spine.afterSlot, h]

/-- A spine that a slot has changed and left. -/
@[simp] theorem State.slotDone_setHere (s : State) (p : Spine) : (s.setHere p).slotDone = s.setHere p.afterSlot := by
  rw [State.slotDone_eq, State.here_setHere, State.setHere_setHere]

theorem State.regG_setHere (s : State) (p : Spine) (r : Nat) : (s.setHere p).regG r = if r = 0 then 0 else p.g.get 0 r := by
  simp [State.regG]

theorem Spine.setG_get (p : Spine) (i r : Nat) (x : Word) (hr : r ≠ 0) :
    (p.setG i x).g.get 0 r = if r = i then x else p.g.get 0 r := by
  unfold Spine.setG
  split
  · subst i; simp [hr]
  · simp [Tab.get_set]

/-- A register result: G[gd] takes it, and the slot is done. -/
theorem State.onlyWrites_of_spineResult {s : State} {i : Instr} {gd : BitVec 5} {x : Word} (idles : Nat)
    (h : exec i s = spineResult (s.setHere { s.here with idles := s.here.idles + idles }) gd x) : s.OnlyWrites i idles gd x := by
  refine ⟨_, h, ⟨({ s.here with idles := s.here.idles + idles }.setG gd.toNat x).g, ?_⟩, fun r => ?_⟩
  · simp only [State.writeG, State.here_setHere, State.setHere_setHere, State.slotDone_setHere]
    congr 1
    unfold Spine.setG
    split <;> rfl
  · simp only [State.writeG, State.here_setHere, State.setHere_setHere, State.slotDone_setHere, State.regG_setHere]
    by_cases hr : r = 0
    · simp [hr, State.regG]
    · simp only [hr, if_false, Spine.afterSlot]
      rw [Spine.setG_get _ _ _ _ hr]
      simp [hr, State.regG]

/-- A register result that costs no further slot. -/
theorem State.onlyWrites_of_result {s : State} {i : Instr} {gd : BitVec 5} {x : Word} (h : exec i s = spineResult s gd x) :
    s.OnlyWrites i 0 gd x := by
  refine State.onlyWrites_of_spineResult 0 ?_
  rw [h]
  unfold spineResult State.writeG
  simp

end Sys2Proof.Machine
end

