-- ==== Sys2Proof/Tests/Slice0.lean ====
section
/-!
SUPPORT. Tests: words of the spec's encodings decode to the instructions they stand for, ill-formed terms are refused, worked examples come
out as the spec gives them, and every statement with hypotheses has a state and operands that meet them.
-/

namespace Sys2Proof.Tests

open Sys2Proof Sys2Proof.Machine

-- one kernel evaluation at a time
set_option Elab.async false

/-! ### Decoding: words written out from the encodings of R123 to R136 -/

/-- The header of a fabric word for every role (0x7800), and of a spine word (0x8000). -/
def fabric : Header := { spine := false, role := 15, h := false, le := 0, gs := false, gk := 0, seam := false, zero := 0 }
def spine : Header := { fabric with spine := true, role := 0 }

/-- `MMAS.e4m3 a1, v4, v5, v6, sm=scaled, qb=1` (R228). -/
theorem test_decode_mmas : decodeWord 0x78005124298CD0000800000000000000#128 = .word fabric
    (.mmas { ad := 1, va := 4, vb := 5, vc := 6, fa := 3, fb := 3, sm := 1, ov := 0, rm := 0, rx := 0, sub := 8 }) .nop := by decide +kernel

/-- `MDRN.bf16 a2, v8, p=1` (R230). -/
theorem test_decode_mdrn : decodeWord 0x78005348001980002000000000000000#128 = .word fabric
    (.mdrn { ad := 2, va := 8, vb := 0, vc := 0, fa := 6, fb := 6, sm := 0, ov := 0, rm := 0, rx := 0, sub := 0x20 }) .nop := by decide +kernel

/-- `MDRQ.e4m3 a0, v10, v12, p=0, vb=v3, ts=1` (R231): slot A 0x54_0A1B_0CC0_0010. -/
theorem test_decode_mdrq : decodeWord 0x7800540A1B0CC0001000000000000000#128 = .word fabric
    (.mdrq { ad := 0, va := 10, vb := 3, vc := 12, fa := 3, fb := 3, sm := 0, ov := 0, rm := 0, rx := 0, sub := 0x10 }) .nop := by decide +kernel

/-- `FFMA.fp32 v0, v8, v0, v12, rx=in:0` for role 1 (R209). -/
theorem test_decode_ffma : decodeWord 0x1000230200C900400000000000000000#128 = .word { fabric with role := 2 }
    (.ffma { vd := 0, va := 8, vb := 0, vc := 12, ty := 9, md := 0, kp := 0, kz := 0, rx := 2, sub := 0 }) .nop := by decide +kernel

/-- `VMOVI`: op 0x18, vd 5, ty 6, imm 0x0FF0_0000 (R206): slot A 0x18_2818_0FF0_0000. -/
theorem test_decode_vmovi : decodeWord 0x78001828180FF0000000000000000000#128 = .word fabric
    (.vmovi { vd := 5, va := 0, ty := 6, kp := 0, kz := 0, imm := 0x0FF00000 }) .nop := by decide +kernel

/-- `SADDI s2, s1, 100` (R220): slot A 0x6A_2100_0000_0640. -/
theorem test_decode_saddi : decodeWord 0x78006A21000000064000000000000000#128 = .word fabric
    (.saddi { sd := 2, sa := 1, sb := 0, imm := 100, sub := 0 }) .nop := by decide +kernel

/-- `VOTE k1, mode=count` (R223): slot A 0x78_0400_0000_0002. -/
theorem test_decode_vote : decodeWord 0x78007804000000000200000000000000#128 = .word fabric
    (.vote { kd := 0, ka := 1, kb := 0, va := 0, sa := 0, sub := 2 }) .nop := by decide +kernel

/-- `RT E=w, S=lv:3, lv=v2` (R232): slot B 0x20_1053_0000_1000. -/
theorem test_decode_rt : decodeWord 0x78000000000000000020105300001000#128 = .word fabric .nop
    (.rt { e := 0x10, s := 0x53, w := 0, n := 0, lv := 2, lw := 0, sub := 0 }) := by decide +kernel

/-- `EGR h2, v9` and `EGR h2, b1` (R242): slot B 0x40_0000_0212_0000 and 0x40_2000_0200_0001. -/
theorem test_decode_egr :
    decodeWord 0x78000000000000000040000002120000#128 = .word fabric .nop (.egrVector { b := 0, sb := 0, n := 2, st := 0, vr := 9, sub := 0 })
    ∧ decodeWord 0x78000000000000000040200002000001#128 = .word fabric .nop
        (.egrBuffer { b := 1, sb := 0, n := 2, st := 0, vr := 0, sub := 1 }) := by decide +kernel

/-- `COLL h0, g2, 0x100 || COLL h1, g2, 0x140` (R179). -/
theorem test_decode_coll : decodeWord 0x80005301000004000053110000050000#128 = .word spine
    (.coll { h := 0, gp := 2, gc := 0, disp := 0x100, scope := 0, sub := 0 })
    (.coll { h := 1, gp := 2, gc := 0, disp := 0x140, scope := 0, sub := 0 }) := by decide +kernel

/-- `JPIN g6, g5 || MOVI g7, 0` (R193, R170). -/
theorem test_decode_jpin : decodeWord 0x800072018A0000000037380000000000#128 = .word spine
    (.jpin { gd := 0, ga := 6, gb := 5, sub := 0 }) (.movi { gd := 7, ga := 0, imm := 0, sub := 0 }) := by decide +kernel

/-- `LDG.acq.dv g1, g2, -8`, 8 bytes: op of the table, gv 1 at 43, gb 2 at 38, off −8 at 14, sz 3 at 11, scope 4 at 8, ord 1 at 6. -/
theorem test_decode_ldg : decodeWord 0x80004008BFFFFE1C4000000000000000#128 = .word spine
    (.ldg { gv := 1, gb := 2, off := -8, sz := 3, scope := 4, ord := 1, sub := 0 }) .nop := by decide +kernel

/-! ### Ill-formed terms: one for each check, with the item of R137 it breaks -/

/-- Slot fields, all zero but a legal format code. -/
def av : AV := { vd := 0, va := 0, vb := 0, vc := 0, ty := 15, md := 0, kp := 0, kz := 0, rx := 0, sub := 0 }
def avFloat : AV := { av with ty := 9 }
def ai : AI := { vd := 0, va := 0, ty := 15, kp := 0, kz := 0, imm := 0 }
def am : AM := { ad := 0, va := 0, vb := 0, vc := 0, fa := 3, fb := 3, sm := 0, ov := 0, rm := 0, rx := 0, sub := 0 }
def as : AS := { sd := 0, sa := 0, sb := 0, imm := 0, sub := 0 }
def ak : AK := { kd := 0, ka := 0, kb := 0, va := 0, sa := 0, sub := 0 }
def bl : BL := { vr := 0, sb := 0, off := 0, bf := 0, kp := 0, mode := 0, rx := 0, sz := 0, sub := 0 }
def bt : BT := { e := 0, s := 0, w := 0, n := 0, lv := 0, lw := 0, sub := 0 }
def bd : BD := { b := 0, sb := 0, n := 0, st := 0, vr := 0, sub := 0 }
def sg : SG := { gd := 0, ga := 0, gb := 0, sub := 0 }
def si : SI := { gd := 0, ga := 0, imm := 0, sub := 0 }
def sm : SM := { gv := 0, gb := 0, off := 0, sz := 3, scope := 0, ord := 0, sub := 0 }
def se : SE := { h := 0, gp := 0, gc := 0, disp := 0, scope := 2, sub := 0 }

/-- Vector instructions and their immediates (R204 to R217). -/
theorem test_illformed_vector : [
    (Instr.vadd { av with vc := 1 }, 5), (.vadd { av with md := 2 }, 5), (.vadd { av with vd := 28 }, 6), (.vadd { av with rx := 4 }, 7),
    (.vadd { av with ty := 9 }, 13), (.vabs { av with vb := 1 }, 5), (.vand { av with md := 1 }, 5), (.vmulh { av with md := 2 }, 5),
    (.fadd { avFloat with md := 5 }, 8), (.ffma { avFloat with md := 6 }, 8), (.fadd av, 13), (.fmin { avFloat with md := 1 }, 5),
    (.vcmp { av with vd := 8 }, 5), (.vcmp { av with md := 6 }, 13), (.fcmp av, 13), (.vsel { av with kz := 1 }, 5),
    (.vsel avFloat, 13), (.frcp { avFloat with ty := 7 }, 13), (.fcvt { avFloat with sub := 0x1240 }, 13), (.fcvt { avFloat with md := 5 }, 8),
    (.vred { av with kz := 1 }, 5), (.vred { av with sub := 6 <<< 10 }, 13), (.vred { avFloat with sub := 3 <<< 10 }, 13),
    (.vred { avFloat with md := 5 }, 8), (.vscan { av with md := 2 }, 5), (.vshuf { av with ty := 10 }, 13),
    (.vrot { av with sub := 32 <<< 6 }, 13), (.vrot { av with vb := 1 }, 5), (.vins { av with sub := 1 }, 5),
    (.vaddi { ai with ty := 9 }, 13), (.vshli { ai with imm := 64 }, 5), (.vmovi { ai with va := 1 }, 5), (.fmuli ai, 13)
  ].all (fun p => p.1.slotItem == some p.2) = true := by decide +kernel

/-- Matrix instructions (R227 to R231). -/
theorem test_illformed_matrix : [
    (Instr.mma { am with vc := 1 }, 5), (.mma { am with sm := 2 }, 5), (.mmas { am with sm := 2 }, 9), (.mma { am with rm := 5 }, 8), (.mma { am with fa := 13, fb := 13, rm := 2 }, 8),
    (.mma { am with fb := 13 }, 13), (.mma { am with fb := 6 }, 13), (.mma { am with rx := 8 }, 7),
    (.mmas am, 13), (.mmas { am with sm := 1, fa := 13, fb := 13 }, 13), (.mmas { am with sm := 1, sub := 64 }, 5),
    (.mzero { am with fb := 4 }, 13), (.mzero { am with va := 1 }, 5), (.mldr am, 5), (.mldr { am with fa := 0, fb := 0, sub := 8 }, 5),
    (.mtrn { am with fa := 0, fb := 0, va := 8 }, 5), (.mdrn { am with va := 28 }, 6), (.mdrn { am with sub := 0x20 }, 13),
    (.mdrn { am with ov := 1 }, 5), (.mdrq { am with ad := 1, vc := 4 }, 13), (.mdrq { am with va := 3, vc := 6 }, 13),
    (.mdrq { am with va := 4, vc := 5 }, 13), (.mdrq { am with fa := 9, fb := 9, vc := 4 }, 13), (.mdrq { am with vc := 28 }, 6)
  ].all (fun p => p.1.slotItem == some p.2) = true := by decide +kernel

/-- Element scalars and predicates (R220 to R223). -/
theorem test_illformed_scalar : [
    (Instr.sadd { as with imm := 1 }, 5), (.sadd { as with sub := 1 }, 5), (.sshr { as with sub := 2 }, 5), (.smovi { as with sa := 1 }, 5),
    (.saddi { as with sb := 1 }, 5), (.elid { as with sub := 6 }, 13), (.elid { as with imm := 1 }, 5),
    (.knot { ak with kb := 1 }, 5), (.kand { ak with sub := 1 }, 5), (.kmov { ak with ka := 1, sub := 2 }, 5), (.kmov { ak with va := 1 }, 5),
    (.kpopc { ak with kd := 1 }, 5), (.vote { ak with sub := 4 }, 5)
  ].all (fun p => p.1.slotItem == some p.2) = true := by decide +kernel

/-- Slot B (R232 to R243). -/
theorem test_illformed_pad : [
    (Instr.ld { bl with bf := 1 }, 5), (.ld { bl with vr := 28 }, 6), (.ld { bl with sz := 3 }, 13), (.ld { bl with mode := 2 }, 5),
    (.ld { bl with sb := 1, sub := 1 }, 5), (.st { bl with mode := 1 }, 5), (.st { bl with rx := 12 }, 7), (.lds { bl with vr := 16 }, 5),
    (.lds { bl with kp := 1 }, 5), (.ldb { bl with sub := 2 }, 5), (.satom { bl with sz := 1 }, 13), (.satom { bl with sz := 3, sub := 40 }, 13),
    (.satom { bl with sz := 2, vr := 15, sub := 36 }, 13), (.satom { bl with sz := 3, vr := 1 }, 13), (.satom { bl with sz := 2, sub := 2 }, 5),
    (.rt { bt with e := 1 }, 5), (.rt { bt with n := 0x80 }, 10), (.rt { bt with lv := 1 }, 5), (.rt { bt with lw := 1 }, 5),
    (.bdecl bd, 13), (.bdecl { bd with n := 1536, sub := 1 }, 13), (.bdecl { bd with n := 2048, sub := 1 }, 5),
    (.bstateFull bd, 13), (.bstateEmpty { bd with n := 1 }, 5), (.bqry { bd with sb := 1 }, 13), (.vmov { bd with vr := 28 }, 6),
    (.vmov { bd with n := 32 }, 5), (.smov { bd with n := 1, sub := 1 }, 5), (.vfroms { bd with n := 1 }, 5),
    (.vfroms { bd with n := 16, sub := 0x19 }, 13), (.vfroms { bd with vr := 30 }, 6), (.ringset { bd with n := 1 <<< 5 }, 13),
    (.ringset { bd with n := 27 ||| 2 <<< 5 }, 13), (.ringset { bd with b := 1 }, 5), (.egrVector { bd with b := 1 }, 5),
    (.egrBuffer { bd with n := 16, sub := 1 }, 5), (.cntSel { bd with n := 10 }, 13), (.cntClr { bd with n := 1, sub := 3 }, 5)
  ].all (fun p => p.1.slotItem == some p.2) = true := by decide +kernel

/-- Spine words (R159 to R196). -/
theorem test_illformed_spine : [
    (Instr.add { sg with sub := 1 }, 5), (.clz { sg with gb := 1 }, 5), (.endLaunch { sg with gd := 1 }, 5), (.sel { sg with sub := 1 }, 5),
    (.ext { sg with sub := 1 <<< 27 ||| 63 <<< 21 }, 13), (.ins { sg with sub := 1 <<< 20 }, 5), (.trace sg, 13), (.trace { sg with sub := 1 <<< 18 }, 5),
    (.cntrCfg { sg with sub := 1 }, 13), (.cntrStart { sg with ga := 1, sub := 1 }, 5), (.rdcyc { sg with sub := 2 }, 5),
    (.shli { si with imm := 64 }, 5), (.movi { si with ga := 1 }, 5), (.setm { si with imm := 256 }, 5), (.setm { si with ga := 1, imm := 1 }, 5),
    (.enter si, 13), (.csrr { si with imm := 6 }, 13), (.csrw { si with imm := 0x20 }, 13), (.csrw { si with gd := 1, imm := 0x10 }, 5),
    (.br { ga := 1, gb := 0, cond := 0, disp := 2 }, 5), (.loop { lvl := 0, cg := 0, cimm := 1, last := 0 }, 11),
    (.loop { lvl := 0, cg := 0, cimm := 0, last := 1 }, 11), (.loop { lvl := 0, cg := 1, cimm := 1, last := 1 }, 11),
    (.loopx { lvl := 1, cg := 0, cimm := 0, last := 1 }, 5), (.ldg { sm with scope := 6 }, 9), (.ldg { sm with ord := 2 }, 13),
    (.ldg { sm with scope := 4 }, 13), (.ldg { sm with sz := 4 }, 13), (.ldg { sm with sub := 2 }, 5), (.stg { sm with ord := 1 }, 13),
    (.atom { sm with sz := 1 }, 13), (.atom { sm with sub := 36 }, 13), (.atom { sm with sub := 40 }, 13), (.atom { sm with sub := 1 }, 5),
    (.ldlit { sm with ord := 1 }, 5), (.fence { sm with sz := 0 }, 13), (.fence { sm with sz := 0, ord := 1, scope := 7 }, 9),
    (.strm { se with scope := 1 }, 5), (.strm { se with scope := 0, gp := 1, sub := 1 }, 5), (.cpy { se with scope := 0, gc := 1 }, 5),
    (.launch { se with scope := 0, h := 1 }, 5), (.swait { se with scope := 1 }, 13), (.swait { se with gc := 1, sub := 2 }, 5),
    (.waitc { se with scope := 6 }, 9), (.bar { se with h := 1 }, 5), (.arrv { se with scope := 0 }, 13), (.bwait { se with gc := 1 }, 5),
    (.signal { se with sub := 4 }, 13), (.signal { se with sub := 1 }, 5), (.cfgld { se with scope := 0, gp := 1 }, 5)
  ].all (fun p => p.1.slotItem == some p.2) = true := by decide +kernel

/-- Words no slot can make legal: opcode 0x07 unassigned in slot A (item 1), header bit 112 (item 2), LE 5 (item 2), a spine word with
ROLE 1 (item 3), a BR in slot A of a spine word (item 4), a NOP with a bit (item 5), a header of ones over a slot (item 12; item 2 is lower). -/
theorem test_illegal_words : [
    (0x7800FF00000000000000000000000000, 1, 1), (0x78010000000000000000000000000000, 2, 0), (0x7A800000000000000000000000000000, 2, 0),
    (0x88000000000000000000000000000000, 3, 0), (0x80000200000000000200000000000000, 4, 1), (0x78000000000000000000000000000001, 5, 2),
    (0xFFFF0000000000000000000000000001, 2, 0)
  ].all (fun p => decodeWord (BitVec.ofNat 128 p.1) == .illegal p.2.1 p.2.2) = true := by decide +kernel

/-! ### States of the tests -/

/-- Whether a step gives a next state in which p holds. -/
def gives (o : Host.Outcome State Fault Refusal) (p : State → Bool) : Bool :=
  match o with
  | .next t => p t
  | _ => false

/-- Whether a check passes with an answer of which p holds. -/
def passes {ε α : Type} (r : Except ε α) (p : α → Bool) : Bool :=
  match r with
  | .ok x => p x
  | .error _ => false

/-- A spine that stands at slot A of its word, in the middle of a cycle of its launch. -/
def onSpine (p : Spine) : State :=
  { State.reset.withLaunch { p with phase := .slotA } with focus := { Focus.idle with sig := 1, spine := true } }

/-- Spine registers, as the slots of a word read and write them. -/
def regs (g : Tab Word) : Spine := { Spine.zero with g, before := { Sources.zero with g } }

/-- An element that has met a word for every role whose guard enables all lanes, in generation 1 and mode T. -/
def onElement (e : Element) : State :=
  let s := State.reset.withLaunch Spine.zero
  { s with focus := { Focus.idle with sig := 1, mode := 9, lanes := -1, before := e } }.withElem e

/-- Current vector registers, 32-bit scalars, and a tile. -/
def vec (x : Vec) (fmt : BitVec 4) : VReg := ⟨x, 1, fmt, false, false⟩
def scalars (l : List (Nat × SWord)) : Tab (Tagged 32) := l.map fun p => (p.1, ⟨p.2, 1, false⟩)

/-- Repeat a value over the lanes of a vector or a tile. -/
def lanesOf (w n : Nat) (x : Nat) : Nat := (List.range n).foldl (fun a i => a + x * 2 ^ (w * i)) 0
def splat (w x : Nat) : Vec := BitVec.ofNat 512 (lanesOf w (512 / w) x)

/-! ### Spine -/

/-- R168: −7 div 2 is −3; anything divided by 0 gives −1 and the dividend. The operands of `witness` are one pair of each. -/
theorem test_div : gives (exec (.div { sg with gd := 3, ga := 1, gb := 2 }) (onSpine (regs [(1, -7), (2, 2)]))) (fun t => t.regG 3 == -3) = true
    ∧ gives (exec (.remu { sg with gd := 3, ga := 1, gb := 4 }) (onSpine (regs [(1, 9), (2, 2)]))) (fun t => t.regG 3 == 9) = true := by
  decide +kernel

theorem witness_SpineDivisionResults :
    ((Instr.div, -3) : (SG → Instr) × Word) ∈ divisionResults ((onSpine (regs [(1, -7), (2, 2)])).readG 1) ((onSpine (regs [(1, -7), (2, 2)])).readG 2) :=
  List.mem_cons_self

/-- Interface 0 with a world key, page tables that map its first GiB, with every permission, to physical addresses from 4 GiB, and a range
entry 1 for FP32 data from 1 MiB. -/
def mapped (s : State) : State :=
  { s with
    memory := [(0, 1), (2, 2), (0x20000, 0x3F), (0x20004, 1), (0x400042, 0x10), (0x40004A, 0x12), (0x400052, 0x11), (0x400060, 0x97)]
    ifaces := s.ifaces.set Iface.zero 0 { s.iface 0 with worldKey := some 0, rtab := 0x400000 } }

/-- A 64-byte block of eight words, the first at its lowest address. -/
def block (l : List Nat) : Vec := BitVec.ofNat 512 (l.foldr (fun x a => x + 2 ^ 64 * a) 0)

/-- A spine that holds a block of its pool at byte 80 of its code: 48 bytes in one pool block, 16 in the next (R141). -/
def pooled (p : Spine) (b : Vec) : Spine :=
  { p with fetched := [(1, SchedWord.marker.setWidth 512 ||| b <<< 128), (2, SchedWord.marker.setWidth 512 ||| (b >>> 384) <<< 128)] }
def fromPool : SE := { se with disp := 80, scope := 0, sub := 1 }

/-- A spine whose code block 0 is there, with a word at its start and a literal block at 64. -/
def fetchedCode (w : SchedWord) : Spine :=
  { Spine.zero with fetched := [(0, w.setWidth 512), (1, (SchedWord.marker.setWidth 512) ||| (0x80#512 <<< 128))] }

/-- The FADD and ADDI words of the spec's examples (R126, R132). -/
def faddWord : SchedWord := 0x7CD8203886060A000020500000003800
def addiWord : SchedWord := 0x800030297FFFFFFFC000000000000000

theorem witness_StepRunsTheDecodedInstruction :
    ((State.reset.withFetchWord 128 addiWord.toNat).agenda = [.spineSlot false, .spineSlot true, .spineLeave]
      ∧ (State.reset.withFetchWord 128 addiWord.toNat).here.atSlot false = true
      ∧ (State.reset.withFetchWord 128 addiWord.toNat).here.slot false = .instr (.addi { gd := 5, ga := 5, imm := -1, sub := 0 }))
    ∧ ((State.reset.withFetchWord 128 faddWord.toNat).agenda = [.elemSlot false, .elemSlot true, .elemLeave]
      ∧ (State.reset.withFetchWord 128 faddWord.toNat).focus.slot false
          = .instr (.fadd { vd := 7, va := 2, vb := 3, vc := 0, ty := 6, md := 0, kp := 2, kz := 1, rx := 0, sub := 0 }))
    ∧ decodeTableWord 128 addiWord.toNat = some (.addi { gd := 5, ga := 5, imm := -1, sub := 0 }) := by
  decide +kernel

/-- R170: ADDI of −1 to g5 = 0 gives −1, run by the step itself. -/
theorem test_addi : gives (step (State.reset.withFetchWord 128 addiWord.toNat)) (fun t => t.regG 5 == -1) = true := by decide +kernel

/-- A launch that is about to issue the word at its pc. -/
def issuing (w : SchedWord) : State := State.reset.withLaunch (fetchedCode w)

/-- A launch about to issue a word that ends an iteration of level 0, of which two are left, and one whose next word is a seam word. -/
def iterating (w : SchedWord) : State := State.reset.withLaunch { fetchedCode w with lact := 1, lc := [(0, 2)] }
def mmaWord : SchedWord := 0x78005044280CC0000000000000000000
def seamWord : SchedWord := mmaWord ||| 1 <<< 114

/-- R163, R344: a fabric word that ends an iteration goes on at the level's start; one with LE and no active level ends the launch. -/
theorem test_issue_loop :
    gives (exec (.spineEmitWord 1) (iterating faddWord)) (fun t => (t.spineOf 1).lc.get 0 0 == 1 && (t.sig 1).flight.length == 1) = true
    ∧ gives (exec (.spineEmitWord 1) (issuing faddWord)) (fun t => (t.sig 1).byFault && (t.sig 1).flight.length == 0) = true := by decide +kernel

theorem witness_WordIssue :
    (let s := issuing addiWord
     let g := s.sig 1
     let p := s.spineOf 1
     s.runs 1 = true ∧ p.phase = .fetch ∧ p.breakpoint = false ∧ s.spineStopped 1 = false ∧ p.resumeAt ≤ s.cycle
       ∧ s.codeBlock 1 (p.pc.toNat / 64) = .here (addiWord.setWidth 512) ∧ p.loopBreach addiWord = false
       ∧ s.spaced 1 spine (.addi { gd := 5, ga := 5, imm := -1, sub := 0 }) = false ∧ g.time = 0)
    ∧ (let s := issuing faddWord
       let p := s.spineOf 1
       s.runs 1 = true ∧ p.phase = .fetch ∧ s.codeBlock 1 (p.pc.toNat / 64) = .here (faddWord.setWidth 512) ∧ p.levelAt p.pc none = none
         ∧ (SchedWord.header faddWord).le ≠ 0)
    ∧ (let s := iterating faddWord
       let p := s.spineOf 1
       s.runs 1 = true ∧ p.phase = .fetch ∧ p.breakpoint = false ∧ s.spineStopped 1 = false ∧ p.resumeAt ≤ s.cycle
         ∧ s.codeBlock 1 (p.pc.toNat / 64) = .here (faddWord.setWidth 512) ∧ p.levelAt p.pc none = some 0 ∧ (SchedWord.header faddWord).le = 1
         ∧ (SchedWord.header faddWord).spine = false ∧ (SchedWord.header faddWord).seam = false)
    ∧ (let s := issuing seamWord
       let p := s.spineOf 1
       p.phase = .fetch ∧ s.codeBlock 1 (p.pc.toNat / 64) = .here (seamWord.setWidth 512) ∧ p.levelAt p.pc none = none
         ∧ (SchedWord.header seamWord).seam = true ∧ (SchedWord.header seamWord).le = 0 ∧ p.seamRequest = none ∧ s.seamHeld 1 = false)
    ∧ (let s := State.reset.withLaunch { fetchedCode seamWord with seamRequest := some .genadv }
       (s.spineOf 1).seamRequest.isSome = true ∧ s.codeBlock 1 0 = .here (seamWord.setWidth 512))
    ∧ ((issuing (faddWord ||| 1 <<< 112)).codeBlock 1 0 = .here ((faddWord ||| 1 <<< 112).setWidth 512)
       ∧ (match decodeWord (faddWord ||| 1 <<< 112) with | .illegal item slot => item == 2 && slot == 0 | _ => false) = true
       ∧ (issuing SchedWord.marker).codeBlock 1 0 = .here (SchedWord.marker.setWidth 512)
       ∧ (match decodeWord SchedWord.marker with | .marker => true | _ => false) = true)
    ∧ gives (exec (.spineEmitWord 1) (issuing addiWord)) (fun t => t.here.phase == .slotA && t.here.ir == addiWord) = true := by decide +kernel

/-- The operands the results are read at: 5 in g1, 3 in g2. -/
def fiveThree : State := onSpine (regs [(1, 5), (2, 3)])

/-- R167: 5 − 3, and the high half of a product. -/
theorem test_registers : gives (exec (.sub { sg with gd := 3, ga := 1, gb := 2 }) fiveThree) (fun t => t.regG 3 == 2) = true
    ∧ gives (exec (.mulh { sg with gd := 3, ga := 1, gb := 2 }) (onSpine (regs [(1, -5), (2, 3)]))) (fun t => t.regG 3 == -1) = true
    ∧ gives (exec (.slt { sg with gd := 3, ga := 1, gb := 2 }) (onSpine (regs [(1, -5), (2, 3)]))) (fun t => t.regG 3 == 1) = true := by
  decide +kernel

/-- R169: EXT of 4 bits at 60 of 0x5…, signed and unsigned; CLZ of 5. -/
theorem test_fields :
    gives (exec (.ext { sg with gd := 3, ga := 1, sub := 60 <<< 27 ||| 3 <<< 21 ||| 1 <<< 20 }) (onSpine (regs [(1, 0xA000000000000000)])))
      (fun t => t.regG 3 == -6) = true
    ∧ gives (exec (.clz { sg with gd := 3, ga := 1 }) fiveThree) (fun t => t.regG 3 == 61) = true := by decide +kernel

theorem witness_SpineResults :
    ((Instr.add, 8) : (SG → Instr) × Word) ∈ registerResults (fiveThree.readG 1) (fiveThree.readG 2)
    ∧ ((60 : Nat) + (3 + 1) ≤ 64)
    ∧ ((Instr.addi, 4) : (SI → Instr) × Word) ∈ immediateResults (fiveThree.readG 1) (-1) := by
  refine ⟨List.mem_cons_self, by decide, List.mem_cons_self⟩

/-- A spine at byte 0x140 of its code with an inner loop that ends at its own word, a full return stack, and g1 = 5, g2 = 3, g3 = 2^32. -/
def looping : State :=
  onSpine { regs [(1, 5), (2, 3), (3, 0x100000000)] with
    pc := 0x140, lact := 2, lend := [(1, 0x160)], lstart := [(1, 0x130)], lc := [(1, 7)], ret := List.replicate 16 0x40 }

/-- R159, R162: a BRC on 5 < 3 is not taken; one on 3 < 5 goes to the block before; a LOOP of 3 iterations of 2 words. -/
theorem test_branch : gives (exec (.brc { ga := 1, gb := 2, cond := 2, disp := -1 }) looping) (fun t => t.here.target == none) = true
    ∧ gives (exec (.brc { ga := 2, gb := 1, cond := 2, disp := -1 }) looping) (fun t => t.here.target == some 0x100) = true := by decide +kernel
theorem test_loop : gives (exec (.loop { lvl := 0, cg := 0, cimm := 3, last := 3 }) looping)
    (fun t => t.here.lc.get 0 0 == 3 && t.here.lstart.get 0 0 == 0x150 && t.here.lend.get 0 0 == 0x170 && t.here.lact == 3) = true := by
  decide +kernel

theorem witness_BranchesAndLoops :
    (branchConditions (looping.readG 1) (looping.readG 2))[2]! = false ∧ (branchConditions (looping.readG 2) (looping.readG 1))[2]! = true
    ∧ (onSpine (regs [(1, 5)])).here.ret.length < 16 ∧ looping.here.ret = 0x40 :: List.replicate 15 0x40
    ∧ (looping.readG 3).toNat % 64 = 0
    -- a count of 2^32; a level that ends where level 1 does; a count of 0; a count of 3
    ∧ 2 ^ 32 ≤ (looping.readG 3).toNat
    ∧ (∃ k < 4, k ≠ 0 ∧ looping.here.lact.getLsbD k = true ∧ looping.here.lend.get 0 k = looping.here.pc + BitVec.ofNat 64 (16 * 2))
    ∧ ¬(∃ k < 4, k ≠ 0 ∧ looping.here.lact.getLsbD k = true ∧ looping.here.lend.get 0 k = looping.here.pc + BitVec.ofNat 64 (16 * 3))
    ∧ looping.here.lact.getLsbD 0 = false ∧ looping.here.lact.getLsbD 1 = true := by decide +kernel

theorem witness_FormsThatFault :
    16 ≤ looping.here.ret.length ∧ fiveThree.here.ret = [] ∧ (looping.readG 1).toNat % 64 ≠ 0
    ∧ 8 ≤ (onSpine { Spine.zero with region := List.replicate 8 1 }).here.region.length ∧ fiveThree.here.region = []
    ∧ (fiveThree.here.answer = none ∧ fiveThree.here.waiting = false ∧ ((fiveThree.readG 1) + BitVec.ofInt 64 (0#24).toInt).toNat % 2 ^ 2 ≠ 0)
    ∧ (let blk := block [32, 0, 0, 0]
       let s := onSpine (pooled Spine.zero blk)
       s.readBlock fromPool = .inr blk ∧ (s.ctx s.focus.sig 0).kind = .free ∧ copyRefused blk 0 = some 0 ∧ stepRefused blk = some 0)
    ∧ (let blk := block [0, 0x1000, 128, 0, 0x50000, 0]
       let s := onSpine (pooled Spine.zero blk)
       s.readBlock fromPool = .inr blk ∧ copyRefused blk 0 = none ∧ (s.keyRefused [(0, blockWord blk 4), (0, blockWord blk 5)]).isSome = true) := by
  decide +kernel

/-- A spine whose word is over: END's, and one whose loop level 0 ends here with two iterations left. -/
def leaving (p : Spine) : State := State.reset.withLaunch { p with phase := .leave, ir := addiWord }

theorem witness_WordsLeftAndEnded :
    (let s := leaving { Spine.zero with lact := 1, lc := [(0, 2)], lstart := [(0, 0x40)] }
     s.runs 1 = true ∧ (s.spineOf 1).phase = .leave ∧ (s.spineOf 1).idles = 0 ∧ (s.sig 1).ending = false
       ∧ (s.spineOf 1).levelAt (s.spineOf 1).pc none = some 0)
    ∧ (leaving Spine.zero).here.levelAt 0 none = none
    ∧ (let s := onSpine { regs [] with lastVote := some 0 }
       (s.sig 1).span = 30 ∧ ∀ v, (s.setSig 1 { s.sig 1 with time := 92 }).here.lastVote = some v → v + 2 * (s.sig 1).span + 32 ≤ 92) := by
  decide +kernel

/-- A plane that holds configuration 3 READY, beside the active one. -/
def twoPlanes : State :=
  let s := fiveThree
  s.setFolio 0 0 { s.folio 0 0 with planes := (s.folio 0 0).planes ++ [(1, { Plane.invalid with state := .ready, owner := some 0, cfg := 3 })] }

theorem witness_ControlAndObservation :
    (((4 <<< 4 : BitVec 8).extractLsb' 4 3).toNat < 5 ∧ 5 ≤ ((5 <<< 4 : BitVec 8).extractLsb' 4 3).toNat)
    ∧ ((0x10 : BitVec 32).extractLsb' 0 12).toNat = 0x10 ∧ ((0x30 : BitVec 32).extractLsb' 0 12).toNat = 0x30
    ∧ ((0x001, 17) : Nat × Word) ∈ fiveThree.controlValues ∧ ((0x080, 0) : Nat × Word) ∈ fiveThree.controlValues
    ∧ (let g := twoPlanes.sig 1
       let has (cfg : Nat) (states : List PlaneState) (rc : Nat × Nat) : Bool := ((twoPlanes.folio rc.1 rc.2).planeWith g.vif g.code cfg states).isSome
       g.folios = [(0, 0)] ∧ has 3 [.loading] (0, 0) = false ∧ has 3 [.ready, .active] (0, 0) = true ∧ has 4 [.ready, .active] (0, 0) = false
         ∧ ∀ x ∈ g.ctxs, x.2.kind = .cfgld → x.2.unit ≠ 3)
    ∧ fiveThree.here.region.length < 8 ∧ (onSpine { Spine.zero with region := [7] }).here.region = [7]
    ∧ ((fiveThree.folio 0 0).gated = false ∧ (fiveThree.iface 0).policy.tcls ≤ 0 ∧ (fiveThree.folio 0 0).staging.records.length < 64)
    ∧ fiveThree.here.bkpt = none ∧ ({ sg with gd := 3, gb := 3 } : SG).gd = ({ sg with gd := 3, gb := 3 } : SG).gb
    ∧ (let s := leaving { Spine.zero with bkpt := some 5 }
       s.runs 1 = true ∧ (s.spineOf 1).phase = .leave ∧ (s.spineOf 1).idles = 0 ∧ (s.spineOf 1).bkpt = some 5)
    ∧ ((fiveThree.iface 0).dbg.getLsbD 1 = false
       ∧ ((fiveThree.setIface 0 { fiveThree.iface 0 with dbg := 2 }).iface 0).dbg.getLsbD 1 = true ∧ fiveThree.debugger.stopped = false) := by
  decide +kernel

/-- R186: SETM of rounding mode 5 is an illegal operand: the launch ends by fault; mode 4 is set. -/
theorem test_setm : gives (exec (.setm { si with imm := 0x40 }) fiveThree) (fun t => t.here.mode == 0x40) = true
    ∧ gives (exec (.setm { si with imm := 0x50 }) fiveThree) (fun t => t.here.mode == 9 && (t.sig 1).byFault) = true := by decide +kernel

/-- A load of 4 bytes at 5 + 3 whose unit has come, and the same with its unit in the read-ahead. -/
def loading (p : Spine) : State := mapped (onSpine { p with g := [(1, 5)], before := { Sources.zero with g := [(1, 5)] } })
def unit8 : Vec := block [0, 0xFFFFFFFF80000001]
def load4 : SM := { sm with gv := 2, gb := 1, off := 3, sz := 2, sub := 1 }

theorem test_ldg : gives (exec (.ldg load4) (loading { Spine.zero with answer := some (.data unit8 0) })) (fun t => t.regG 2 == -0x7FFFFFFF) = true := by
  decide +kernel

theorem witness_SpineMemory :
    (loading { Spine.zero with answer := some (.data unit8 0) }).here.answer = some (.data unit8 0)
    ∧ (let s := loading { Spine.zero with readAhead := [⟨0, unit8, 0, 1⟩] }
       let ea := s.readG load4.gb + BitVec.ofInt 64 load4.off.toInt
       s.here.answer = none ∧ s.here.waiting = false ∧ load4.ord = 0 ∧ ea.toNat % 2 ^ load4.sz.toNat = 0
         ∧ s.here.readAhead.find? (fun e => e.unit = ea.toNat / 64) = some ⟨0, unit8, 0, 1⟩)
    ∧ (let s := loading Spine.zero
       let ea := s.readG load4.gb + BitVec.ofInt 64 load4.off.toInt
       let op := ReqOp.write (storeBytes ea 4 (s.readG load4.gv)).1 (storeBytes ea 4 (s.readG load4.gv)).2
       ea.toNat % 4 = 0 ∧ s.released s.focus.sig 5 = true
         ∧ passes (s.translatePages (some (dieOf 0 0)) 0 ea [op.need]) (· == 0x100000008) = true ∧ (s.iface 0).worldKey.isSome = true)
    ∧ (loading { Spine.zero with answer := some (.value 7) }).here.answer = some (.value 7)
    ∧ (let s := onSpine (pooled Spine.zero unit8)
       let lit : Word := BitVec.ofNat 64 (s.here.pc.toNat / 64 * 64) + BitVec.ofInt 64 (120#24).toInt + s.readG 0
       let v : Vec := SchedWord.marker.setWidth 512 ||| unit8 <<< 128
       s.codeBlock s.focus.sig (lit.toNat / 64) = .here v ∧ v.extractLsb' 0 128 = SchedWord.marker
         ∧ 16 ≤ lit.toNat % 64 ∧ lit.toNat % 64 + 8 ≤ 64) := by
  decide +kernel

theorem witness_CompletionObjects :
    (let s := loading { Spine.zero with answer := some (.data unit8 0), barPh := 3, poll := some 8 }
     let ea := s.readG 1 + BitVec.ofInt 64 (3#24).toInt
     let seen := unit8.toNat / 2 ^ (8 * (ea.toNat % 64)) % 2 ^ 64
     ea.toNat % 8 = 0 ∧ s.here.answer = some (.data unit8 0) ∧ (s.readG 1).toNat ≤ seen ∧ seen / 2 ^ 32 ≠ s.here.barPh.toNat ∧ s.here.poll.isSome = true)
    ∧ (loading Spine.zero).drained 1 = true ∧ (loading Spine.zero).released 1 5 = true := by
  decide +kernel

/-- A stream of one granule of range 1, and a copy of two units, under the world key. -/
def streamBlock : Vec := block [0x100000, 0, 16, 0, 0, 0, 9 <<< 5, 1 + 2 ^ 48]
def copyBlock : Vec := block [0x100000, 0x110000, 128, 0, 2 ^ 48, 2 ^ 48]

/-- STRM with a count of zero, and one whose key slot is not LIVE. -/
theorem witness_FormsThatFault_stream :
    (let blk := block [0x100000, 0, 0, 0, 0, 0, 9 <<< 5, 1 + 2 ^ 48]
     let s := mapped (onSpine (pooled Spine.zero blk))
     let b := Block.ofVec blk
     s.readBlock fromPool = .inr blk ∧ b.frow < (s.sig 1).ht ∧ b.fcol < (s.sig 1).wd ∧ (s.ctx 1 (ctxKey 1 b.frow b.fcol 0)).kind = .free
       ∧ s.rangeClosed 0 b.ridx = false ∧ s.rangeThere 0 = .ok ()
       ∧ (Block.refused blk (Range.ofVec (s.rangeVec 0 b.ridx)) (s.addressing 0 b.ridx)).isSome = true)
    ∧ (let blk := block [0x100000, 0, 16, 0, 0, 0, 9 <<< 5, 1 + 5 * 2 ^ 16]
       let s := mapped (onSpine (pooled Spine.zero blk))
       let b := Block.ofVec blk
       s.readBlock fromPool = .inr blk ∧ Block.refused blk (Range.ofVec (s.rangeVec 0 b.ridx)) (s.addressing 0 b.ridx) = none
       ∧ s.keyValid 0 (keyFields b.keysel).1 (keyFields b.keysel).2.1 (keyFields b.keysel).2.2 = false) := by
  decide +kernel

theorem witness_EngineStarts :
    (let s := mapped (onSpine (pooled Spine.zero streamBlock))
     let b := Block.ofVec streamBlock
     s.readBlock fromPool = .inr streamBlock ∧ b.frow < (s.sig 1).ht ∧ b.fcol < (s.sig 1).wd ∧ (s.ctx 1 (ctxKey 1 b.frow b.fcol 0)).kind = .free
       ∧ s.rangeClosed 0 b.ridx = false ∧ s.rangeThere 0 = .ok () ∧ Block.refused streamBlock (Range.ofVec (s.rangeVec 0 b.ridx)) (s.addressing 0 b.ridx) = none
       ∧ s.keyValid 0 (keyFields b.keysel).1 (keyFields b.keysel).2.1 (keyFields b.keysel).2.2 = true)
    ∧ (let s := mapped (onSpine (pooled Spine.zero copyBlock))
       s.readBlock fromPool = .inr copyBlock ∧ (s.ctx 1 0).kind = .free ∧ copyRefused copyBlock 0 = none
         ∧ s.keyRefused [(0, blockWord copyBlock 4), (0, blockWord copyBlock 5)] = none)
    ∧ (stepRefused (block [0, 0, 0, 1, 0, 2 ^ 48]) = none ∧ (fiveThree.sig 1).launches = [] ∧ fiveThree.earlierStores 1 = [])
    ∧ fiveThree.waitedHandles se = some [0] ∧ (∀ k ∈ [0], (fiveThree.ctx 1 k).kind = .free) := by
  decide +kernel

/-- A spine whose controller answers now, whatever number of waits is open (log 1, DESIGN CHOICE). -/
def answered (g : Tab Word) : State := onSpine { regs g with progress := Config.controllerWait 0 }

theorem witness_CaptureCounters :
    (fiveThree.here.capture.on = false ∧ (fiveThree.readG 1).toNat % 256 < 10)
    ∧ ((onSpine { Spine.zero with capture := { Capture.zero with on := true } }).here.capture.on = true
      ∧ 10 ≤ ((onSpine (regs [(1, 10)])).readG 1).toNat % 256)
    ∧ (let s := onSpine { Spine.zero with waiting := true, progress := 1, capture := { Capture.zero with on := true } }
       s.here.waiting = true ∧ s.here.progress ≠ 0 ∧ s.spineStores s.focus.sig = []) := by
  decide +kernel

/-- R191: a running capture reads its counter of idx 2. -/
theorem test_cntrRead :
    gives (exec (.cntrRead { sg with gd := 4, sub := 3 ||| 2 <<< 3 }) (onSpine { Spine.zero with capture := { Capture.zero with counters := [(2, 99)] } }))
      (fun t => t.regG 4 == 99) = true := by decide +kernel

/-- Objects: folio set of the own signature (kind 0), with one subscription and one pin held. -/
def journalled : State :=
  let s := answered [(1, 2), (2, 3), (3, 0)]
  let s := s.setSig 1 { s.sig 1 with subs := [⟨1, 0, 0, 5⟩, ⟨2, 0, 0, 4⟩], pins := [⟨1, 0⟩] }
  { s with journal := { s.journal with lastApplied := [(completeObject 0 1 0, 7)] } }

theorem witness_JournalAndKeyInstructions :
    journalled.controllerAnswers = true
    ∧ ((journalled.readG 1).toNat % 64 ≤ 20 ∧ (journalled.readG 2).toNat < 32 ∧ (1 ≤ 3 ∧ 3 ≤ 15) ∧ (∀ u ∈ (journalled.sig 1).subs, u.number ≠ 3)
      ∧ ∀ j < 3, 1 ≤ j → ∃ u ∈ (journalled.sig 1).subs, u.number = j)
    ∧ (objectLegal (journalled.readG 3) = true ∧ (journalled.sig 1).pins.length < 16)
    ∧ (journalled.journal.lastApplied.find? fun q => q.1 = completeObject 0 1 (journalled.readG 3)) = some (completeObject 0 1 (journalled.readG 3), 7)
    ∧ ((journalled.sig 1).subs.find? fun u => u.number = (journalled.readG 1).toNat) = some ⟨2, 0, 0, 4⟩ ∧ (journalled.readG 2).toNat < 4 := by
  refine ⟨decide_eq_true (p := Config.controllerWait 0 ≤ Config.controllerWait 0) (Nat.le_refl _), ?_⟩
  decide +kernel

/-- Key slot 1 LIVE for interface 0 with generation 5, and slot 2 free. -/
def keyed : State :=
  let s := answered [(1, 0x500001), (2, 0x10000)]
  { s.setHere { s.here with progress := 1 } with
    keySlots := [(1, { KeySlot.free with live := true, sgen := 5 })], ifaces := [(0, { Iface.zero with worldKey := some 0, conf := 0x20000 })] }

theorem witness_JournalAndKeyInstructions_keys :
    keyed.keyTurn = true
    ∧ ((keyed.readG 2).toNat % 2 ^ 16 = 0 ∧ (keyed.readG 2).toNat < 2 ^ 56 ∧ keyed.keysServed = true ∧ keyed.liveSlots 0 < (keyed.iface 0).quota
      ∧ lowestFree 1 keyed.keySlots = 2)
    ∧ ((keyed.readG 1).toNat < 2 ^ 32 ∧ (keyed.keySlot 1).live = true ∧ (keyed.keySlot 1).sgen = (keyed.readG 1).toNat / 2 ^ 20
      ∧ (keyed.keySlot 1).owner = 0 ∧ (keyed.retireOld.keySlot 1).old = none) := by
  decide +kernel

/-- A blocking record of interface 1 waits, and the signature's gang is itself. -/
def yielding : State :=
  { fiveThree with platform := { fiveThree.platform with carve := 2 ^ 56 }, ifaces := [(1, { Iface.zero with queue := [⟨0, 0, true, 0, 0, 0, none, true, none⟩] })] }

theorem witness_TrapAndYield :
    fiveThree.yieldTo 1 = false ∧ yielding.yieldTo 1 = true ∧ yielding.placedGang 1 = [1] ∧ (yielding.sig 1).waves = []
    ∧ yielding.platform.store + (if (yielding.sig 1).reservedStore = 0 then imageRoom (yielding.sig 1).ht (yielding.sig 1).wd else 0) ≤ yielding.storeSize
    ∧ (fiveThree.recordFault 0 (fiveThree.slotFault 0x0F 2 3 7 5)).2.isSome = false
    ∧ ((mapped (fiveThree.setIface 0 { Iface.zero with farea := 0x100004 })).recordFault 0 (fiveThree.slotFault 0x0F 2 3 7 5)).2.isSome = true := by
  decide +kernel

/-! ### Elements -/

/-- v1 = INT16 lanes of 5, v2 of −3, v3 stale; v4, v5, v6 as the example of MMAS gives them, and a1 of −0.25; s1 = 64, s2 = 7;
k1 of the even byte lanes; b1 declared, FULL at granules 4 and 5; b2 declared and EMPTY. -/
def elem : Element :=
  { Element.zero with
    v := [(1, vec (splat 16 5) 14), (2, vec (splat 16 0xFFFD) 14), (4, ⟨splat 8 0x3C, 1, 3, true, false⟩), (5, ⟨splat 8 0x30, 1, 3, true, false⟩),
      (6, ⟨BitVec.ofNat 512 (lanesOf 8 8 0x81 + lanesOf 8 8 0x7E * 2 ^ 64), 1, 13, true, false⟩), (7, vec (splat 32 0x3F800000) 9)]
    a := [(1, ⟨BitVec.ofNat 2048 (lanesOf 32 64 0xBE800000), 1, false, false⟩)]
    s := scalars [(1, 64), (2, 7)]
    k := [(1, ⟨0x5555555555555555, 1, false⟩)]
    b := [(1, ⟨({ base := 4, cnt := 2, st := 2, fcnt := 2, void := false, fmt := 9, scaled := false } : BufferDesc).toWord, 1, false⟩),
      (2, ⟨({ base := 8, cnt := 2, st := 0, fcnt := 0, void := false, fmt := 0, scaled := false } : BufferDesc).toWord, 1, false⟩)]
    pad := [(1, ⟨splat 8 0x81, 1, false⟩), (4, ⟨splat 32 0x40000000, 1, false⟩)] }
def element : State := onElement elem

/-- A result that is queued. -/
def queued (i : Instr) (s : State) (p : Write → Bool) : Bool :=
  gives (exec i s) fun t => t.elem.pending.any fun x => p x.write

/-- Whether a write of a vector register gives a lane of some width a value, under a mask of ones or of zeros. -/
def laneIs (w j x : Nat) (on : Bool) : Write → Bool
  | .v _ data mask _ _ => laneOf data j w == x && laneOf mask j w == if on then 2 ^ w - 1 else 0
  | _ => false

/-- R204: 5 + (−3) = 2 in every INT16 lane; 5 · (−3) = −15. -/
theorem test_vadd : queued (.vadd { av with vd := 3, va := 1, vb := 2, ty := 14 }) element (laneIs 16 31 2 true) = true
    ∧ queued (.vmul { av with vd := 3, va := 1, vb := 2, ty := 14 }) element (laneIs 16 0 0xFFF1 true) = true := by decide +kernel

/-- The same in mode T, where a stale read traps. -/
def trapping : State := element.setSig 1 { element.sig 1 with record := 1#512 <<< 404 }

theorem witness_MaskedAndFaultingSlots :
    (((Instr.vadd, 1, [(1 : BitVec 5), 2], fun a b _ => fitted { av with va := 1, vb := 2, ty := 14 } (intValue 14 a + intValue 14 b)) : (AV → Instr) × _ × _ × _)
        ∈ integerLanes { av with va := 1, vb := 2, ty := 14 })
    ∧ element.focus.suppressed = false ∧ guardAny { element with focus := { element.focus with lanes := 0 } }.env 16 = false
    ∧ (trapping.acts = true ∧ trapping.env.trap = true ∧ element.env.trap = false ∧ (trapping.elem.s.get (Tagged.zero 32) 3).gen ≠ trapping.env.gen)
    -- offsets out of line and out of range, from s1 = 64; granules 2 and 0 of b1, which is FULL, and granule 0 of b2, which is EMPTY
    ∧ (element.mayPadAt { bl with sb := 1 } = true ∧ element.padAt { bl with sb := 1, off := 1 } % 64 ≠ 0
      ∧ 0x18000 < element.padAt { bl with sb := 1, off := 0x17FC1 } + 64)
    ∧ (element.mayUse 1 = true ∧ (element.buffer 1).cnt ≤ element.padAt { bl with off := 2 } ∧ element.mayUse 2 = true
      ∧ element.padAt bl < (element.buffer 2).cnt ∧ (element.buffer 2).void = false ∧ (element.buffer 2).st ≠ 2)
    ∧ (element.elem.b.get (Tagged.zero 64) 3).gen ≠ element.env.gen
    ∧ (element.mayReadV 1 = true ∧ element.mayReadV 2 = true ∧ (element.seenV 1).fits 3 false = false)
    ∧ (element.ctx element.focus.sig (element.egressCtx 2)).kind ≠ .stream
    ∧ ((element.sig 1).byFault = false ∧ (element.sig 1).frozen = false ∧ (element.sig 1).stop = none) := by
  refine ⟨List.mem_cons_self, ?_⟩
  decide +kernel

/-- The conditions of a lane-wise instruction on v1 and v2 under k1, in a word of the sample element. -/
theorem witness_lanes :
    (let f : AV := { av with vd := 3, va := 1, vb := 2, ty := 14, kp := 1, kz := 1 }
     element.mayPerform f [f.va, f.vb] = true ∧ element.mayName f.rx true = true
       ∧ element.active f.kp 16 0 = true ∧ guardZero element.env = true ∧ element.maySource f.rx f.va = true ∧ element.mayReadK f.kp.toNat = true) := by
  decide +kernel

theorem witness_IntegerResults :
    ((Instr.vsub, 1, [(1 : BitVec 5), 2], fun a b _ => fitted { av with va := 1, vb := 2, ty := 14 } (intValue 14 a - intValue 14 b)) : (AV → Instr) × _ × _ × _)
        ∈ integerLanes { av with va := 1, vb := 2, ty := 14 }
    ∧ ((Instr.vaddi, 1, true, fun a => (a + 9) % 2 ^ 16) : (AI → Instr) × _ × _ × _) ∈ immediateLanes { ai with va := 1, ty := 14, imm := 9 } false
    ∧ (element.focus.suppressed = false ∧ guardAny element.env 16 = true ∧ element.mayReadK 1 = true ∧ element.mayReadV 1 = true) := by
  refine ⟨List.mem_cons_of_mem _ List.mem_cons_self, List.mem_cons_self, ?_⟩
  decide +kernel

theorem witness_ExactFloatLanes :
    (Instr.fabs, 1, [(7 : BitVec 5)], fun a (_ : Nat) =>
        if ((floatFormat 9).read a).isNan then (floatFormat 9).canonicalNan
        else (floatFormat 9).pack false ((a / 2 ^ (floatFormat 9).low % 2 ^ ((floatFormat 9).ebits + (floatFormat 9).mbits + 1))
          % 2 ^ ((floatFormat 9).ebits + (floatFormat 9).mbits)))
      ∈ exactFloatLanes { avFloat with va := 7 }
    ∧ element.mayPerform { avFloat with va := 7 } [7] = true
    ∧ (isIntFormat 6 = false ∧ (readFormat 6 0x8000).isNan = false ∧ (readFormat 6 0x7FC1).isNan = true)
    ∧ (readFormat fp32 0x40400000 = .num false 0xC00000 (-22) ∧ readFormat fp32 0x80000000 = .num true 0 (-149) ∧ readFormat fp32 0xFF800000 = .inf true
      ∧ readFormat fp32 0x7F800001 = .nan) := by
  refine ⟨List.mem_cons_of_mem _ (List.mem_cons_of_mem _ List.mem_cons_self), ?_⟩
  decide +kernel

theorem witness_RoundedFloatLanes :
    (Instr.fadd, [(7 : BitVec 5), 7], fun m a b (_ : Nat) => FVal.sum m [readFormat 9 a, readFormat 9 b])
      ∈ roundedFloatLanes { avFloat with va := 7, vb := 7 }
    ∧ element.mayPerform { avFloat with va := 7, vb := 7 } [7, 7] = true
    ∧ (isIntFormat 3 = false ∧ (Rounding.mk 4 5 true).mode ≤ 4 ∧ (FVal.num true 3 (-1)).isFinite = true ∧ (FVal.inf true).isNan = false)
    ∧ (FVal.num true 0 0 ∈ [FVal.num true 0 0, .num false 0 4] ∧ FVal.nan ∉ [FVal.inf true, .num false 1 0]) :=
  ⟨List.mem_cons_self, by decide +kernel⟩

/-- R107, R108: the first lane of the example of R107 under SR; 1 + 2⁻⁸ is a tie in BF16, which goes to even; beyond 448, E4M3 saturates or is NaN. -/
theorem test_convert : convertTo bf16 ⟨4, 0x80000001, true⟩ (readFormat fp32 0x3F80C000) = 0x3F81
    ∧ convertTo bf16 ⟨0, 0, true⟩ (.num false 257 (-8)) = 0x3F80 ∧ convertTo 3 ⟨0, 0, false⟩ (.num true 500 0) = 0xFE
    ∧ convertTo 3 ⟨0, 0, true⟩ (.num true 500 0) = 0x7F := by decide +kernel

/-- R209: 1 + 1 = 2; 1 · 1 + 1 = 2; −1 is the negative of 1 (R210). -/
theorem test_float : queued (.fadd { avFloat with vd := 3, va := 7, vb := 7 }) element (laneIs 32 3 0x40000000 true) = true
    ∧ queued (.ffma { avFloat with vd := 3, va := 7, vb := 7, vc := 7 }) element (laneIs 32 15 0x40000000 true) = true
    ∧ queued (.fneg { avFloat with vd := 3, va := 7 }) element (laneIs 32 0 0xBF800000 true) = true := by decide +kernel

/-- R212: the FP32 lanes of the spec's table, converted to E4M3 as part 2. -/
theorem test_fcvt :
    let e := onElement { Element.zero with v := [(2, vec (BitVec.ofNat 512 (0x43FA0000 + 0x3A83126F * 2 ^ 32 + 0x3F880000 * 2 ^ 64)) 9)] }
    let i : Instr := .fcvt { av with vd := 8, va := 2, ty := 3, sub := 9 <<< 9 ||| 2 <<< 6 }
    queued i e (fun w => laneIs 8 32 0x7E true w && laneIs 8 33 0x01 true w && laneIs 8 34 0x38 true w && laneIs 8 31 0 false w) = true := by
  decide +kernel

theorem witness_CompareAndSelect :
    (let f : AV := { av with vd := 3, va := 1, vb := 2, ty := 14, md := 4, kp := 1 }
     element.focus.suppressed = false ∧ guardAny element.env 16 = true ∧ element.maySource f.rx f.va = true ∧ element.maySource f.rx f.vb = true
      ∧ element.mayReadK f.kp.toNat = true ∧ f.md.toNat < 6 ∧ element.mayName f.rx true = true)
    ∧ (isIntFormat 7 = false ∧ 7 < 8 ∧ 6 ≤ ({ av with md := 6 } : AV).md.toNat ∧ 8 ≤ ({ av with vd := 8 } : AV).vd.toNat) := by decide +kernel

/-- R207: 5 > −3 in every INT16 lane, and only in the active ones under k1. -/
theorem test_vcmp : queued (.vcmp { av with vd := 3, va := 1, vb := 2, ty := 14, md := 4 }) element
    (fun w => w == .k 3 0xFFFFFFFFFFFFFFFF 0xFFFFFFFFFFFFFFFF) = true := by decide +kernel

theorem witness_Conversions :
    element.mayPerform { avFloat with vd := 3, va := 7 } [7] = true
    ∧ (let s := { element with focus := { element.focus with lanes := 1 } }
       s.mayPerform { avFloat with vd := 3, va := 7 } [7] = true ∧ laneBit s.env.lanes 0 32 = true ∧ laneBit s.env.lanes 1 32 = false)
    ∧ (isIntFormat 12 = true ∧ isIntFormat 9 = false ∧ (2 : Nat) ≤ 4 ∧ readFormat fp32 0x3FC00000 = .num false 0xC00000 (-23)) := by
  decide +kernel

theorem witness_Reductions :
    (let f : AV := { av with vd := 3, va := 1, ty := 14, kp := 1 }
     element.focus.suppressed = false ∧ guardZero element.env = true ∧ element.maySource f.rx f.va = true ∧ element.mayReadK f.kp.toNat = true
      ∧ element.mayName f.rx true = true ∧ (f.sub.extractLsb' 10 3).toNat < 6) := by decide +kernel

/-- R216: VRED.ADD of 32 lanes of 5; VSCAN's lane 2 holds the sum of the first three. -/
theorem test_reductions : queued (.vred { av with vd := 3, va := 1, ty := 14 }) element (laneIs 16 0 160 true) = true
    ∧ queued (.vscan { av with vd := 3, va := 1, ty := 14 }) element (laneIs 16 2 15 true) = true := by decide +kernel

theorem witness_Permutations :
    (∃ op, (Instr.vshuf, 2, [(1 : BitVec 5), 2, 1], op) ∈ permutedLanes { av with va := 1, vb := 2, vc := 1, ty := 14 })
    ∧ element.mayPerform { av with va := 1, vb := 2, vc := 1, ty := 14 } [1, 2, 1] = true :=
  ⟨⟨_, List.mem_cons_self⟩, by decide +kernel⟩

/-- R217: VROT by 1 of a vector whose lane 0 is 1 puts it in the last lane; VINS puts lane 0 of vb at j. -/
theorem test_permutations :
    queued (.vrot { av with vd := 3, va := 2, ty := 14, sub := 1 <<< 6 }) (onElement { Element.zero with v := [(2, vec 1 14)] }) (laneIs 16 31 1 true) = true
    ∧ queued (.vins { av with vd := 3, va := 1, vb := 2, ty := 14, sub := 4 <<< 6 }) element (fun w => laneIs 16 4 0xFFFD true w && laneIs 16 5 5 true w) = true := by
  decide +kernel

/-- The MMAS of R228 as the matrix unit holds it. -/
def mmasExample : AM := { ad := 1, va := 4, vb := 5, vc := 6, fa := 3, fb := 3, sm := 1, ov := 0, rm := 0, rx := 0, sub := 8 }
def inUnit (i : Instr) (va vb vc : Vec) : MatrixOp := ⟨3, 0, 1, i, va, vb, vc, 0, 9⟩

theorem witness_MatrixStarts :
    element.acts = true
    ∧ (element.maySource 0 4 = true ∧ (element.source 0 4).fits 3 true = true ∧ element.maySource 0 5 = true ∧ (element.source 0 5).fits 3 true = true
      ∧ element.maySource 0 6 = true ∧ (element.source 0 6).fits 13 true = true ∧ element.mayReadTile 1 = true ∧ element.kindFits 1 false = true)
    ∧ (element.maySource 0 7 = true ∧ (element.source 0 7).fits 9 false = true) ∧ (∀ t < 4, element.mayReadTile (0 + t) = true) := by
  decide +kernel

/-- R116, R228: every element of a1 becomes 11.75 = 0x413C0000. -/
theorem test_mmas :
    (match (inUnit (.mmas mmasExample) (splat 8 0x3C) (splat 8 0x30) (BitVec.ofNat 512 (lanesOf 8 8 0x81 + lanesOf 8 8 0x7E * 2 ^ 64))).writes elem with
     | [.a 1 data mask false] => tileAt data 0 0 == 0x413C0000 && tileAt data 7 7 == 0x413C0000 && mask == -1
     | _ => false) = true := by decide +kernel

/-- R112: an MMA of E4M3 ones without the old tile sums eight products of 1 (0x38 · 0x38). -/
theorem test_mma :
    (match (inUnit (.mma { mmasExample with sm := 0, sub := 0, ov := 1 }) (splat 8 0x38) (splat 8 0x38) 0).writes elem with
     | [.a 1 data _ false] => tileAt data 3 4 == 0x41000000
     | _ => false) = true := by decide +kernel

/-- R117: MDRN to E4M3 of 11.75 under a tensor scale of 0.5 gives 6.0 under RNE and 5.5 under RTZ. -/
theorem test_mdrn :
    let e := { Element.zero with a := [(1, ⟨BitVec.ofNat 2048 (lanesOf 32 64 0x413C0000), 1, false, false⟩)] }
    let out (rm : BitVec 3) := (inUnit (.mdrn { am with ad := 1, va := 8, vb := 7, rm, sub := 0x10 }) 0 (splat 32 0x3F000000) 0).writes e
    ((out 0).all (laneIs 8 0 0x4C true) && (out 1).all (laneIs 8 0 0x4B true)) = true := by decide +kernel

theorem witness_MatrixResults :
    laneWidth mmasExample.fa = laneWidth mmasExample.fb ∧ (inUnit (.mmas mmasExample) 0 0 0).instr = .mmas mmasExample
    ∧ (inUnit (.mma { mmasExample with fa := 13, fb := 12 }) 0 0 0).instr = .mma { mmasExample with fa := 13, fb := 12 }
    ∧ laneWidth 13 = laneWidth 12
    ∧ ((inUnit (.mdrn { am with ad := 1, va := 8, fa := 6, fb := 6, sub := 0x20 }) 0 0 0).instr = .mdrn { am with ad := 1, va := 8, fa := 6, fb := 6, sub := 0x20 }
      ∧ laneWidth 6 = 16 ∧ ((0x20 : BitVec 26).extractLsb' 5 2).toNat < 2)
    ∧ ((inUnit (.mdrq { am with va := 8, vc := 12, fa := 3, fb := 3 }) 0 0 0).instr = .mdrq { am with va := 8, vc := 12, fa := 3, fb := 3 }
      ∧ (3 : BitVec 4).toNat ≤ 5) := by decide +kernel

/-- R118: rows of 5.875 under MDRQ to E4M3 have the scale byte 0x79 and the element 0x7C. -/
theorem test_mdrq :
    let e := { Element.zero with a := (List.range 4).map fun i => (i, ⟨BitVec.ofNat 2048 (lanesOf 32 64 0x413C0000), 1, false, false⟩) }
    ((inUnit (.mdrq { am with ad := 0, va := 8, vb := 7, vc := 12, fa := 3, fb := 3, sub := 0x10 }) 0 (splat 32 0x3F000000) 0).writes e).all
      (fun w => match w with
        | .v 12 scales mask 13 true => laneOf scales 3 8 == 0x79 && mask == 0xFFFFFFFF
        | .v _ data _ 3 true => laneOf data 63 8 == 0x7C
        | _ => false) = true := by decide +kernel

theorem witness_TileMoves :
    element.acts = true ∧ element.maySource 0 7 = true
    ∧ ((element.elem.a.get AReg.zero 1).gen = element.env.gen ∧ (element.elem.a.get AReg.zero 1).poison = false)
    ∧ ((element.elem.a.get AReg.zero 2).gen ≠ element.env.gen ∧ element.env.trap = false) := by decide +kernel

/-- R229: MLDR with q = 1 puts lane 0 of v7 into row 2. -/
theorem test_mldr : queued (.mldr { am with ad := 3, va := 7, fa := 0, fb := 0, sub := 1 }) element
    (fun w => match w with | .a 3 data mask false => tileAt data 2 0 == 0x3F800000 && tileAt mask 3 7 == 0xFFFFFFFF && tileAt mask 4 0 == 0 | _ => false)
    = true := by decide +kernel

theorem witness_ScalarAndPredicateResults :
    element.acts = true ∧ element.mayReadS 1 = true ∧ element.mayReadS 2 = true
    ∧ ((Instr.sadd, 1, true, true, 71) : (AS → Instr) × _ × _ × _ × _) ∈ scalarResults { as with sa := 1, sb := 2 } (element.seenS 1) (element.seenS 2)
    ∧ element.mayReadK 1 = true ∧ element.mayReadK 0 = true ∧ element.mayReadV 1 = true := by
  refine ⟨by decide +kernel, by decide +kernel, by decide +kernel, List.mem_cons_self, ?_⟩
  decide +kernel

/-- R220, R221, R222: 64 − 7; the role number; KPOPC of k1 counts 32; KMOV of 7 gives the lowest seven lanes. -/
theorem test_scalars : queued (.ssub { as with sd := 3, sa := 1, sb := 2 }) element (· == .s 3 57) = true
    ∧ queued (.elid { as with sd := 3, sub := 4 }) element (· == .s 3 0) = true := by decide +kernel
theorem test_predicates : queued (.kpopc { ak with ka := 1, sa := 5 }) element (· == .s 5 32) = true
    ∧ queued (.kmov { ak with kd := 2, sa := 2, sub := 3 }) element (· == .k 2 0x7F 0xFFFFFFFFFFFFFFFF) = true := by decide +kernel

theorem witness_PadAccess :
    (let f : BL := { bl with vr := 3, sb := 1, kp := 1, sz := 2 }
     element.padAt f = 64 ∧ element.padAt f + 64 ≤ 0x18000 ∧ element.mayAccess f = true ∧ element.mayName f.rx true = true
       ∧ (∀ b ∈ List.range 192, element.covers f 64 b = true → element.mayReadPad (b / 64) = true)
       ∧ element.maySource f.rx 1 = true)
    ∧ (element.padAt { bl with off := 0x17FC0 } + 64 ≤ 0x18000 ∧ element.padAt { bl with off := 0x17FC0 } % 64 = 0)
    ∧ (element.mayUse 1 = true ∧ element.padAt { bl with off := 1 } < (element.buffer 1).cnt ∧ (element.buffer 1).void = false ∧ (element.buffer 1).st = 2)
    ∧ (element.mayUse 2 = true ∧ element.padAt { bl with off := 1 } < (element.buffer 2).cnt ∧ (element.buffer 2).void = false ∧ (element.buffer 2).st = 0)
    ∧ (element.acts = true ∧ element.mayPadAt { bl with sb := 1, off := 4 } = true ∧ element.padAt { bl with sb := 1, off := 4 } % 8 ≠ 0
      ∧ element.padAt { bl with sb := 1, off := 8 } % 8 = 0 ∧ element.mayReadPad 1 = true ∧ element.mayReadS 1 = true ∧ element.mayReadS 2 = true) := by
  decide +kernel

/-- R235: LD of granule 1; R236: LDS of one byte, extended by its sign; R237: LDB of granule 0 of b1. -/
theorem test_loads : queued (.ld { bl with vr := 3, sb := 1, sz := 2 }) element (laneIs 32 5 0x81818181 true) = true
    ∧ queued (.lds { bl with vr := 5, sb := 1, mode := 1 }) element (· == .s 5 0xFFFFFF81) = true
    ∧ queued (.ldb { bl with vr := 3, bf := 1, sz := 2 }) element (laneIs 32 5 0x40000000 true) = true := by decide +kernel

/-- R236, R238: STS of one byte leaves its neighbours; an ADD of 7 at byte 64 gives the old word. -/
theorem test_stores : gives (exec (.sts { bl with vr := 2, sb := 1, off := 1 }) element) (fun t => t.padByte 65 == 7 && t.padByte 66 == 0x81 && t.padByte 64 == 0x81) = true
    ∧ gives (exec (.satom { bl with vr := 2, sb := 1, sz := 2 }) element) (fun t => t.padNat 64 4 == 0x81818188) = true := by decide +kernel

theorem witness_Buffers :
    element.acts = true ∧ (element.buffer 1).st = 2 ∧ (element.buffer 2).st = 0 ∧ element.mayUse 1 = true ∧ element.mayUse 2 = true
    ∧ (element.buffer 2).void = false ∧ (element.buffer 1).void = false
    ∧ (let e := elem.poisonRegister 4 1
       (e.b.get (Tagged.zero 64) 1).gen = 1 ∧ (e.b.get (Tagged.zero 64) 1).poison = true ∧ (elem.b.get (Tagged.zero 64) 1).poison = false) := by
  decide +kernel

/-- R239: BSTATE.FULL fills b2; BDECL of a stale buffer makes it EMPTY with its base and count. -/
theorem test_buffers : gives (exec (.bstateFull { bd with b := 2, st := 2 }) element) (fun t => (t.buffer 2).st == 2 && (t.buffer 2).fcnt == 2) = true
    ∧ gives (exec (.bdecl { bd with b := 3, n := 1500, sub := 36 }) element) (fun t => (t.buffer 3).base == 1500 && (t.buffer 3).cnt == 36) = true := by
  decide +kernel

/-- The element with an egress stream on handle 2 of two granules over its one place. -/
def streaming : State :=
  let b := block [0x100000, 0, 32, 0, 0, 0, 1 ||| 9 <<< 5, 1 + 2 ^ 48]
  element.setSig 1 { element.sig 1 with ctxs := [(2, { Ctx.free with kind := .stream, block := b, gen := 1 })] }

theorem witness_MovesRoutesAndEgress :
    element.acts = true ∧ element.mayReadV 1 = true ∧ element.mayReadS 2 = true
    ∧ (∃ o ∈ [(0x53 : BitVec 8)], (o.extractLsb' 4 4).toNat = 5)
    ∧ (let c := streaming.ctx 1 (streaming.egressCtx 2)
       let b := Block.ofVec c.block
       c.kind = .stream ∧ b.loads = false ∧ b.placeOf 0 0 = some 0 ∧ streaming.elem.egress.length < 16
         ∧ c.handed.get 0 0 + 1 ≤ dealt (b.runs * b.granules) b.places 0 ∧ c.handed.get 0 0 + (streaming.buffer 1).cnt ≤ dealt (b.runs * b.granules) b.places 0
         ∧ streaming.mayUse 1 = true ∧ (streaming.buffer 1).void = false ∧ (streaming.buffer 1).st = 2) := by decide +kernel

/-- R232: RT of lv 3 to the east and of the constant source north at the edge; R240: VMOV, SMOV; R243: CNT. -/
theorem test_moves : queued (.vmov { bd with vr := 9, n := 1 }) element (fun w => laneIs 16 3 5 true w) = true
    ∧ queued (.smov { bd with sb := 6, vr := 7, n := 2 }) element (· == .s 6 0x3F800000) = true
    ∧ gives (exec (.cntSel { bd with b := 1, n := 9 }) element) (fun t => t.elem.counters.get Counter.zero 1 == ⟨0, 9⟩) = true := by decide +kernel
theorem test_route : gives (exec (.rt { bt with s := 0x53, lv := 1 }) element)
    (fun t => t.elem.delay.any fun r => r.out == .south && r.leaves == 4 && r.word == 3 && laneOf r.value.data 0 16 == 5) = true := by decide +kernel

/-- R63: a landed result claims a stale register with zeros. -/
theorem test_land : laneOf (((elem.land 2 (.v 1 (splat 8 1) 0xFF 13 false)).v.get VReg.zero 1).data) 1 8 = 0 := by decide +kernel

theorem witness_ElementInstructionsTouchOneElement :
    (∃ b, encode (.vadd { av with vd := 3, va := 1, vb := 2, ty := 14 }) = some (SlotMap.fabricA, b))
    ∧ gives (exec (.vadd { av with vd := 3, va := 1, vb := 2, ty := 14 }) element) (fun t => !t.focus.suppressed) = true := by
  refine ⟨⟨_, rfl⟩, ?_⟩
  decide +kernel

/-! ### Events -/

/-- A launch whose words run, over mapped memory. -/
def running : State := mapped (State.reset.withLaunch Spine.zero)

/-- The same with an element whose result is due at T = 0, a VOTE whose result is due, a value on its way south, and hold asserted for twelve cycles. -/
def eventful : State :=
  let s := running.setElement 0 0 { elem with
    pending := [⟨0, 0, false, 1, .s 9 7⟩], delay := [⟨.south, 0, 0, 1, ⟨splat 8 1, 13, false, false⟩⟩]
    matrix := [inUnit (.mtrn am) 0 0 0] }
  s.setSig 1 { s.sig 1 with votes := [⟨0, 0, 2, 256, 3, 0⟩], asserted := List.replicate 12 true }

theorem witness_FabricEvents :
    (running.runs 1 = true ∧ (running.sig 1).status = .running ∧ passes (running.translatePages (some 0) 0 0 [.x]) (fun pa => !running.poisonedUnits.contains (pa / 64)) = true
      ∧ passes (running.worldMaterial 0) (fun _ => true) = true)
    ∧ (eventful.runs 1 = true ∧ (eventful.elementOf 1 0 0).pending = [⟨0, 0, false, 1, .s 9 7⟩] ∧ 0 ≤ (eventful.sig 1).time)
    ∧ ((eventful.sig 1).votes = [⟨0, 0, 2, 256, 3, 0⟩]) ∧ (eventful.elementOf 1 0 0).delay.length = 1 ∧ (eventful.sig 1).asserted[11]? = some true
    ∧ (running.sig 1).asserted[11]? ≠ some true
    ∧ (fiveThree.runs 1 = true ∧ (fiveThree.spineOf 1).phase = .slotA ∧ (fiveThree.spineOf 1).resumeAt ≤ fiveThree.cycle)
    ∧ (let s := mapped (onSpine { Spine.zero with poll := some 0x100008, waiting := true })
       s.runs 1 = true ∧ (s.spineOf 1).poll = some 0x100008 ∧ (s.spineOf 1).waiting = true ∧ (s.spineOf 1).answer = none ∧ s.reading 1 = false
         ∧ s.focus.sig = 1 ∧ passes (s.translatePages (some (dieOf 0 0)) 0 0x100008 [.rd]) (· == 0x100100008) = true ∧ (s.iface 0).worldKey.isSome = true) := by
  decide +kernel

/-- R223: three ones of a counting VOTE reach vt; R201: the due result lands. -/
theorem test_vote : gives (exec (.voteResultDelivered 1) eventful) (fun t => (t.spineOf 1).vt == 3) = true := by decide +kernel
theorem test_land_due : gives (exec (.resultLands 1 0 0) eventful)
    (fun t => (t.elementOf 1 0 0).s.get (Tagged.zero 32) 9 == ⟨7, 1, false⟩ && (t.elementOf 1 0 0).pending == []) = true := by decide +kernel
theorem test_route_lands : gives (exec (.routeValueLands 1 0 0) eventful)
    (fun t => (t.elementOf 1 1 0).ports.any fun a => a.side == .north && a.word == 1) = true := by decide +kernel

/-- A request of the spine for the unit at 1 MiB, in a stage. -/
def req (op : ReqOp) (stage : ReqStage) : Request :=
  { id := 1, source := .spine 1, vif := 0, va := 0x100008, sealVa := 0x100008, scale := false, pa := 0x100100008, key := .world, op, stage
    data := 0, bad := false, entered := 0, die := 0, code := 0, time := 0 }
def asking (r : Request) : State := { running with requests := [r], keySlots := [(1, { KeySlot.free with live := true, sgen := 5 })] }

theorem witness_RequestsAndHomes :
    (let r := req .read .translate
     (asking r).request 1 = some r ∧ ((asking r).material 0 .world).isSome = true ∧ r.va.extractLsb' 56 8 = 0 ∧ (asking r).tlbHit 0 0 r.va.toNat = none
       ∧ passes ((asking r).walk 0 r.va.toNat) (fun l => passes ((asking r).checkLeaf l r.va.toNat [.rd]) (fun _ => true)) = true
       ∧ belowDomain (some (0, 0)) (r.va.toNat / 64) = false)
    ∧ (let r := { req .read .key with key := .slot 1 5 false }
       ((asking r).material 0 r.key).isSome = true ∧ false ∉ ((asking r).keySlot 1).broken)
    ∧ (let r := req (.atomic 0 true 1 0) .travel
       (asking r).forkHeld r = false ∧ (∀ a ∈ (asking r).requests, a.blocks r = false) ∧ r.pa / 64 ∉ (asking r).poisonedUnits
         ∧ (asking r).memory.wf = true ∧ r.va.toNat % 64 % 8 = 0)
    ∧ (asking (req .read .reply)).request 1 = some (req .read .reply) ∧ (∀ e ∈ (running.spineOf 1).readAhead, e.unit ≠ 0x4000) := by
  decide +kernel

theorem witness_InvalidationAndExpiry :
    ({ running with tlbinv := some [3] }).tlbinv = some [3] ∧ ∀ i ∈ [3], running.request i = none := by decide +kernel

/-- R73: an invalidation of a page drops its entry. -/
theorem test_tlbinv : gives (exec (.tlbinvPage 0 0x100000) { running with tlb := [⟨0, 0, 16, 0, 0x3F⟩, ⟨0, 0, 17, 0, 0x3F⟩] })
    (fun t => t.tlb == [⟨0, 0, 17, 0, 0x3F⟩]) = true := by decide +kernel

/-- The load of `streamBlock` on handle 0 at its beginning, with its unit there, and with all of it landed; the buffer b0 is declared. -/
def loadCtx : Ctx := { Ctx.free with kind := .stream, block := streamBlock, range := block [0x100000, 0x120000, 0x110000, 0, 0x97], addressing := 9, gen := 1 }
def loadedBy (c : Ctx) : State :=
  let s := running.setElement 0 0 { elem with
    b := (0, ⟨({ base := 12, cnt := 1, st := 0, fcnt := 0, void := false, fmt := 0, scaled := false } : BufferDesc).toWord, 1, false⟩) :: elem.b }
  s.setSig 1 { s.sig 1 with ctxs := [(0, c)] }

theorem witness_Streams_load :
    (let s := loadedBy loadCtx
     s.portsIssue 1 = true ∧ s.portLoad 1 0 < 256 ∧ s.reissues 1 0 = false ∧ (s.ctx 1 0).kind = .stream
       ∧ (match ((s.ctx 1 0).piecesOf 0)[0]? with
          | some p => passes ((s.ctx 1 0).rangeEntry.check ((s.ctx 1 0).programVa 0 p) p.scale .rd) (fun _ => true)
              && passes (s.checkPhysical ((s.ctx 1 0).rangeEntry.linear p.va)) (· == 0x110000)
          | none => false) = true
       ∧ (s.material 0 .world).isSome = true)
    ∧ (let c := { loadCtx with run := 1, units := [(pieceTag 0 0, splat 32 7)] }
       let s := loadedBy c
       (s.ctx 1 0).nextReady 0 = true ∧ (s.ctx 1 0).lanes = [0] ∧ (s.ctx 1 0).nextLost 0 = false ∧ (s.ctx 1 0).stale = [] ∧ (s.folioOf 1 0 0).gen = 1
         ∧ (s.busHalves 1 0 0).1 < 4 ∧ (s.busHalves 1 0 0).2.2 = 0 ∧ (s.ctx 1 0).gen = s.genOf 1 ∧ (s.ctx 1 0).elementAt 1 0 0 = (0, 0) ∧ (s.ctx 1 0).target 0 = (0, 9, false))
    ∧ (let c := { loadCtx with voids := [0] }
       (loadedBy c).ctx 1 0 = c ∧ c.voids = [0])
    ∧ (let c := { loadCtx with run := 1, landed := [(0, 2)] }
       (loadedBy c).streamDone 1 0 = true ∧ (loadedBy c).forkOpen 1 c.fork = false) := by decide +kernel

/-- R60, R82: the first half of the granule lands in the lower 32 bytes of granule 12, and the buffer is FILLING. -/
theorem test_fill :
    (match (loadedBy { loadCtx with run := 1, units := [(pieceTag 0 0, splat 32 7)] }).landHalf 1 0 0 with
     | some t =>
       let e := t.elementOf 1 0 0
       let x := (e.pad.get (Tagged.zero 512) 12).data
       laneOf x 7 32 == 7 && laneOf x 8 32 == 0 && (BufferDesc.ofWord (e.b.get (Tagged.zero 64) 0).data).st == 1
     | none => false) = true := by decide +kernel

/-- The egress stream of `streaming`, with a vector and a granule of b1 in the queue of its element. -/
theorem witness_Streams_egress :
    (let s := streaming.withElem { streaming.elem with egress := [⟨2, .vector 5⟩, ⟨2, .buffer ⟨1, 4, 2, 1, 0⟩⟩] }
     (s.elementOf 1 0 0).egress = [⟨2, .vector 5⟩, ⟨2, .buffer ⟨1, 4, 2, 1, 0⟩⟩] ∧ (Block.ofVec (s.ctx 1 2).block).placeOf 0 0 = some 0 ∧ 2 = ctxKey 1 0 0 2
       ∧ ((s.elementOf 1 0 0).pad.get (Tagged.zero 512) 4).gen = (s.folioOf 1 0 0).gen
       ∧ (1 : Gen) = (s.folioOf 1 0 0).gen ∧ ((s.elementOf 1 0 0).b.get (Tagged.zero 64) 1).gen = (s.folioOf 1 0 0).gen
       ∧ (s.busHalves 1 2 0).2.1 < 4 ∧ (s.busHalves 1 2 0).2.2 = 0) := by decide +kernel

/-- The same in mode T, whose next granule of b1 is stale. -/
theorem witness_Streams_stale :
    (let s := streaming.setSig 1 { streaming.sig 1 with record := 1#512 <<< 404 }
     let g := s.sig 1
     let e := s.elementOf 1 0 0
     let gen := (s.folioOf 1 0 0).gen
     (g.status = .running ∧ g.byFault = false) ∧ g.gmode = true ∧ (e.pad.get (Tagged.zero 512) (4 + 1)).gen ≠ gen ∧ g.frozen = false ∧ g.stop = none
       ∧ (e.b.get (Tagged.zero 64) 1).gen = gen ∧ BufferDesc.ofWord (e.b.get (Tagged.zero 64) 1).data =
         { base := 4, cnt := 2, st := 2, fcnt := 2, void := false, fmt := 9, scaled := false }) := by decide +kernel

/-- R352, R373: a stale granule stays in the queue; once the stop is over it goes with zeros, and the buffer is EMPTY. -/
theorem test_egress_stale :
    gives (exec (.egressGranuleTaken 1 0 0)
      ((streaming.setSig 1 { streaming.sig 1 with record := 1#512 <<< 404 }).withElem { streaming.elem with egress := [⟨2, .buffer ⟨1, 4, 2, 1, 1⟩⟩] }))
      (fun t => t.elem.egress == [⟨2, .stopped ⟨1, 4, 2, 1, 1⟩⟩] && (t.sig 1).stop.isSome) = true
    ∧ gives (exec (.egressGranuleTaken 1 0 0) (streaming.withElem { streaming.elem with egress := [⟨2, .stopped ⟨1, 4, 2, 1, 1⟩⟩] }))
      (fun t => t.elem.egress == [] && Tab.look (t.ctx 1 2).out 0 == some 0 && (t.buffer 1).st == 0) = true := by decide +kernel

/-- R242: a vector leaves the egress queue. -/
theorem test_egress : gives (exec (.egressGranuleTaken 1 0 0) (streaming.withElem { streaming.elem with egress := [⟨2, .vector 5⟩, ⟨2, .buffer ⟨1, 4, 2, 1, 0⟩⟩] }))
    (fun t => t.elem.egress == [⟨2, .buffer ⟨1, 4, 2, 1, 0⟩⟩] && Tab.look (t.ctx 1 2).out 0 == some 5) = true := by decide +kernel

/-- The copy of `copyBlock` on handle 0, at its beginning, with all its units read, and done. -/
def copying (c : Ctx) : State := running.setSig 1 { running.sig 1 with ctxs := [(0, { c with kind := .copy, block := copyBlock })] }
/-- A copy of the DMA port of two units of interface 0 under its world key. -/
def dmaOf (read written : Nat) (units : List Vec) : State := { running with dma := [⟨1, 0, copyBlock, true, units, read, written, none, []⟩] }

theorem witness_Copies :
    (let s := copying Ctx.free
     let c := s.ctx 1 0
     c.kind = .copy ∧ s.portsIssue 1 = true ∧ c.hold = none ∧ s.portLoad 1 c.port < 256 ∧ s.forkOpen 1 c.fork = false
       ∧ c.run = c.unit ∧ c.unit < copyUnits c.block ∧ passes (s.copyRead 0 0 (copyVa c.block 0 c.run) (blockWord c.block 4)) (fun _ => true) = true)
    ∧ (let s := copying { Ctx.free with run := 2, units := [(0, 5), (1, 6)] }
       let c := s.ctx 1 0
       c.run = copyUnits c.block ∧ Tab.look c.units c.unit = some 5
         ∧ passes (s.copyWrite 0 0 (copyVa c.block 1 c.unit) (blockWord c.block 5) 5) (fun _ => true) = true)
    ∧ (copying { Ctx.free with run := 2, unit := 2 }).ctx 1 0 = { Ctx.free with kind := .copy, block := copyBlock, run := 2, unit := 2 }
    ∧ (let s := dmaOf 0 0 []
       let d : DmaCopy := ⟨1, 0, copyBlock, true, [], 0, 0, none, []⟩
       s.dma.find? (·.id = d.id) = some d ∧ d.running = true ∧ d.hold = none ∧ s.debugger.stopped = false ∧ (s.iface (dmaSides 0 copyBlock).1).armed = false
         ∧ (s.iface (dmaSides 0 copyBlock).2).armed = false ∧ dmaImage copyBlock = false
         ∧ passes (s.copyRead 0 (dmaSides 0 copyBlock).1 (copyVa copyBlock 0 0) (blockWord copyBlock 4)) (fun _ => true) = true)
    ∧ (running.serving = true ∧ running.dmaRefused false 0 copyBlock = none ∧ (running.dma.filter (·.running)).length < 8)
    ∧ (running.dmaRefused true 0 (copyBlock ||| BitVec.ofNat 512 (2 ^ 398))).isSome = true := by decide +kernel

/-- A signature with a wave that is due, a fault stop that is due, one that lifts now, a sweep, and a seam. -/
def freezing (g : Sig → Sig) (p : Spine) : State :=
  let s := mapped (State.reset.withLaunch p)
  s.setSig 1 (g (s.sig 1))

def noted : FaultNote := { code := 0x10, aux := 0, addr := 0, slot := 1, offset := 0, row := 0, col := 0, time := 0, more := 0, seen := 0 }

theorem witness_FreezesAndSeams :
    (let s := freezing (fun g => { g with waves := [⟨.preempt, 0, false, false⟩] }) Spine.zero
     (s.sig 1).waves = [⟨.preempt, 0, false, false⟩] ∧ 0 ≤ s.cycle ∧ s.advancing 1 = false ∧ s.controllerOwes 1 = false)
    ∧ (let s := freezing (fun g => { g with stop := some ⟨0, [noted], false, none⟩ }) Spine.zero
       let s := s.setIface 0 { s.iface 0 with farea := 0x100004 }
       (s.sig 1).stop = some ⟨0, [noted], false, none⟩ ∧ s.advancing 1 = false ∧ (s.recordFault 0 (noted.info 1 2)).2.isSome = true)
    ∧ (let s := freezing (fun g => { g with stop := some ⟨0, [], true, some 0⟩ }) Spine.zero
       (s.sig 1).stop = some ⟨0, [], true, some 0⟩ ∧ 0 ≤ s.cycle)
    ∧ (let s := freezing (fun g => { g with status := .starting, sweep := 2 }) Spine.zero
       (s.sig 1).status = .starting ∧ 1 < (s.sig 1).sweep)
    ∧ (let s := freezing id { Spine.zero with phase := .seam 0 1 }
       (s.sig 1).status = .running ∧ s.runs 1 = true ∧ (s.spineOf 1).phase = .seam 0 (0 + 1)) := by decide +kernel

/-- A drained seam with a request pending. -/
def seamed (r : SeamRequest) : State :=
  let s := State.reset.withLaunch { Spine.zero with phase := .seam 0 0, seamRequest := some r }
  let s := s.setSig 1 { s.sig 1 with time := 46 }
  s.setFolio 0 0 { s.folio 0 0 with planes := (s.folio 0 0).planes ++ [(1, { Plane.invalid with state := .ready, owner := some 0, cfg := 3 })] }

theorem witness_FreezesAndSeams_seam :
    (seamed .genadv).seamReady 1 = true ∧ ((seamed .genadv).sig 1).row0 + ((seamed .genadv).sig 1).ht ≤ 12 ∧ ((seamed .genadv).sig 1).col0 + ((seamed .genadv).sig 1).wd ≤ 24
    ∧ ((seamed (.plsw 3)).seamReady 1 = true ∧ (∀ rc ∈ ((seamed (.plsw 3)).sig 1).folios, (((seamed (.plsw 3)).folio rc.1 rc.2).planes.map (·.1)).Nodup)
      ∧ ∀ rc ∈ ((seamed (.plsw 3)).sig 1).folios, (((seamed (.plsw 3)).folio rc.1 rc.2).planeWith 0 ((seamed (.plsw 3)).sig 1).code 3 [.ready, .active]).isSome = true) := by
  decide +kernel

/-- R61, R188: at the seam the generation goes from 1 to 2. -/
theorem test_genadv : gives (exec (.seamGenerationAdvance 1) (seamed .genadv)) (fun t => (t.folio 0 0).gen == 2) = true := by decide +kernel

/-- A launch record of one folio of image 0x1000, which is registered, and the queue it waits in. -/
def recordOf (cwait : Nat) : Vec := block [0x1000, 0, 0, cwait, 5, 0, 1 ||| 1 <<< 4, 0]
def enqueued (q : Queued) : State := { running with ifaces := [(2, { Iface.zero with
  worldKey := some 0, queue := [q], images := [{ code := 0x1000, clen := 64, cfg := 0x2000, shape := 0x010101, digest := 0, registered := true }] })] }
def waitingRecord (cwait : Nat) : Queued := ⟨recordOf cwait, 0, false, 0, 0, 0, some 0, true, none⟩

theorem witness_QueuesAndPlacement :
    (let s := enqueued (waitingRecord 0x100008)
     s.serving = true ∧ s.recordRefused 2 (recordOf 0) = none ∧ recordGang (recordOf 0) = 0 ∧ s.recordRefused 2 0 = some 1
       ∧ (s.iface 2).queue = [waitingRecord 0x100008] ∧ recordWord (waitingRecord 0x100008).record 3 ≠ 0)
    ∧ (let s := { enqueued (waitingRecord 0) with cycle := 2 ^ 24, folios := (List.range 288).map fun k => (k, { Folio.zero with placed := 2 }) }
       (s.markCandidate 2).candidate 2 = some (waitingRecord 0) ∧ (waitingRecord 0).candidateSince = some 0 ∧ 0 + 2 ^ 24 ≤ s.cycle
         ∧ (s.markCandidate 2).placeGroup 2 (waitingRecord 0) = none)
    ∧ (let s := enqueued (waitingRecord 0)
       s.binderyRuns = true ∧ s.markCandidates.startAll.blockingRecord = none ∧ (s.markCandidates.startAll.pollCwait 0).candidate 0 = none
         ∧ ((s.markCandidates.startAll.pollCwait 2).candidate 2).isSome = true ∧ s.markCandidates.startAll.partlySaved = false)
    ∧ (let gang (status : SigStatus) : Sig := { Sig.unused with status, gang := 5, waves := [⟨.preempt, 0, true, false⟩] }
       let s := { running with sigs := [(1, gang .saved), (2, gang .running)] }
       s.binderyRuns = true ∧ s.markCandidates.startAll.partlySaved = true)
    ∧ (let s := enqueued (waitingRecord 0)
       let fits (k : Nat) : Bool := s.inPartition 2 (k / 24) (k % 24) 1 1 && (rectangle (k / 24) (k % 24) 1 1).all s.freeFolio
       (waitingRecord 0).saved = none ∧ s.reservedFor 2 1 1 = none ∧ fits 1 = true ∧ ∀ k < 1, fits k = false) := by decide +kernel

/-- R34: the launch of one folio is placed beside the one that runs at the corner. -/
theorem test_place : (((enqueued (waitingRecord 0)).placeOne 2 1 (waitingRecord 0)).map fun t => ((t.sig 2).row0, (t.sig 2).col0, (t.folio 0 1).placed))
    = some (0, 1, 3) := by decide +kernel

/-- A pre-empted signature whose wave is in force; one that has ended and drained; one that is restored. -/
def preempted : State :=
  running.setSig 1 { running.sig 1 with waves := [⟨.preempt, 0, true, false⟩] }
def ended (byFault : Bool) : State :=
  let s := State.reset.withLaunch { Spine.zero with phase := .ended }
  s.setSig 1 { s.sig 1 with status := .draining, ending := !byFault, byFault, record := recordOf 0, time := 100 }

/-- Folio (0,0) with a plane that loads; the signature's launch waits for it, and for as many folios beside it; or a CFGLD does. -/
def withPlanes (g : Sig → Sig) (planes : List (Nat × Plane)) : State :=
  let s := running.setSig 1 (g (running.sig 1))
  s.setFolio 0 0 { s.folio 0 0 with planes }
def loads (cfg : Nat) : Plane := { Plane.invalid with state := .loading, owner := some 0, cfg, source := 0x100000 }
def awaitingLoad (wd : Nat) : State :=
  (withPlanes (fun g => { g with status := .starting, wd }) [(0, loads 0)]).setFolio 0 1 { Folio.zero with placed := 2, planes := [(0, loads 0)] }
def awaitingCfg : State :=
  withPlanes (fun g => { g with ctxs := [(0, { Ctx.free with kind := .cfgld, unit := 3, index := [(0, 1)] })] }) [(1, loads 3)]
def awaitingPower : State :=
  let s := (withPlanes (fun g => { g with status := .starting }) []).setIface 0 { running.iface 0 with
    images := [{ code := 0, clen := 64, cfg := 0x2000, shape := 0x010101, digest := 0, registered := true }] }
  s.setFolio 0 0 { s.folio 0 0 with gated := true, ungated := some 0 }

theorem witness_LaunchesAndPlanes_loads :
    (∀ s ∈ [awaitingLoad 1, awaitingLoad 2], (s.folio 0 0).placed = 2 ∧ (s.sig 1).status = .starting ∧ (s.sig 1).image = [] ∧ (s.sig 1).gang = 0
      ∧ (s.sig 1).byFault = false ∧ s.serving = true ∧ s.platform.moving = false ∧ s.debugger.stopped = false ∧ (s.sig 1).ctxs = []
      ∧ (0, 0) ∈ (s.sig 1).folios ∧ (s.sig 1).col0 + (s.sig 1).wd ≤ 24 ∧ s.loadForked (s.folio 0 0) (loads 0) = false ∧ s.journal.txs = []
      ∧ passes (s.readUnit 0 0x100000) (fun _ => true) = true ∧ (s.sig 1).advance = false ∧ (s.sig 1).sweep = 0)
    ∧ (∀ wd ∈ [1, 2], let u := (awaitingLoad wd).setFolio 0 0 { (awaitingLoad wd).folio 0 0 with planes := [(0, { loads 0 with state := .ready, roles := 0 })] }
       (∀ k < wd, u.loadBegun 1 0 k = true) ∧ u.startReady 1 = (wd == 1))
    ∧ ((awaitingCfg.sig 1).status = .running ∧ awaitingCfg.loadForked (awaitingCfg.folio 0 0) (loads 3) = false
      ∧ ∀ k < (awaitingCfg.sig 1).ht * (awaitingCfg.sig 1).wd, Tab.get 0 [(0, 1)] k = 1)
    ∧ ((awaitingPower.folio 0 0).ungated = some 0 ∧ (awaitingPower.folio 0 0).planes = [] ∧ (awaitingPower.imageOf 1).isSome = true
      ∧ (awaitingPower.sig 1).status = .starting ∧ (awaitingPower.sig 1).place 0 = (0, 0)) := by decide +kernel

/-- R36: the load that a launch waited for ends, and the launch begins; R386: it fails, and the record waits again at the head of its queue. -/
theorem test_loadBegins : gives (exec (.planeLoadComplete 0 0) (awaitingLoad 1)) (fun t => (t.sig 1).status == .running) = true
    ∧ gives (exec (.planeLoadError 0 0) (awaitingLoad 1)) (fun t => (t.folio 0 0).placed == 0 && (t.iface 0).queue.length == 1) = true := by decide +kernel

theorem witness_LaunchesAndPlanes :
    (preempted.binderyRuns = true ∧ (preempted.sig 1).waves = [⟨.preempt, 0, true, false⟩] ∧ (preempted.sig 1).status = .running ∧ preempted.requestsGo 1 = false
      ∧ preempted.releaseOpen 1 = false ∧ preempted.pendingMove 1 = none ∧ preempted.atSeamWord 1 = false ∧ (preempted.sig 1).gang = 0
      ∧ preempted.inQueue 1 = false ∧ ((preempted.saveImage 1).blockingRecord.or ((preempted.saveImage 1).causeRecord [1])).isNone = true)
    ∧ (let s := running.setSig 1 { running.sig 1 with status := .starting, image := [(0, ⟨[], 0, 0, [], []⟩)] }
       let s := s.setFolio 0 0 { s.folio 0 0 with planes := [(0, { Plane.invalid with state := .ready, owner := some 0 })] }
       (s.sig 1).image ≠ [] ∧ s.serving = true ∧ (s.sig 1).byFault = false ∧ s.platform.moving = false ∧ s.gangReady 1 = true ∧ (s.sig 1).sweep = 0 ∧ s.wraps 1 = false
         ∧ s.pendingMove 1 = none ∧ s.acquiredGo 1 = false)
    ∧ ((ended false).wordsDone 1 = true ∧ (ended false).landed 1 = true ∧ ((ended false).sig 1).ending = true ∧ ((ended false).sig 1).frozen = false ∧ (ended false).debugger.stopped = false
      ∧ (ended false).earlierStores 1 = [])
    ∧ (((ended true).sig 1).byFault = true ∧ (ended true).wordsDone 1 = true ∧ (ended true).landed 1 = true ∧ (ended true).requestsGo 1 = false)
    ∧ (let s := (ended true).setSig 1 { (ended true).sig 1 with status := .saved }
       (s.sig 1).status = .saved ∧ (s.sig 1).byFault = true ∧ ∀ x ∈ (s.sig 1).ctxs, x.2.kind ≠ .coll)
    ∧ (((running.setIface 0 { running.iface 0 with irqEnds := some 0 }).iface 0).irqEnds = some 0)
    ∧ (let s := (running.setFolio 1 1 { Folio.zero with planes := [(2, { Plane.invalid with state := .loading, owner := some 0, source := 0x100000 })] })
       (s.folio 1 1).placed = 0 ∧ ((s.folio 1 1).plane 2).state = .loading ∧ passes (s.readUnit 0 0x100000) (fun _ => true) = true)
    ∧ (let s := { running with platform := { running.platform with pgate := true } }.setFolio 1 1 { Folio.zero with idleFor := 2 ^ 24 }
       s.platform.pgate = true ∧ (s.folio 1 1).gated = false ∧ (s.folio 1 1).placed = 0 ∧ s.journalHolds 25 = false ∧ 2 ^ 24 ≤ (s.folio 1 1).idleFor
         ∧ (s.folio 1 1).staging.records = [])
    ∧ ((running.setFolio 1 1 { Folio.zero with gated := true, ungated := some 0 }).folio 1 1).ungated = some 0 := by decide +kernel

/-- R37: a launch that has drained leaves its folio idle. -/
theorem test_complete : gives (exec (.launchComplete 1) (ended false)) (fun t => (t.folio 0 0).placed == 0 && t.sig 1 == Sig.unused) = true := by decide +kernel

/-! ### Collectives, request blocks, registers -/

/-- A group of two ranks, and a step of 16 FP32 elements of it with rank 1 under way: a send (op 0), a receive (op 1) or a reduce. -/
def pair_ : Group :=
  { vif := 0, grp := 7, ggen := 3, rank := 0, members := [⟨0, 0, 0⟩, ⟨1, 2, 0⟩], timeout := 1000, key := 0, counter := 5, steps := 2, sends := [], receives := []
    grants := [], ended := [], discarded := 0, spent := [(2, 9)] }
def stepOf (op : Nat) (started : Bool) : CollStep :=
  { id := 1, sig := 1, ctx := 0, vif := 0, die := 0, block := block [0x100000, 0, 0, 16 + op * 2 ^ 32 + 2 ^ 40, 7 + 3 * 2 ^ 32, 2 ^ 48], mode := 9
    number := 0, pairIndex := 0, started, port := none, allowance := 0, nextFrame := 0, finished := [], sent := [], lastFrame := 0 }
def collective (c : CollStep) (oscillator : Nat) : State :=
  { running with
    groups := [pair_], colls := [c], platform := { running.platform with ethUp := 1 }, clock := { running.clock with oscillator } }

/-- A frame that its sender tagged under the group's key. -/
def tagged (f : Frame) : Frame := { f with tag := frameTag f 0 }
def frame (kind : FrameKind) (step index : Nat) (bytes : List Byte) : Frame :=
  tagged { kind, port := 0, address := 0, mac := 0, grp := 7, ggen := 3, sender := 1, dest := 0, counter := 1, step, index, count := 16, dt := 0, bytes, tag := 0, fcs := true }

theorem tagged_tag (f : Frame) : (tagged f).tag = frameTag (tagged f) 0 := rfl

theorem witness_CollectiveSteps :
    (let c := stepOf 1 false
     let s := collective c 0
     s.coll c.id = some c ∧ s.group c.vif c.grp = some pair_ ∧ (∀ x ∈ s.groups, x.grp = c.grp → x = pair_) ∧ pair_.counter + 1 < 2 ^ 48
       ∧ pair_.members[c.peer]? = some ⟨1, 2, 0⟩ ∧ s.portFor c = true ∧ s.debugger.stopped = false ∧ c.started = false ∧ s.forkOpen c.sig (s.ctx c.sig c.ctx).fork = false ∧ s.stepWaits c = false ∧ c.count ≠ 0 ∧ pair_.ggen = c.ggen
       ∧ s.keyValid c.vif (keyFields c.lkey).1 (keyFields c.lkey).2.1 (keyFields c.lkey).2.2 = true)
    ∧ ((stepOf 0 false).op = 0 ∧ ({ stepOf 0 false with block := 0 }).count = 0)
    ∧ (let c := stepOf 0 true
       let s := collective c 0
       (frame .grant 0 1 []).fcs = true ∧ (frame .grant 0 1 []).port = s.platform.udpPort ∧ s.stepFor pair_ (frame .grant 0 1 []) true = some c ∧ c.matches (frame .grant 0 1 []) = true ∧ (frame .grant 0 1 []).dest.toNat = pair_.rank
         ∧ max c.allowance 1 = c.nextFrame + 1 ∧ c.nextFrame < c.frames ∧ passes (s.localRead c 0 64) (fun _ => true) = true)
    ∧ (let c := { stepOf 0 true with sent := [⟨frame .data 0 0 [], 0⟩], nextFrame := 1 }
       (c.sent.any fun x => x.frame.index == (frame .ack 0 0 []).index) = true ∧ c.finished.length + 1 = c.frames
         ∧ 0 + 20 * 2500 ≤ (collective c 50000).clock.oscillator ∧ ∀ i < c.nextFrame, i ∈ c.finished ∨ i = 0)
    ∧ (collective (stepOf 1 true) 0).stepFor pair_ (frame .grant 0 1 []) true = none
    ∧ (let c := stepOf 1 true
       let s := collective c 0
       let f := frame .data 0 0 (List.replicate 64 0)
       s.stepFor pair_ f false = some c ∧ c.matches f = true ∧ f.index < c.frames ∧ f.bytes.length = c.elements f.index * c.size ∧ f.index ∉ c.finished
         ∧ passes (s.localRead c 0 64) (fun _ => true) = true ∧ passes (s.localWrite c 0 64 0) (fun _ => true) = true)
    ∧ (stepOf 1 true).lastFrame + 2500 * pair_.timeout ≤ (collective (stepOf 1 true) 2500000).clock.oscillator := by decide +kernel

/-- R314: a receive that starts grants its peer the one frame of its 16 elements. -/
theorem test_grant : gives (exec (.collStepStart 1) (collective (stepOf 1 false) 0))
    (fun t => (t.sentFrames.map fun f => (f.kind, f.index, f.dest)) == [(.grant, 1, 1)] && (t.coll 1).map (·.started) == some true) = true := by
  decide +kernel

/-- The end of a wall cycle in which signature 1 was held by a wait condition, in region 7. -/
def clocked : Clocked := { sig := 1, moves := false, held := true, starts := false, sweeps := false, frozen := true, measured := true, region := 7 }
def ending : State := { running with agenda := [.endCycle], clocked := [clocked] }

/-- R25, R39, R40: the cycle counts as HELD, in the folio, in the hold counter and in the region; the other folios count it as IDLE. -/
theorem test_endCycle : gives (step ending)
    (fun t => (t.folio 0 0).held == 1 && (t.folio 0 0).busy == 0 && (t.folio 0 0).idle == 0 && (t.folio 0 1).idle == 1 && (t.sig 1).hold == 1
      && ((t.sig 1).regions.get RegionCount.zero 7).held == 1 && (t.sig 1).time == (ending.sig 1).time) = true := by decide +kernel

theorem witness_TimeAndTrace :
    (running.platform.ptpPort = 0 ∧ ({ running.clock with correctable := true }).correctable = true ∧ running.clock.correctable = false)
    ∧ (let s := { running with agenda := [.startSig 1] }
       s.agenda = [.startSig 1] ∧ (s.sig 1).status ≠ .saved ∧ (s.spineAnywhere 1).phase = .fetch)
    ∧ ((running.setIface 0 { running.iface 0 with credit := 0, share := 2 ^ 31 }).iface 0).credit
      + (running.setIface 0 { running.iface 0 with credit := 0, share := 2 ^ 31 }).shareOf 0 < 2 ^ 32
    ∧ (ending.agenda = [.endCycle] ∧ (ending.folio 0 0).placed = 1 + 1 ∧ (ending.folio 3 0).placed = 0 ∧ (ending.clocked.map (·.sig)).Nodup
      ∧ (∀ y ∈ ending.clocked, y.sig = 1 → y = clocked) ∧ (ending.sig 1).status = .running ∧ (ending.sig 1).regions.length < 64)
    ∧ (let regions : Tab RegionCount := (List.range 64).map fun k => (k, ⟨1, 0, k⟩)
       regions.length = 64 ∧ (regions.map (·.1)).Nodup ∧ 0 ∈ regions.map (·.1) ∧ 99 ∉ regions.map (·.1) ∧ (1, ⟨1, 0, 1⟩) ∈ regions
         ∧ ∀ y ∈ regions, y.1 ≠ 0 → y ≠ (1, ⟨1, 0, 1⟩) → 1 < y.2.lastUse)
    ∧ ((collective (stepOf 0 false) 0).platform.ptpPort = 0 ∧ (collective (stepOf 0 false) 0).platform.ethUp.getLsbD 0 = true)
    ∧ (let s := running.setFolio 0 0 { running.folio 0 0 with staging := ⟨[5], 1, none⟩ }
       (∀ j < 32, j ≠ 0 → (s.folio (dieFolio 0 j).1 (dieFolio 0 j).2).staging.records = []) ∧ dieFolio 0 0 = (0, 0)
         ∧ (s.dieBuffers.get DieBuffer.zero 0).area.records.length + 64 ≤ 131072)
    ∧ (let s := { running with dieBuffers := [(0, ⟨⟨[5], 1, none⟩, 0⟩)] }
       s.keysServed = true ∧ (s.dieBuffers.get DieBuffer.zero 0).area.records = [5] ∧ (s.platform.tringWrite - s.platform.tringRead).toNat ≠ 2 ^ 23) := by
  decide +kernel

/-- R318: the record reaches the ring. -/
theorem test_ring : gives (exec (.traceRingCopy 0) { running with dieBuffers := [(0, ⟨⟨[5], 1, none⟩, 0⟩)] })
    (fun t => t.platform.tringWrite == 1 && t.platform.ring.get 0 0 == 5) = true := by decide +kernel

theorem witness_RegisterAccess :
    running.serving = true ∧ 0 < 64 ∧ 1500 ≤ (1500 : Word).toNat ∧ (1499 : Word).toNat < 1500 ∧ 7200 < (7201 : Word).toNat
    ∧ (running.platform.tringWrite - running.platform.tringRead < (1 : BitVec 32) - running.platform.tringRead)
    ∧ ((0 : BitVec 32) - running.platform.tringRead ≤ running.platform.tringWrite - running.platform.tringRead)
    ∧ (let s := { State.reset with platform := { State.reset.platform with service := 2 } }
       s.platform.service = 2 ∧ s.platform.ecarveWritten = false ∧ ecarveValid 0 = false ∧ ecarveValid 0x0100000000000000 = true
         ∧ 1 ≤ ((0x0100000000000000 : Word).extractLsb' 56 8).toNat ∧ ((0x0100000000000000 : Word).extractLsb' 56 8).toNat ≤ 64)
    ∧ (((1 <<< 56 : Word).extractLsb' 56 8).toNat = 1 ∧ ((65 <<< 56 : Word).extractLsb' 56 8).toNat = 65) := by
  decide +kernel

/-- R304: ICTL keeps its 17 bits. -/
theorem test_register : gives (exec (.registerWrite true 0x1000 (-1)) running) (fun t => (t.iface 0).ictl == 0x1FFFF) = true := by decide +kernel

/-- A debug stop in force at an interface that may debug (AUTH), which owns the plane of folio (0,0). -/
def debugging : State :=
  let s := running.setElement 0 0 elem
  { s.setIface 0 { s.iface 0 with dbg := 3 } with debugger := { s.debugger with stopped := true } }

theorem witness_Debugging :
    (let t := DebugTarget.ofWord 0
     debugging.serving = true ∧ debugging.debugAllowed t = true ∧ running.debugAllowed t = false ∧ t.kind < 7
       ∧ ((debugging.element t.row t.col).debugItem t.kind 1).isSome = true)
    ∧ ((debugging.iface 0).armed = true ∧ ({ debugging with debugger := running.debugger }).debugger.stopped = false ∧ (running.iface 0).armed = false
      ∧ debugging.debugger.stopped = true ∧ debugging.debugger.answers = []
      ∧ ∀ n ∈ debugging.placedSigs, ∀ w ∈ (debugging.sig n).waves, w.parked = false) := by decide +kernel

/-! ### Answers, errors, the journal, the platform -/

/-- A STOP record of the spine of signature 1 that awaits its answer, and a HOLD record of a copy of the DMA port. -/
def stopRecord : FaultRecord := { seq := 1, bytes := 0, disp := 2, acts := 7, sig := 1, ctx := 0, request := 0, answered := false, lapsed := false }
def stopped : State :=
  let s := mapped (State.reset.withLaunch { Spine.zero with phase := .faulted true })
  { s.setIface 0 { s.iface 0 with records := [stopRecord, { stopRecord with seq := 2, disp := 1, sig := 0 }, { stopRecord with seq := 3, disp := 1, request := 1 }] } with
    dma := [⟨1, 0, copyBlock, true, [], 0, 0, some 2, []⟩], requests := [req .read (.faulted 0x08 0 3)] }

theorem witness_FaultAnswers :
    ((stopped.iface 0).record 9 = none ∧ (stopped.iface 0).record 1 = some stopRecord ∧ stopped.recordLapsed stopRecord = false ∧ stopRecord.answered = false ∧ stopped.debugger.stopped = false
      ∧ stopRecord.acts / 2 ^ 2 % 2 = 1 ∧ stopped.onFabric 1 = true ∧ (stopped.spineOf 1).phase = .faulted true)
    ∧ (stopped.dma.find? (fun d => d.vif = 0 && d.hold = some 2)) = some ⟨1, 0, copyBlock, true, [], 0, 0, some 2, []⟩
    ∧ (let s := { stopped with debugger := { stopped.debugger with stopped := true } }
       s.recordLapsed stopRecord = false ∧ s.debugger.stopped = true ∧ stopRecord.disp = 2)
    ∧ ((stopped.setSig 1 { stopped.sig 1 with byFault := true }).recordLapsed { stopRecord with disp := 1 } = true)
    ∧ (let g := { stopped.sig 1 with status := .saved }
       (stopped.setSig 1 g).recordLapsed stopRecord = false ∧ ∀ x ∈ g.ctxs, x.2.kind ≠ .coll)
    ∧ (let s := stopped.setIface 0 { stopped.iface 0 with records := [{ stopRecord with acts := 3 }] }
       (s.iface 0).record 1 = some { stopRecord with acts := 3 } ∧ s.recordLapsed { stopRecord with acts := 3 } = false
         ∧ ({ stopRecord with acts := 3 } : FaultRecord).acts / 2 ^ 2 % 2 ≠ 1)
    ∧ (stopped.portsIssue 1 = true ∧ (stopped.sig 1).reissue = false ∧ dieOf (stopped.sig 1).row0 (stopped.sig 1).col0 = 0)
    ∧ (stopped.requests = [req .read (.faulted 0x08 0 3)] ∧ stopped.joined 1 3 = [req .read (.faulted 0x08 0 3)] ∧ stopped.tlbHit 0 0 0x100008 = none) := by
  decide +kernel

/-- R353, R381: RESUME passes over the faulting slot, RETRY performs it again. -/
theorem test_answers : gives (exec (.frespResume 0 1) stopped) (fun t => (t.spineOf 1).phase == .leave) = true
    ∧ gives (exec (.frespRetry 0 1) stopped) (fun t => (t.spineOf 1).phase == .slotB) = true := by decide +kernel

theorem witness_KeysAndErrors :
    (running.keysServed = true ∧ (running.iface 5).worldKey = none ∧ running.worldInUse 5 = false ∧ running.worldInUse 0 = true)
    ∧ (homeOf (64 * 0x4000) ≠ none ∧ ((asking (req .read .key)).keySlot 1).live = true ∧ running.onFabric 1 = true)
    ∧ ((∀ n ∈ running.placedSigs, (running.spineOf n).readAhead = [] ∧ ∀ x ∈ (running.sig n).ctxs, x.2.kind = .stream → x.2.units = []) ∧ ({ running with tlb := [⟨0, 0, 16, 0, 0⟩] }).tlb ≠ [])
    ∧ (let a : TraceArea := ⟨[5], 1, none⟩
       a.records ≠ [] ∧ a.gap = none ∧ running.platform.ring = []
         ∧ ∀ k < 32, (running.folio (dieFolio 0 k).1 (dieFolio 0 k).2).staging.records = []) := by decide +kernel

/-- R369: a poisoned register is read by no one: SADDI of it faults. -/
theorem test_poison : gives (exec (.uncorrectableError (.elementRegister 0 0 2 1)) (running.setElement 0 0 elem))
    (fun t => ((t.element 0 0).s.get (Tagged.zero 32) 1).poison) = true := by decide +kernel

/-- A POL of HBUD 100 as a proposal at 1 MiB, with its after-descriptor behind it. -/
def polAfter : Vec := block [0x10, 0, 0, 0, 0, 100]
def polProposal : Vec := block [3, 3 * 2 ^ 60, 0x100040]
def proposing : State := running.setIface 0 { running.iface 0 with jctl := 8, darea := 0x400000 }

theorem witness_Proposals :
    proposing.serving = true ∧ proposalFields polProposal = some (3, 3 * 2 ^ 60, 0x100040, 0, 0, 0) ∧ proposing.platform.service = 3
    ∧ (∀ x ∈ proposing.journal.txs, x.num < proposing.journal.next) ∧ (proposing.iface 0).jctl.getLsbD 3 = true ∧ (running.iface 0).jctl.getLsbD 3 = false
    ∧ (proposing.writeDescriptor 0 polAfter).isSome = true
    ∧ ((proposing.journal.txs.filter fun t => t.state == .proposed && t.src == 0 && t.proposer == 0 && t.vif == 0).length < 16
      ∧ proposing.objectExists 0 0 0 3 (3 * 2 ^ 60) polAfter = true ∧ proposing.descriptorValid 0 0 3 (3 * 2 ^ 60) polAfter = true) := by
  decide +kernel

/-- A transaction of a class, as accepted. -/
def txOf (cls : Nat) (object : Word) (after : Vec) : Tx :=
  { num := 1, vif := 0, cls, object, state := .proposed, src := 2, cause := 0, deferred := false, rv := false, proposer := 0, thresh := 1311
    wlog := 12, deps := [], before := 0, after := 1, afterBytes := after, beforeBytes := 0, link := 0, brate := 0, trate := 0, validUntil := 1000
    measuredSig := some 1, baseline := (0, 0, 0), trialStart := (0, 0, 0, 0), trialCycle := 0, windowDone := false, noTrial := cls = 3, closing := none, marks := []
    target := [1], vacated := [0], stage := 0, broken := false, failures := 0, replay := 0, ended := false, stamp := 0 }
def withTx (t : Tx) : State :=
  { proposing.setIface 0 { proposing.iface 0 with descriptors := 2 } with journal := { proposing.journal with next := 2, txs := [t] } }
def polTx : Tx := txOf 3 (3 * 2 ^ 60) polAfter
/-- A ROUTE of handle 2 of signature 1 to the port of folio (0,0); one to folio (1,0), which the signature does not have. -/
def routeTx (frow : Nat) : Tx := txOf 1 (objectWord 1 0 1 2) (block [2, frow, 0, 15])
/-- The signature of `withTx` at a seam word. -/
def atSeam (t : Tx) : State := (withTx t).setSpineOf 1 (fetchedCode (encodeWord { fabric with seam := true } 0 0))

/-- A blocking record of interface 1 waits, and a move of the signature awaits its seam. -/
def moveTx : Tx := txOf 0 (objectWord 0 0 1 0) (block [0, 1, 1 <<< 8, 0x101])
def yieldingMove : State :=
  let s := (withTx moveTx).setIface 1 { Iface.zero with queue := [⟨0, 0, true, 0, 0, 0, none, true, none⟩] }
  { s with focus := { Focus.idle with sig := 1, spine := true }, platform := { s.platform with carve := 2 ^ 56 } }

theorem witness_TrapAndYield_move :
    yieldingMove.yieldTo 1 = true ∧ yieldingMove.placedGang 1 = [1] ∧ (yieldingMove.sig 1).waves = []
    ∧ yieldingMove.platform.store + (if (yieldingMove.sig 1).reservedStore = 0 then imageRoom (yieldingMove.sig 1).ht (yieldingMove.sig 1).wd else 0)
      ≤ yieldingMove.storeSize
    ∧ yieldingMove.seamUndo 1 = none ∧ yieldingMove.awaitingMove 1 = some moveTx := by decide +kernel

/-- R197: the move is made as the image is placed again. -/
theorem test_yield_move : gives (exec (.yield sg) yieldingMove) (fun t => (t.tx 1).map (·.stage) == some 2 && (t.sig 1).waves.length == 1) = true := by
  decide +kernel

theorem witness_Application :
    ((withTx polTx).tx 1 = some polTx ∧ polTx.replay = 0 ∧ polTx.rv = false ∧ (withTx polTx).serving = true ∧ (withTx polTx).mayApply polTx = true
      ∧ (withTx polTx).journal.reverts = [] ∧ ((withTx polTx).writeDescriptor 0 ((withTx polTx).beforeOf polTx)).isSome = true ∧ polTx.noTrial = true)
    ∧ (let t := { txOf 0 (3 * 2 ^ 60) (block [2, 0, 1 <<< 8, 0x101]) with noTrial := true }
       t.cls = 0 ∧ partOp t.afterBytes = 2 ∧ (withTx t).targetFree t 0 t.target = true ∧ (withTx t).mayApply t = true)
    ∧ (let t := routeTx 0
       (atSeam t).seamTx 1 = some t ∧ (atSeam t).atSeam 1 = true ∧ (atSeam t).ethReachable t.afterBytes = true ∧ (atSeam t).routeInside 1 t.afterBytes = true
         ∧ t.measuredSig = some 1 ∧ (atSeam t).sigs.any (fun x => x.1 == 1) = true ∧ (atSeam (routeTx 1)).routeInside 1 (routeTx 1).afterBytes = false)
    ∧ (let t := txOf 0 (objectWord 0 0 1 0) (block [0, 1, 1 <<< 8, 0x101])
       (atSeam t).seamTx 1 = some t ∧ (atSeam t).atSeam 1 = true ∧ partOp t.afterBytes ≠ 2 ∧ (atSeam t).targetFree t 1 t.target = true)
    ∧ (let t := { txOf 2 (objectWord 2 0 0 1) (block [1, 6, 2, 2 ^ 48]) with stage := 1 }
       (withTx t).mayApply t = true ∧ (withTx t).fmtFree t = true ∧ (match (withTx t).applyFmt t with | .inr _ => true | .inl _ => false) = true
         ∧ (withTx t).dependencies t = [] ∧ t.spare ≠ objIdx t.object ∧ t.spare < 65536 ∧ objIdx t.object < 65536)
    ∧ ({ polTx with validUntil := 0 }.validUntil ≤ (withTx polTx).cycle ∧ polTx.moving = false) := by decide +kernel

/-- R281: the POL sets HBUD at once and is SETTLED. -/
theorem test_pol : gives (exec (.transactionApply 1) (withTx polTx))
    (fun t => (t.iface 0).policy.hbud == 100 && (t.tx 1).map (·.state) == some .settled) = true := by decide +kernel

/-- A trial of the ROUTE that began at T = 0, with a window of 2^12 cycles; the words issued before fell from 4,096 of 4,096 to none. -/
def trialTx (brate : Nat) : Tx := { routeTx 0 with state := .trial, baseline := (0, 4096, 4096), brate }
def tried (t : Tx) : State := (withTx t).setSig 1 { (withTx t).sig 1 with time := 4096, measured := 4096 }

theorem witness_TrialsMeasured :
    (let t := { routeTx 0 with state := .applied }
     (withTx t).tx 1 = some t ∧ t.measuredSig = some 1 ∧ (withTx t).reverting 1 = false ∧ t.closing = none ∧ t.stage ≠ 4 ∧ t.noTrial = false ∧ (withTx t).runs 1 = true)
    ∧ (let t := trialTx 65536
       let s := tried t
       let trate := rateOf t.byProg (risen t.trialStart.2 (s.meterNow 1))
       t.windowDone = false ∧ t.trialStart.1 + 2 ^ t.wlog ≤ (s.sig 1).time ∧ 4096 ≤ t.baseline.2.2 ∧ trate * 2 ^ 16 < t.brate * (2 ^ 16 - t.thresh)
         ∧ s.depsSettled t = true ∧ ¬(trate * 2 ^ 16 < (trialTx 0).brate * (2 ^ 16 - t.thresh)))
    ∧ ((trialTx 0).trialCycle + 2 ^ 32 ≤ ({ tried (trialTx 0) with cycle := 2 ^ 32 }).cycle)
    ∧ (running.causalRun 1 = none ∧ 1 ∈ running.placedSigs ∧ (1 ≤ 255 ∧ 255 ≤ 255 ∧ 12 ≤ 12)) := by decide +kernel

/-- R296: a causal trial begins, and delays when 256 cycles outside its region have passed. -/
def causal (delaying : Bool) (outside owed : Nat) : State :=
  let r : CausalRun := { sig := 1, region := 3, fraction := 8, wlog := 12, delaying, started := true, start := (0, 0, 0, 0), first := (0, 0, 0), outside, owed }
  { tried polTx with journal := { (tried polTx).journal with causal := [r] } }
theorem witness_TrialsMeasured_causal :
    (causal true 256 0).causalRun 1 = some { sig := 1, region := 3, fraction := 8, wlog := 12, delaying := true, started := true, start := (0, 0, 0, 0)
                                             first := (0, 0, 0), outside := 256, owed := 0 }
    ∧ (∀ t ∈ (causal true 256 0).journal.txs, t.state ≠ .trial) ∧ (causal true 256 0).runs 1 = true ∧ 0 + 2 ^ 12 ≤ ((causal true 256 0).sig 1).time
    ∧ ¬(∃ w ∈ ((causal true 0 8).sig 1).waves, w.cause = .causal) := by decide +kernel

/-- A SETTLED transaction, and a compound revert that undoes it. -/
def settled (t : Tx) : State := withTx { t with state := .settled }
def revertingTx (t : Tx) : State :=
  { atSeam { t with state := .trial } with journal := { (withTx { t with state := .trial }).journal with
      next := 3, reverts := [{ num := 2, target := 1, members := [1], objects := [t.object], cause := 1, ofReplay := false }] } }

theorem witness_Reverts :
    ((settled polTx).serving = true ∧ (settled polTx).tx 9 = none ∧ (settled polTx).reverting 1 = false ∧ (settled polTx).settledDependent 1 = false)
    ∧ (let s := { settled polTx with journal := { (settled polTx).journal with txs := [{ polTx with state := .settled }, { polTx with num := 2, state := .settled, deps := [1] }] } }
       s.settledDependent 1 = true)
    ∧ (let s := revertingTx polTx
       let r : CompoundRevert := { num := 2, target := 1, members := [1], objects := [polTx.object], cause := 1, ofReplay := false }
       s.journal.reverts.find? (fun r => r.num = 2) = some r ∧ r.next.bind s.tx = some { polTx with state := .trial } ∧ (∀ q ∈ s.journal.reverts, q.num ≠ 1)
         ∧ ({ polTx with state := .trial }).state ≠ .proposed ∧ s.beforeReadable polTx = true ∧ s.dependedOn 1 = false)
    ∧ (let t := { routeTx 0 with state := .trial }
       t.stage ≠ 3 ∧ (revertingTx (routeTx 0)).atSeam 1 = true ∧ (revertingTx (routeTx 0)).beforeReadable t = true) := by decide +kernel

theorem witness_BringUpAndService :
    (let s := { State.reset with platform := { State.reset.platform with running := false } }
     s.platform.running = false)
    ∧ (State.reset.platform.running = true ∧ State.reset.platform.service ≤ 1 ∧ 1 ≤ State.reset.platform.order ∧ State.reset.platform.order ≤ 6)
    ∧ (let s := { running with platform := { running.platform with service := 2 } }
       s.platform.moving = false ∧ s.debugger.stopped = false ∧ s.placedSigs ≠ [] ∧ ∀ n ∈ s.placedSigs, (s.sig n).waves = [])
    ∧ (let s := { running with platform := { running.platform with service := 2, moving := true, carve := 2 ^ 56 } }
       let s := s.setSig 1 { s.sig 1 with waves := [⟨.service, 0, true, false⟩] }
       s.movedFrozen = true ∧ s.platform.carve ≠ 0) := by decide +kernel

theorem witness_PowerAndCooling :
    running.serving = true ∧ running.cycle % 2 ^ 20 = 0 ∧ running.platform.running = true ∧ running.platform.service ≠ 4
    ∧ (8 < 16 ∧ 1920 < 65536 ∧ 1919 < 1920) := by decide +kernel

theorem witness_Attestation :
    running.serving = true ∧ (running.spdm false).stage = 0
    ∧ (let s := { running with platform := { running.platform with spdm := [(0, ⟨1, [], []⟩)] } }
       (s.spdm false).stage = 1 ∨ (s.spdm true).stage = 1)
    ∧ (1 ≤ (16 : Byte).toNat ∧ (16 : Byte).toNat ≤ 16) := by decide +kernel

/-- A code block whose first word ends the launch: END in slot B (0x07, R165). -/
def endWord : SchedWord := 0x80000000000000000007000000000000
def endImage : VImage := { words := [endWord, 0, 0, 0], ht := 1, wd := 1 }

theorem witness_RequestBlocks :
    formationOk (block [7, 1, 1, 1000, 0x100000]) = true ∧ formationOk (block [7, 1, 0, 1000]) = false
    ∧ (membersOf [block [1], 0]).isSome = true
    ∧ imageBlockOk (block [0x1000, 64, 0x2000, 0x010101]) 0 = true ∧ imageBlockOk 0 0 = false
    ∧ decodeWord endWord = .word spine .nop (.endLaunch sg)
    ∧ running.serving = true ∧ passes (running.readUnit 0 0x100080) (fun _ => true) = true
    ∧ passes (running.readUnits 0 0x100000 2) (fun l => l.length == 2) = true ∧ (running.iface 0).image 0x1000 = none
    ∧ passes (running.writeVirtual 0 0x1000F0 8 0) (fun _ => true) = true := by decide +kernel

/-- R56: an image that ends at once passes the verifier; a VADD of registers that nothing writes fails check 1 at its word. -/
theorem test_verifier : endImage.verify = none
    ∧ ({ endImage with words := [0x78000118440E28000000000000000000, endWord, 0, 0] } : VImage).verify = some (0, 1) := by decide +kernel

/-- Units of memory as they stand, sealed under the world key 0: the proposal and its descriptor at 1 MiB; an empty journal behind them. -/
def sealed (units : List (Nat × Vec)) : State :=
  { proposing with memory := units.foldl (fun m u => m.setUnit u.1 u.2) proposing.memory }
def sealedProposal : List (Nat × Vec) := [
  (0x4004000, 0x8c4622dca72b9fbfb629ebdc57f2bc127db8e0c0566b75a709466c14bb8d9cf79d3d2f1d944fd28c2b51b2102990bd502ad526f8fe7a36974692a0721d87059a),
  (0x4004001, 0x1ab3d96b3f61fa2802d127964d25c89c1d582b03597dc48a90eaea51e250df0dbdec2ff71a10edb5b53feb383c0c113522873951b566bd560cbe44475866a12a)]
def sealedJournal : List (Nat × Vec) := [
  (0x4004002, 0x3978dd2e8647adea7c5cf745906e7ea591480fcffe21bd2983b4ea50c156982371739f078574acc800e3847439c953ae6ce09d8cb547e7d1b7a4545f9aa5293b)]

/-- R88, R280, R304: JPRV of the proposal enters a transaction with number 1. -/
theorem test_jprv : gives (exec (.jprv 0 0x100000) (sealed sealedProposal)) (fun t => t.journal.next == 2 && (t.iface 0).jprv == 1) = true := by
  decide +kernel

/-- R294: the empty journal at 0x100080 passes the checks of JLOAD. -/
theorem test_jload : (match (sealed sealedJournal).checkJournal 0 1 0x100080 64 with | .inr items => items.isEmpty | .inl _ => false) = true := by
  decide +kernel

/-! ### Words and invariants -/

theorem witness_WordsRoundTrip :
    (slotMaps fabric.spine).1.Holds (.mmas mmasExample) 0x5124298CD00008 ∧ (slotMaps fabric.spine).2.Holds .nop 0 ∧ fabric.zero = 0 ∧ fabric.le.toNat < 5
    ∧ (slotMaps spine.spine).1.Holds (.addi { gd := 5, ga := 5, imm := -1, sub := 0 }) 0x30297FFFFFFFC0
    ∧ (spine.role = 0 ∧ spine.h = false ∧ spine.gs = false ∧ spine.gk = 0 ∧ 10 ≤ (slotOp 0x30297FFFFFFFC0).toNat) := by
  refine ⟨.inr ⟨by decide, by decide +kernel, by decide⟩, .inl ⟨rfl, rfl⟩, rfl, by decide, .inr ⟨by decide, by decide +kernel, by decide⟩, ?_⟩
  decide +kernel

theorem witness_WordsAreEncoded :
    decodeWord addiWord = .word spine (.addi { gd := 5, ga := 5, imm := -1, sub := 0 }) .nop := by decide +kernel

theorem witness_StepKeepsMemoryCanonical : running.memory.wf = true ∧ step running = .next running.tick := ⟨by decide +kernel, rfl⟩

theorem witness_StepKeepsNumbersInOrder : (withTx polTx).journal.Numbered ∧ step (withTx polTx) = .next (withTx polTx).tick := by
  refine ⟨?_, rfl⟩
  unfold Journal.Numbered
  decide +kernel

end Sys2Proof.Tests
end

/-!
PROOFS. The counts of a wall cycle (R15, R25, R39, R40), precision time (R309, R310, R394) and the way of trace records to the ring (R317 to
R319, R343): what each closing step of a cycle changes, and that each entry of a table is changed once.
-/

namespace Sys2Proof.Machine

/-! ### Folds over a list of entries -/

theorem foldl_keeps {σ α β : Type} (step : σ → α → σ) (view : σ → β) {l : List α}
    (h : ∀ s, ∀ a ∈ l, view (step s a) = view s) (s : σ) : view (l.foldl step s) = view s :=
  List.foldlRecOn (motive := fun u => view u = view s) l step rfl fun u hu a ha => (h u a ha).trans hu

/-- Where one item of a list alone changes what is viewed, the fold changes it as that item's own step does. -/
theorem foldl_touches_once {σ α β : Type} (step : σ → α → σ) (view : σ → β) {l : List α} {a : α} (hl : l.Nodup) (ha : a ∈ l)
    (hview : ∀ s, ∀ b ∈ l, b ≠ a → view (step s b) = view s) (s : σ) :
    ∃ u, view u = view s ∧ view (l.foldl step s) = view (step u a) := by
  obtain ⟨before, after, rfl⟩ := List.append_of_mem ha
  obtain ⟨-, hafter, hapart⟩ := List.nodup_append.1 hl
  have hb : ∀ b ∈ before, b ≠ a := fun b hb => hapart b hb a (List.mem_cons_self ..)
  have ha' : ∀ b ∈ after, b ≠ a := fun b hb he => (List.nodup_cons.1 hafter).1 (he ▸ hb)
  refine ⟨before.foldl step s, ?_, ?_⟩
  · exact foldl_keeps step view (fun s b h => hview s b (List.mem_append_left _ h) (hb b h)) s
  · rw [List.foldl_append, List.foldl_cons]
    exact foldl_keeps step view (fun s b h => hview s b (List.mem_append_right _ (List.mem_cons_of_mem _ h)) (ha' b h)) _

/-! ### Tables in which what is listed counts -/

section Tables

variable {α : Type} {d : α} {t : Tab α}

theorem Tab.erase_eq_filter (k : Nat) (t : Tab α) : Tab.erase k t = t.filter fun p => p.1 ≠ k := by
  induction t with
  | nil => rfl
  | cons p rest ih =>
    obtain ⟨j, y⟩ := p
    by_cases hj : j = k <;> simp [Tab.erase, hj, ih]

theorem Tab.insert_perm (k : Nat) (x : α) (t : Tab α) : (Tab.insert k x t).Perm ((k, x) :: t) := by
  induction t with
  | nil => exact .refl _
  | cons p rest ih =>
    obtain ⟨j, y⟩ := p
    unfold Tab.insert
    split
    · exact .refl _
    · exact (ih.cons (j, y)).trans (.swap ..)

theorem Tab.get_put (k i : Nat) (x : α) : Tab.get d (t.put k x) i = if i = k then x else Tab.get d t i := by
  unfold Tab.put
  split
  · subst i; exact Tab.get_insert_same _ _ fun p hp => (Tab.mem_erase hp).2
  · rw [Tab.get_insert_other _ ‹_›, Tab.get_erase_other ‹_›]

theorem Tab.get_erase (k i : Nat) : Tab.get d (Tab.erase k t) i = if i = k then d else Tab.get d t i := by
  split
  · subst i; exact Tab.get_erase_same k
  · exact Tab.get_erase_other ‹_›

theorem Tab.mem_put {k : Nat} {x : α} {p : Nat × α} : p ∈ t.put k x ↔ p = (k, x) ∨ (p ∈ t ∧ p.1 ≠ k) := by
  rw [Tab.put, (Tab.insert_perm ..).mem_iff, List.mem_cons, Tab.erase_eq_filter, List.mem_filter, decide_eq_true_iff]

theorem Tab.length_put (k : Nat) (x : α) : (t.put k x).length = (Tab.erase k t).length + 1 :=
  (Tab.insert_perm ..).length_eq

theorem Tab.length_erase_le (k : Nat) : (Tab.erase k t).length ≤ t.length :=
  Tab.erase_eq_filter k t ▸ List.length_filter_le ..

theorem Tab.length_erase_lt {k : Nat} (h : k ∈ t.map (·.1)) : (Tab.erase k t).length < t.length := by
  obtain ⟨p, hp, rfl⟩ := List.mem_map.1 h
  rw [Tab.erase_eq_filter, List.length_filter_lt_length_iff_exists]
  exact ⟨p, hp, by simp⟩

theorem Tab.erase_of_not_mem {k : Nat} (h : k ∉ t.map (·.1)) : Tab.erase k t = t := by
  rw [Tab.erase_eq_filter, List.filter_eq_self]
  exact fun p hp => decide_eq_true fun he => h (he ▸ List.mem_map_of_mem hp)

end Tables

/-! ### The region counts of R40 -/

/-- Of two regions the one longer unused, the first of them where they are even. -/
def olderRegion (b : Option (Nat × RegionCount)) (x : Nat × RegionCount) : Option (Nat × RegionCount) :=
  match b with
  | none => some x
  | some y => if x.2.lastUse < y.2.lastUse then some x else b

/-- The region longest unused, of those that may leave when a region counts. -/
def oldestRegion (region : Nat) (t : Tab RegionCount) : Option (Nat × RegionCount) :=
  (t.filter fun x => x.1 ≠ 0 && x.1 ≠ region).foldl olderRegion none

/-- The counts of a region move to region 0. -/
def mergeRegion (t : Tab RegionCount) (d : Nat × RegionCount) : Tab RegionCount :=
  let zero := t.get RegionCount.zero 0
  (Tab.erase d.1 t).put 0 { busy := zero.busy + d.2.busy, held := zero.held + d.2.held, lastUse := max zero.lastUse d.2.lastUse }

/-- One region leaves a table of more than 64. -/
def evictRegion (region : Nat) (t : Tab RegionCount) : Tab RegionCount :=
  if t.length ≤ 64 then t
  else
    match oldestRegion region t with
    | none => t
    | some (k, c) => mergeRegion t (k, c)

/-- A region counts one cycle. -/
def RegionCount.bump (c : RegionCount) (cycle : Nat) (spent : Spent) : RegionCount :=
  { busy := if spent = .busy then c.busy + 1 else c.busy, held := if spent = .held then c.held + 1 else c.held, lastUse := cycle }

/-- The counts by the flags of the cycle. -/
theorem RegionCount.bump_flags (c : RegionCount) (cycle : Nat) {spent : Spent} {busy held : Bool} (hb : spent = .busy ↔ busy = true)
    (hh : spent = .held ↔ held = true) :
    c.bump cycle spent = ⟨c.busy + (if busy then 1 else 0), c.held + (if held then 1 else 0), cycle⟩ := by
  unfold RegionCount.bump
  simp only [hb, hh]
  cases busy <;> cases held <;> simp

theorem countRegion_idle (t : Tab RegionCount) (region cycle : Nat) : countRegion t region cycle .idle = t := rfl

theorem countRegion_eq (t : Tab RegionCount) (region cycle : Nat) {spent : Spent} (h : spent ≠ .idle) :
    countRegion t region cycle spent
      = evictRegion region (evictRegion region (t.put region ((t.get RegionCount.zero region).bump cycle spent))) := by
  unfold countRegion
  rw [if_neg h]
  rfl

theorem evictRegion_of_length_le {region : Nat} {t : Tab RegionCount} (h : t.length ≤ 64) : evictRegion region t = t := if_pos h

theorem evictRegion_of_oldest {region : Nat} {t : Tab RegionCount} {d : Nat × RegionCount} (h : 64 < t.length)
    (hd : oldestRegion region t = some d) : evictRegion region t = mergeRegion t d := by
  rw [evictRegion, if_neg (by omega), hd]

theorem foldl_olderRegion {d : Nat × RegionCount} {l : Tab RegionCount} {b : Option (Nat × RegionCount)}
    (hl : ∀ y ∈ l, y ≠ d → d.2.lastUse < y.2.lastUse) (hb : b = some d ∨ (d ∈ l ∧ ∀ y, b = some y → d.2.lastUse < y.2.lastUse)) :
    l.foldl olderRegion b = some d := by
  induction l generalizing b with
  | nil => simpa using hb
  | cons x rest ih =>
    refine ih (fun y hy => hl y (List.mem_cons_of_mem _ hy)) ?_
    have hx : x = d ∨ d.2.lastUse < x.2.lastUse := or_iff_not_imp_left.2 (hl x (List.mem_cons_self ..))
    rcases hb with rfl | ⟨hmem, hlater⟩
    · left
      have : ¬ x.2.lastUse < d.2.lastUse := by rcases hx with rfl | hx <;> omega
      simp [olderRegion, this]
    · rcases hx with rfl | hx
      · left
        cases b with
        | none => rfl
        | some y => simp [olderRegion, hlater y rfl]
      · right
        have hne : d ≠ x := fun he => by subst he; omega
        refine ⟨(List.mem_cons.1 hmem).resolve_left hne, fun y hy => ?_⟩
        cases b with
        | none => cases hy; exact hx
        | some z =>
          unfold olderRegion at hy
          dsimp only at hy
          split at hy
          · cases hy; exact hx
          · exact hlater y hy

theorem oldestRegion_eq {region : Nat} {t : Tab RegionCount} {d : Nat × RegionCount} (hd : d ∈ t) (h0 : d.1 ≠ 0) (hr : d.1 ≠ region)
    (hmin : ∀ y ∈ t, y.1 ≠ 0 → y.1 ≠ region → y ≠ d → d.2.lastUse < y.2.lastUse) : oldestRegion region t = some d := by
  refine foldl_olderRegion (fun y hy hne => ?_) (.inr ⟨by simp [hd, h0, hr], by simp⟩)
  have hy : y ∈ t ∧ y.1 ≠ 0 ∧ y.1 ≠ region := by simpa using hy
  exact hmin y hy.1 hy.2.1 hy.2.2 hne

theorem get_mergeRegion (t : Tab RegionCount) (d : Nat × RegionCount) (k : Nat) :
    (mergeRegion t d).get RegionCount.zero k
      = if k = 0 then ⟨(t.get RegionCount.zero 0).busy + d.2.busy, (t.get RegionCount.zero 0).held + d.2.held,
          max (t.get RegionCount.zero 0).lastUse d.2.lastUse⟩
        else if k = d.1 then RegionCount.zero else t.get RegionCount.zero k := by
  simp only [mergeRegion, Tab.get_put, Tab.get_erase]

theorem length_mergeRegion_lt {t : Tab RegionCount} {d : Nat × RegionCount} (hd : d ∈ t) (hd0 : d.1 ≠ 0) (h0 : 0 ∈ t.map (·.1)) :
    (mergeRegion t d).length < t.length := by
  have hzero : 0 ∈ (Tab.erase d.1 t).map (·.1) := by
    obtain ⟨p, hp, hp0⟩ := List.mem_map.1 h0
    refine List.mem_map.2 ⟨p, ?_, hp0⟩
    rw [Tab.erase_eq_filter, List.mem_filter]
    exact ⟨hp, by simpa [hp0] using hd0.symm⟩
  have h1 := Tab.length_erase_lt (List.mem_map_of_mem (f := (·.1)) hd)
  have h2 := Tab.length_erase_lt hzero
  rw [mergeRegion, Tab.length_put]
  omega

/-- With fewer than 64 regions, a cycle that counts changes its own region alone. -/
theorem get_countRegion_of_lt {t : Tab RegionCount} {region cycle : Nat} {spent : Spent} (h : spent ≠ .idle) (hlen : t.length < 64) (k : Nat) :
    (countRegion t region cycle spent).get RegionCount.zero k
      = if k = region then (t.get RegionCount.zero region).bump cycle spent else t.get RegionCount.zero k := by
  have hput : (t.put region ((t.get RegionCount.zero region).bump cycle spent)).length ≤ 64 := by
    rw [Tab.length_put]
    have := Tab.length_erase_le (t := t) region
    omega
  rw [countRegion_eq _ _ _ h, evictRegion_of_length_le hput, evictRegion_of_length_le hput, Tab.get_put]

/-- A 65th region moves the counts of the one longest unused to region 0 (R40). -/
theorem countRegion_of_full {t : Tab RegionCount} {region cycle : Nat} {spent : Spent} {d : Nat × RegionCount} (h : spent ≠ .idle)
    (hlen : t.length = 64) (h0 : 0 ∈ t.map (·.1)) (hr : region ∉ t.map (·.1)) (hd : d ∈ t) (hd0 : d.1 ≠ 0)
    (hmin : ∀ y ∈ t, y.1 ≠ 0 → y ≠ d → d.2.lastUse < y.2.lastUse) :
    countRegion t region cycle spent = mergeRegion (t.put region ((t.get RegionCount.zero region).bump cycle spent)) d := by
  set counted := (t.get RegionCount.zero region).bump cycle spent
  have hmem : ∀ p ∈ t, p.1 ≠ region := fun p hp he => hr (he ▸ List.mem_map_of_mem hp)
  have hfull : (t.put region counted).length = 65 := by rw [Tab.length_put, Tab.erase_of_not_mem hr, hlen]
  have hd' : d ∈ t.put region counted := Tab.mem_put.2 (.inr ⟨hd, hmem d hd⟩)
  have hzero : 0 ∈ (t.put region counted).map (·.1) := by
    obtain ⟨p, hp, hp0⟩ := List.mem_map.1 h0
    exact List.mem_map.2 ⟨p, Tab.mem_put.2 (.inr ⟨hp, hmem p hp⟩), hp0⟩
  have hold : oldestRegion region (t.put region counted) = some d :=
    oldestRegion_eq hd' hd0 (hmem d hd) fun y hy hy0 hyr hne => by
      rcases Tab.mem_put.1 hy with rfl | ⟨hy, -⟩
      · exact absurd rfl hyr
      · exact hmin y hy hy0 hne
  have hmerged := length_mergeRegion_lt hd' hd0 hzero
  rw [countRegion_eq _ _ _ h, evictRegion_of_oldest (by omega) hold, evictRegion_of_length_le (by omega)]

/-- A 65th region's cycle, entry by entry: region 0 takes the counts of the one longest unused. -/
theorem get_countRegion_of_full {t : Tab RegionCount} {region cycle : Nat} {spent : Spent} {d : Nat × RegionCount} (h : spent ≠ .idle)
    (hlen : t.length = 64) (h0 : 0 ∈ t.map (·.1)) (hr : region ∉ t.map (·.1)) (hd : d ∈ t) (hd0 : d.1 ≠ 0)
    (hmin : ∀ y ∈ t, y.1 ≠ 0 → y ≠ d → d.2.lastUse < y.2.lastUse) :
    let new := countRegion t region cycle spent
    new.get RegionCount.zero region = (t.get RegionCount.zero region).bump cycle spent ∧ new.get RegionCount.zero d.1 = RegionCount.zero
      ∧ (new.get RegionCount.zero 0).busy = (t.get RegionCount.zero 0).busy + d.2.busy
      ∧ (new.get RegionCount.zero 0).held = (t.get RegionCount.zero 0).held + d.2.held
      ∧ ∀ k, k ≠ region → k ≠ d.1 → k ≠ 0 → new.get RegionCount.zero k = t.get RegionCount.zero k := by
  have hregion0 : region ≠ 0 := fun he => hr (he ▸ h0)
  have hregiond : region ≠ d.1 := fun he => hr (he ▸ List.mem_map_of_mem hd)
  simp only [countRegion_of_full h hlen h0 hr hd hd0 hmin, get_mergeRegion, Tab.get_put, if_neg hregion0, if_neg hregiond,
    if_neg hd0, if_neg hregion0.symm, if_true, true_and]
  intro k hk hkd hk0
  simp only [if_neg hk, if_neg hkd, if_neg hk0]

/-! ### Entries of the state's tables after a setting -/

theorem State.folio_setFolio_apply (s : State) (row col r c : Nat) (f : Folio) :
    (s.setFolio row col f).folio r c = if r * 24 + c = row * 24 + col then f else s.folio r c :=
  Tab.get_set ..

/-- What a setting of a folio leaves as it was reads the same in every folio. -/
theorem State.folio_setFolio_keeps {β : Type} (view : Folio → β) (s : State) (row col r c : Nat) {f : Folio}
    (h : view f = view (s.folio row col)) : view ((s.setFolio row col f).folio r c) = view (s.folio r c) := by
  rw [State.folio_setFolio_apply]
  split
  · rw [h, State.folio, State.folio, ‹r * 24 + c = row * 24 + col›]
  · rfl

theorem State.iface_setIface_apply (s : State) (v u : Nat) (f : Iface) : (s.setIface v f).iface u = if u = v then f else s.iface u :=
  Tab.get_set ..

/-! ### How a cycle is spent (R39) -/

theorem Clocked.spent_iff {x : Clocked} {gated busy held : Bool}
    (hbusy : busy = (if x.starts then x.sweeps || !gated && !x.frozen else x.moves)) (hheld : held = (!x.starts && !x.moves && x.held)) :
    (x.spent gated = .busy ↔ busy = true) ∧ (x.spent gated = .held ↔ held = true) ∧ (x.spent gated = .idle ↔ (!busy && !held) = true) := by
  subst hbusy hheld
  unfold Clocked.spent
  cases x.starts
  case true => cases x.sweeps <;> cases gated <;> cases x.frozen <;> simp
  case false => cases x.moves <;> cases x.held <;> simp

/-- A folio has counted one cycle, as it was spent. -/
def Folio.Counts (f f' : Folio) (spent : Spent) : Prop :=
  f'.busy = f.busy + (if spent = .busy then 1 else 0) ∧ f'.held = f.held + (if spent = .held then 1 else 0)
    ∧ f'.idle = f.idle + (if spent = .idle then 1 else 0)

/-- The counts by the flags of the cycle. -/
theorem Folio.Counts.flags {f f' : Folio} {spent : Spent} {busy held : Bool} (h : f.Counts f' spent) (hb : spent = .busy ↔ busy = true)
    (hh : spent = .held ↔ held = true) (hi : spent = .idle ↔ (!busy && !held) = true) :
    f'.busy = f.busy + (if busy then 1 else 0) ∧ f'.held = f.held + (if held then 1 else 0)
      ∧ f'.idle = f.idle + (if !busy && !held then 1 else 0) := by
  simpa only [Folio.Counts, hb, hh, hi] using h

/-! ### The counts of one folio -/

theorem State.closeFolio_eq (s : State) (k : Nat) : ∃ folios, s.closeFolio k = { s with folios } := ⟨_, rfl⟩

theorem State.folio_closeFolio_other (s : State) {k row col : Nat} (h : k ≠ row * 24 + col) : (s.closeFolio k).folio row col = s.folio row col :=
  State.folio_setFolio_other s _ (by omega)

theorem State.gated_closeFolio (s : State) (k r c : Nat) : ((s.closeFolio k).folio r c).gated = (s.folio r c).gated :=
  State.folio_setFolio_keeps Folio.gated s _ _ r c rfl

theorem State.closeFolio_counts (s : State) {row col : Nat} (hcol : col < 24) :
    (s.folio row col).Counts ((s.closeFolio (row * 24 + col)).folio row col) (s.folioSpent (s.folio row col)) := by
  have hrow : (row * 24 + col) / 24 = row := by omega
  have hcol : (row * 24 + col) % 24 = col := by omega
  unfold State.closeFolio Folio.Counts
  rw [hrow, hcol, State.folio_setFolio]
  cases s.folioSpent (s.folio row col) <;> simp

theorem State.foldl_closeFolio_eq (s : State) (l : List Nat) : ∃ folios, l.foldl State.closeFolio s = { s with folios } := by
  refine List.foldlRecOn (motive := fun (u : State) => ∃ folios, u = { s with folios }) l _ ⟨s.folios, rfl⟩ ?_
  rintro _ ⟨_, rfl⟩ k -
  exact State.closeFolio_eq _ k

theorem State.gated_foldl_closeFolio (s : State) (l : List Nat) (r c : Nat) :
    ((l.foldl State.closeFolio s).folio r c).gated = (s.folio r c).gated :=
  foldl_keeps State.closeFolio (fun u => (u.folio r c).gated) (fun u k _ => u.gated_closeFolio k r c) s

theorem State.foldl_closeFolio_counts (s : State) {l : List Nat} (hl : l.Nodup) {row col : Nat} (hcol : col < 24) (hk : row * 24 + col ∈ l) :
    (s.folio row col).Counts ((l.foldl State.closeFolio s).folio row col) (s.folioSpent (s.folio row col)) := by
  obtain ⟨u, hu, hfold⟩ := foldl_touches_once State.closeFolio (fun u => (u.folio row col, u.folioSpent (u.folio row col))) hl hk
    (fun u k _ hk => by
      have hspent : ∀ f, (u.closeFolio k).folioSpent f = u.folioSpent f := fun _ => rfl
      simp only [hspent, State.folio_closeFolio_other u hk]) s
  obtain ⟨hf, hspent⟩ := Prod.mk.inj hu
  rw [(Prod.mk.inj hfold).1, ← hspent, ← hf]
  exact u.closeFolio_counts hcol

/-! ### The counts of one signature -/

/-- A signature as the cycle ends in which it was clocked. -/
def Sig.closed (g : Sig) (x : Clocked) (spent : Spent) (cycle : Nat) : Sig :=
  let regions := countRegion g.regions x.region cycle spent
  if g.status == .saved then g
  else if x.starts then { g with regions }
  else if g.status == .starting then g
  else
    { g.advanceTime x.moves with
      hold := if spent = .held then g.hold + 1 else g.hold
      measured := if x.measured then g.measured + 1 else g.measured
      regions }

theorem Sig.time_closed {g : Sig} {x : Clocked} (spent : Spent) (cycle : Nat) (hsaved : g.status ≠ .saved) (hx : x.starts = false)
    (hg : g.status ≠ .starting) : (g.closed x spent cycle).time = g.time + (if x.moves then 1 else 0) := by
  cases hm : x.moves <;> simp [Sig.closed, Sig.advanceTime, hsaved, hx, hg, hm]

theorem Sig.hold_closed {g : Sig} {x : Clocked} (spent : Spent) (cycle : Nat) (hsaved : g.status ≠ .saved) (hx : x.starts = false)
    (hg : g.status ≠ .starting) : (g.closed x spent cycle).hold = g.hold + (if spent = .held then 1 else 0) := by
  by_cases h : spent = .held <;> simp [Sig.closed, hsaved, hx, hg, h]

theorem Sig.regions_closed {g : Sig} {x : Clocked} (spent : Spent) (cycle : Nat) (hsaved : g.status ≠ .saved)
    (h : x.starts = true ∨ g.status ≠ .starting) : (g.closed x spent cycle).regions = countRegion g.regions x.region cycle spent := by
  cases hx : x.starts
  case true => simp [Sig.closed, hsaved, hx]
  case false =>
    have hg : g.status ≠ .starting := h.resolve_left (by simp [hx])
    simp [Sig.closed, hsaved, hx, hg]

theorem State.folio_count_keeps {β : Type} (view : Folio → β) (hview : ∀ f p, view { f with spine := p } = view f) (s : State)
    (sig event n r c : Nat) : view ((s.count sig event n).folio r c) = view (s.folio r c) :=
  State.folio_setFolio_keeps view s _ _ r c (hview ..)

/-- How the signature that is clocked spends the cycle: its regions count the cycles of its lead spine's folio. -/
def State.spentBy (s : State) (x : Clocked) : Spent := x.spent (s.folio (s.sig x.sig).row0 (s.sig x.sig).col0).gated

theorem State.spentBy_iff {s : State} {x : Clocked} {busy held : Bool}
    (hbusy : busy = (if x.starts then x.sweeps || !(s.folio (s.sig x.sig).row0 (s.sig x.sig).col0).gated && !x.frozen else x.moves))
    (hheld : held = (!x.starts && !x.moves && x.held)) :
    (s.spentBy x = .busy ↔ busy = true) ∧ (s.spentBy x = .held ↔ held = true) ∧ (s.spentBy x = .idle ↔ (!busy && !held) = true) :=
  Clocked.spent_iff hbusy hheld

/-- A signature's end of cycle sets its own entry, where that changes, and may count an event in its spine. -/
theorem State.closeSig_cases (s : State) (x : Clocked) :
    let g := (s.sig x.sig).closed x (s.spentBy x) s.cycle
    (s.closeSig x = s ∧ g = s.sig x.sig) ∨ s.closeSig x = s.setSig x.sig g ∨ s.closeSig x = (s.count x.sig 4 1).setSig x.sig g := by
  unfold State.closeSig Sig.closed
  dsimp only
  split
  · exact .inl ⟨rfl, rfl⟩
  split
  · exact .inr (.inl rfl)
  split
  · exact .inl ⟨rfl, rfl⟩
  by_cases h : s.spentBy x = .held
  · refine .inr (.inr ?_)
    unfold State.spentBy at h ⊢
    simp only [if_pos h]
  · refine .inr (.inl ?_)
    unfold State.spentBy at h ⊢
    simp only [if_neg h]

theorem State.closeSig_eq (s : State) (x : Clocked) : ∃ sigs folios, s.closeSig x = { s with sigs, folios } := by
  rcases s.closeSig_cases x with ⟨h, -⟩ | h | h <;> rw [h] <;> exact ⟨_, _, rfl⟩

theorem State.folio_closeSig_keeps {β : Type} (view : Folio → β) (hview : ∀ f p, view { f with spine := p } = view f) (s : State)
    (x : Clocked) (r c : Nat) : view ((s.closeSig x).folio r c) = view (s.folio r c) := by
  rcases s.closeSig_cases x with ⟨h, -⟩ | h | h <;> rw [h]
  · exact congrArg view (State.folio_setSig ..)
  · rw [State.folio_setSig]; exact s.folio_count_keeps view hview ..

theorem State.sig_closeSig (s : State) (x : Clocked) : (s.closeSig x).sig x.sig = (s.sig x.sig).closed x (s.spentBy x) s.cycle := by
  rcases s.closeSig_cases x with ⟨h, hg⟩ | h | h <;> rw [h]
  · exact hg.symm
  · exact State.sig_setSig ..
  · exact State.sig_setSig ..

theorem State.sig_closeSig_other (s : State) {x : Clocked} {n : Nat} (hn : n ≠ x.sig) : (s.closeSig x).sig n = s.sig n := by
  rcases s.closeSig_cases x with ⟨h, -⟩ | h | h <;> rw [h]
  · exact State.sig_setSig_other s _ hn
  · exact State.sig_setSig_other _ _ hn

theorem State.foldl_closeSig_eq (s : State) (l : List Clocked) : ∃ sigs folios, l.foldl State.closeSig s = { s with sigs, folios } := by
  refine List.foldlRecOn (motive := fun (u : State) => ∃ sigs folios, u = { s with sigs, folios }) l _ ⟨s.sigs, s.folios, rfl⟩ ?_
  rintro _ ⟨_, _, rfl⟩ x -
  exact State.closeSig_eq _ x

theorem State.folio_foldl_closeSig_keeps {β : Type} (view : Folio → β) (hview : ∀ f p, view { f with spine := p } = view f) (s : State)
    (l : List Clocked) (r c : Nat) : view ((l.foldl State.closeSig s).folio r c) = view (s.folio r c) :=
  foldl_keeps State.closeSig (fun u => view (u.folio r c)) (fun u x _ => u.folio_closeSig_keeps view hview x r c) s

/-- Each clocked signature is closed once. -/
theorem State.sig_foldl_closeSig (s : State) {l : List Clocked} (hl : (l.map (·.sig)).Nodup) {x : Clocked} (hx : x ∈ l) :
    (l.foldl State.closeSig s).sig x.sig = (s.sig x.sig).closed x (s.spentBy x) s.cycle := by
  obtain ⟨u, hu, hfold⟩ := foldl_touches_once State.closeSig (fun u => (u.sig x.sig, u.spentBy x, u.cycle)) hl.of_map hx
    (fun u y hy hne => by
      have hsig : (u.closeSig y).sig x.sig = u.sig x.sig :=
        u.sig_closeSig_other fun he => hne (List.inj_on_of_nodup_map hl hy hx he.symm)
      have hcycle : (u.closeSig y).cycle = u.cycle := by
        obtain ⟨_, _, h⟩ := u.closeSig_eq y
        rw [h]
      have hgated := u.folio_closeSig_keeps Folio.gated (fun _ _ => rfl) y
      simp only [State.spentBy, hsig, hgated, hcycle]) s
  simp only [Prod.mk.injEq] at hu hfold
  obtain ⟨hg, hspent, hcycle⟩ := hu
  rw [hfold.1, State.sig_closeSig, hg, hspent, hcycle]

/-! ### Issue credit (R15) -/

/-- The credit of one interface toward the next cycle. -/
def State.addCredit (s : State) (v : Nat) : State := s.setIface v { s.iface v with credit := ((s.iface v).credit + s.shareOf v) % 2 ^ 32 }

theorem State.closeCredit_eq_foldl (s : State) : s.closeCredit = (List.range 64).foldl State.addCredit s := rfl

theorem State.shareOf_addCredit (s : State) (v u : Nat) : (s.addCredit v).shareOf u = s.shareOf u := by
  have hshare : ((s.addCredit v).iface u).share = (s.iface u).share := by
    rw [State.addCredit, State.iface_setIface_apply]
    split
    · subst u; rfl
    · rfl
  unfold State.shareOf
  rw [hshare]
  rfl

theorem State.iface_addCredit_other (s : State) {v u : Nat} (h : u ≠ v) : (s.addCredit v).iface u = s.iface u :=
  s.iface_setIface_other _ h

theorem State.foldl_addCredit_eq (s : State) (l : List Nat) : ∃ ifaces, l.foldl State.addCredit s = { s with ifaces } := by
  refine List.foldlRecOn (motive := fun (u : State) => ∃ ifaces, u = { s with ifaces }) l _ ⟨s.ifaces, rfl⟩ ?_
  rintro _ ⟨_, rfl⟩ v -
  exact ⟨_, rfl⟩

theorem State.credit_foldl_addCredit (s : State) {l : List Nat} (hl : l.Nodup) {v : Nat} (hv : v ∈ l) :
    ((l.foldl State.addCredit s).iface v).credit = ((s.iface v).credit + s.shareOf v) % 2 ^ 32 := by
  obtain ⟨u, hu, hfold⟩ := foldl_touches_once State.addCredit (fun u => (u.iface v, u.shareOf v)) hl hv
    (fun u w _ hw => by simp only [State.shareOf_addCredit, State.iface_addCredit_other u (Ne.symm hw)]) s
  obtain ⟨hf, hshare⟩ := Prod.mk.inj hu
  rw [(Prod.mk.inj hfold).1, State.addCredit, State.iface_setIface, hf, hshare]

/-! ### The whole end of a cycle -/

theorem State.clearLanded_eq (s : State) : ∃ elements, s.clearLanded = { s with elements } := ⟨_, rfl⟩

theorem State.retireOld_eq (s : State) : ∃ keySlots keyCache, s.retireOld = { s with keySlots, keyCache } := by
  refine List.foldlRecOn (motive := fun (u : State) => ∃ keySlots keyCache, u = { s with keySlots, keyCache }) s.keySlots _
    ⟨s.keySlots, s.keyCache, rfl⟩ ?_
  rintro _ ⟨slots, cache, rfl⟩ ⟨n, k⟩ -
  dsimp only
  split
  · exact ⟨_, _, rfl⟩
  · split <;> exact ⟨_, _, rfl⟩

/-- The state whose signatures are closed next: the folios and the causal trials have counted the cycle. -/
def State.foliosClosed (s : State) : State := ((List.range 288).foldl State.closeFolio s).closeCausal

/-- The state whose interfaces take their credit next: the signatures are closed. -/
def State.sigsClosed (s : State) : State := s.clocked.foldl State.closeSig s.foliosClosed

theorem State.folio_closeCausal (s : State) (r c : Nat) : s.closeCausal.folio r c = s.folio r c := rfl

theorem State.foliosClosed_eq (s : State) : ∃ folios journal, s.foliosClosed = { s with folios, journal } := by
  obtain ⟨folios, h⟩ := s.foldl_closeFolio_eq (List.range 288)
  rw [State.foliosClosed, h]
  exact ⟨_, _, rfl⟩

theorem State.gated_foliosClosed (s : State) (r c : Nat) : (s.foliosClosed.folio r c).gated = (s.folio r c).gated := by
  rw [State.foliosClosed, State.folio_closeCausal, State.gated_foldl_closeFolio]

theorem State.foliosClosed_counts (s : State) {row col : Nat} (hrow : row < 12) (hcol : col < 24) :
    (s.folio row col).Counts (s.foliosClosed.folio row col) (s.folioSpent (s.folio row col)) := by
  rw [State.foliosClosed, State.folio_closeCausal]
  exact s.foldl_closeFolio_counts List.nodup_range hcol (List.mem_range.2 (by omega))

theorem State.spentBy_foliosClosed (s : State) (x : Clocked) : s.foliosClosed.spentBy x = s.spentBy x := by
  have hsig : s.foliosClosed.sig x.sig = s.sig x.sig := by
    obtain ⟨_, _, h⟩ := s.foliosClosed_eq
    rw [h]
    rfl
  rw [State.spentBy, State.spentBy, hsig, State.gated_foliosClosed]

theorem State.sigsClosed_eq (s : State) : ∃ folios journal sigs, s.sigsClosed = { s with folios, journal, sigs } := by
  obtain ⟨_, _, h⟩ := s.foliosClosed_eq
  obtain ⟨_, _, h'⟩ := s.foliosClosed.foldl_closeSig_eq s.clocked
  rw [State.sigsClosed, h', h]
  exact ⟨_, _, _, rfl⟩

theorem State.closeCycle_eq_sigsClosed (s : State) : ∃ ifaces elements keySlots keyCache clock,
    s.closeCycle = { s.sigsClosed with ifaces, elements, keySlots, keyCache, clock, cycle := s.cycle + 1, clocked := [] }
      ∧ ifaces = s.sigsClosed.closeCredit.ifaces := by
  have hclocked : s.foliosClosed.clocked = s.clocked := by
    obtain ⟨_, _, h⟩ := s.foliosClosed_eq
    rw [h]
  obtain ⟨_, _, _, hsigs⟩ := s.sigsClosed_eq
  obtain ⟨_, hcredit⟩ := s.sigsClosed.foldl_addCredit_eq (List.range 64)
  obtain ⟨_, hlanded⟩ := s.sigsClosed.closeCredit.clearLanded_eq
  obtain ⟨_, _, hold⟩ := s.sigsClosed.closeCredit.clearLanded.retireOld_eq
  have hclose : s.closeCycle = { s.sigsClosed.closeCredit.clearLanded.retireOld with
      clock := s.sigsClosed.closeCredit.clearLanded.retireOld.clock.tick (s.sigsClosed.closeCredit.clearLanded.retireOld.platform.service == 2)
      cycle := s.sigsClosed.closeCredit.clearLanded.retireOld.cycle + 1, clocked := [] } := by
    rw [State.sigsClosed, ← hclocked]
    rfl
  rw [hclose, hold, hlanded, State.closeCredit_eq_foldl, hcredit, hsigs]
  exact ⟨_, _, _, _, _, rfl, rfl⟩

/-- What the end of a cycle sets beside the counts. -/
theorem State.closeCycle_frame (s : State) : s.closeCycle.agenda = s.agenda ∧ s.closeCycle.cycle = s.cycle + 1 ∧ s.closeCycle.clocked = []
    ∧ s.closeCycle.memory = s.memory := by
  obtain ⟨_, _, _, _, _, h, -⟩ := s.closeCycle_eq_sigsClosed
  obtain ⟨_, _, _, hsigs⟩ := s.sigsClosed_eq
  rw [h, hsigs]
  exact ⟨rfl, rfl, rfl, rfl⟩

theorem State.credit_closeCycle (s : State) {v : Nat} (hv : v < 64) :
    (s.closeCycle.iface v).credit = ((s.iface v).credit + s.shareOf v) % 2 ^ 32 := by
  obtain ⟨_, _, _, _, _, h, hifaces⟩ := s.closeCycle_eq_sigsClosed
  obtain ⟨_, _, _, hsigs⟩ := s.sigsClosed_eq
  have hiface : s.closeCycle.iface v = s.sigsClosed.closeCredit.iface v := by
    rw [h, State.iface, State.iface, hifaces]
  rw [hiface, State.closeCredit_eq_foldl, State.credit_foldl_addCredit _ List.nodup_range (List.mem_range.2 hv), hsigs]
  rfl

theorem State.closeCycle_counts (s : State) {row col : Nat} (hrow : row < 12) (hcol : col < 24) :
    (s.folio row col).Counts (s.closeCycle.folio row col) (s.folioSpent (s.folio row col)) := by
  obtain ⟨_, _, _, _, _, h, -⟩ := s.closeCycle_eq_sigsClosed
  have hfolio : s.closeCycle.folio row col = s.sigsClosed.folio row col := by
    rw [h]
    rfl
  have hkeeps := s.foliosClosed.folio_foldl_closeSig_keeps (fun f => (f.busy, f.held, f.idle)) (fun _ _ => rfl) s.clocked row col
  simp only [Prod.mk.injEq] at hkeeps
  obtain ⟨hbusy, hheld, hidle⟩ := hkeeps
  rw [hfolio, State.sigsClosed, Folio.Counts, hbusy, hheld, hidle]
  exact s.foliosClosed_counts hrow hcol

theorem State.sig_closeCycle (s : State) (hs : (s.clocked.map (·.sig)).Nodup) {x : Clocked} (hx : x ∈ s.clocked) :
    s.closeCycle.sig x.sig = (s.sig x.sig).closed x (s.spentBy x) s.cycle := by
  obtain ⟨_, _, _, _, _, h, -⟩ := s.closeCycle_eq_sigsClosed
  obtain ⟨_, _, hf⟩ := s.foliosClosed_eq
  have hsig : s.closeCycle.sig x.sig = s.sigsClosed.sig x.sig := by
    rw [h]
    rfl
  rw [hsig, State.sigsClosed, State.sig_foldl_closeSig _ hs hx, State.spentBy_foliosClosed, hf]
  rfl

/-! ### How a folio spends the cycle -/

theorem State.folioSpent_idle {s : State} {f : Folio} (h : f.placed = 0 ∨ ∀ x ∈ s.clocked, x.sig + 1 ≠ f.placed) :
    s.folioSpent f = .idle := by
  unfold State.folioSpent
  split
  · rfl
  · have hnone : (s.clocked.find? fun x => x.sig + 1 == f.placed) = none :=
      List.find?_eq_none.2 fun x hx => ne_true_of_eq_false (beq_eq_false_iff_ne.2 (h.resolve_left ‹_› x hx))
    rw [hnone]

theorem State.folioSpent_eq {s : State} {f : Folio} {x : Clocked} (hx : x ∈ s.clocked) (hf : f.placed = x.sig + 1)
    (hone : ∀ y ∈ s.clocked, y.sig = x.sig → y = x) : s.folioSpent f = x.spent f.gated := by
  have hfind : (s.clocked.find? fun (y : Clocked) => y.sig + 1 == f.placed) = some x := by
    have hsome : (s.clocked.find? fun (y : Clocked) => y.sig + 1 == f.placed).isSome := List.find?_isSome.2 ⟨x, hx, beq_iff_eq.2 hf.symm⟩
    obtain ⟨y, hy⟩ := Option.isSome_iff_exists.1 hsome
    have hsame : (y.sig + 1 == f.placed) = true := List.find?_some (p := fun (y : Clocked) => y.sig + 1 == f.placed) hy
    rw [beq_iff_eq] at hsame
    rw [hy, hone y (List.mem_of_find?_eq_some hy) (by omega)]
  rw [State.folioSpent, if_neg (by omega), hfind]

/-! ### The cycle's start for a signature (R25, R189) -/

theorem Sig.heldOnly_iff (g : Sig) :
    g.heldOnly = true ↔ g.held = true ∧ (∀ w ∈ g.waves, w.inForce = false) ∧ ∀ st, g.stop = some st → st.inForce = false := by
  unfold Sig.heldOnly
  cases g.stop <;> simp [and_assoc]

theorem Spine.countedRegion_fetch {p : Spine} (h : p.phase = .fetch) : p.countedRegion = ((p.region.head?).map BitVec.toNat).getD 0 := by
  unfold Spine.countedRegion
  simp only [h]
  cases p.region <;> rfl

/-- What a cycle of a signature that stands on folios is recorded as, as it begins. -/
def State.clockedNow (s : State) (sig : Nat) : Clocked :=
  let g := s.sig sig
  let starts := g.status == .starting
  { sig, moves := s.runs sig, held := g.heldOnly, starts, sweeps := starts && decide (0 < g.sweep), frozen := g.frozen
    measured := !g.unmeasured, region := (s.spineAnywhere sig).countedRegion }

theorem State.sweeps_clockedNow (s : State) (sig : Nat) :
    (s.clockedNow sig).sweeps = true ↔ (s.sig sig).status = .starting ∧ 0 < (s.sig sig).sweep := by
  simp only [State.clockedNow, Bool.and_eq_true, beq_iff_eq, decide_eq_true_eq]

theorem State.clockSig_clocked {s : State} {sig : Nat} (h : (s.sig sig).status ≠ .saved) :
    (s.clockSig sig).clocked = s.clocked ++ [s.clockedNow sig] ∧ (s.clockSig sig).memory = s.memory := by
  unfold State.clockSig
  rw [if_neg (by simpa using h)]
  dsimp only
  split <;> exact ⟨rfl, rfl⟩

/-- Without a cycle's credit an interface's words do not move (R15). -/
theorem State.runs_eq_false_of_cut {s : State} {sig : Nat} (h : s.cut (s.sig sig).vif = true) : s.runs sig = false := by
  simp [State.runs, h]

/-! ### Precision time (R309, R310, R394) -/

theorem clampPpm_bounds {bound : Int} (h : 0 ≤ bound) (x : Int) : -bound ≤ clampPpm bound x ∧ clampPpm bound x ≤ bound := by
  unfold clampPpm; omega

theorem clampPpm_of_bounds {bound x : Int} (hl : -bound ≤ x) (hu : x ≤ bound) : clampPpm bound x = x := by
  unfold clampPpm; omega

/-- The clock after a servo correction: a forward correction is a step, a backward one is absorbed. -/
def Clock.corrected (c : Clock) (phase rate : Int) : Clock :=
  let units := 5000000 * phase.natAbs
  { c with
    ratePpm := clampPpm 1000 rate, correctable := false
    step := if 0 ≤ phase then c.step + units else c.step
    backlog := if 0 ≤ phase then c.backlog else c.backlog + units }

theorem exec_servoCorrection {s : State} (phase rate : Int) (h : s.clock.correctable = true) :
    exec (.servoCorrection phase rate) s = .next { s with clock := s.clock.corrected phase rate } := by
  change execServoCorrection phase rate s = _
  rw [execServoCorrection, if_neg (by simp [h])]
  unfold Clock.corrected
  split <;> rfl

theorem exec_servoCorrection_closed {s : State} (phase rate : Int) (h : s.clock.correctable = false) :
    exec (.servoCorrection phase rate) s = .next s := by
  change execServoCorrection phase rate s = _
  rw [execServoCorrection, if_pos (by simp [h])]

theorem Clock.step_corrected (c : Clock) (phase rate : Int) :
    (0 ≤ phase → ((c.corrected phase rate).step : Int) = c.step + 5000000 * phase)
      ∧ (phase < 0 → (c.corrected phase rate).step = c.step) := by
  unfold Clock.corrected
  constructor <;> intro h
  · simp only [if_pos h]; omega
  · simp only [if_neg (not_le.2 h)]

theorem Clock.time_add_step_le_tick (c : Clock) (early : Bool) : c.time + c.step ≤ (c.tick early).time := by
  unfold Clock.tick
  dsimp only
  omega

/-- The clock when a sync interval has passed. -/
def Clock.intervalPassed (c : Clock) : Clock :=
  let missed := if c.heard then 0 else c.missed + 1
  { c with heard := false, correctable := c.heard, missed, synced := c.synced && missed < 16 }

theorem exec_syncLoss (s : State) : exec .syncLoss s = .next { s with clock := s.clock.intervalPassed } := rfl

theorem Clock.synced_intervalPassed (c : Clock) :
    c.intervalPassed.synced = (c.synced && (c.heard || decide (c.missed < 15))) := by
  unfold Clock.intervalPassed
  have hmissed : c.missed + 1 < 16 ↔ c.missed < 15 := by omega
  cases c.heard <;> simp [hmissed]

/-- SYNC is lost with the 16th interval in a row that brings no message. -/
theorem Clock.synced_intervalPassed_lost {c : Clock} (hheard : c.heard = false) (hmissed : 15 ≤ c.missed) : c.intervalPassed.synced = false := by
  rw [Clock.synced_intervalPassed, hheard, decide_eq_false (not_lt.2 hmissed)]
  exact Bool.and_false _

theorem Clock.synced_intervalPassed_kept {c : Clock} (h : c.heard = true ∨ c.missed < 15) : c.intervalPassed.synced = c.synced := by
  rw [Clock.synced_intervalPassed]
  rcases h with h | h <;> simp [h]

theorem exec_ptpMessageReceive {s : State} {port : Nat} (offset : Int) (h : s.platform.ptpPort = port) :
    exec (.ptpMessageReceive port offset) s
      = .next { s with clock := { s.clock with heard := true, missed := 0, synced := offset.natAbs < 1000 } } := by
  change execPtpMessageReceive port offset s = _
  rw [execPtpMessageReceive, if_pos h]

theorem exec_precisionTimeMessageSend {s : State} {port : Nat} (h : s.platform.ptpPort = port) (hup : s.platform.ethUp.getLsbD port = true) :
    exec (.precisionTimeMessageSend port) s
      = .next { s with ptpSent := s.platform.ptpMessages port (Config.choice s.free) ++ s.ptpSent, free := s.free + 1 } := by
  change execPrecisionTimeMessageSend port s = _
  rw [execPrecisionTimeMessageSend, if_pos (by simp [h, hup])]

/-- A clock that may be no time transmitter sends its Delay_Req. -/
theorem Platform.ptpMessages_receiver {p : Platform} (port choice : Nat) (h : p.ethcfg.getLsbD 19 = false) :
    p.ptpMessages port choice = [(port, 0)] := by
  rw [Platform.ptpMessages, h, Bool.false_and]
  rfl

theorem Platform.ptpMessages_mem (p : Platform) (port choice : Nat) :
    p.ptpMessages port choice ∈ [[(port, 0)], [(port, 2), (port, 1)], [(port, 3)], [(port, 4)]] := by
  unfold Platform.ptpMessages
  split
  · split <;> simp
  · simp

theorem getLsbD_port_down (up : BitVec 8) (port i : Nat) :
    (up &&& ~~~(BitVec.ofNat 8 (2 ^ port))).getLsbD i = (up.getLsbD i && i != port) := by
  by_cases hi : i < 8
  · have hbit : (2 ^ port).testBit i = decide (port = i) := Nat.testBit_two_pow
    simp only [BitVec.getLsbD_and, BitVec.getLsbD_not, BitVec.getLsbD_ofNat, hi, hbit]
    by_cases he : i = port <;> simp [he, Ne.symm]
  · have hup : up.getLsbD i = false := BitVec.getLsbD_of_ge _ _ (not_lt.1 hi)
    rw [BitVec.getLsbD_and, hup, Bool.false_and, Bool.false_and]

theorem State.authenticate_badFcs (s : State) {f : Frame} (h : f.fcs = false) : s.authenticate f = (s.dropBadFcs, none) := by
  simp [State.authenticate, h]

/-- A frame with a bad FCS is dropped and counted, whatever it is (R309). -/
theorem exec_badFcs {s : State} {f : Frame} (h : f.fcs = false) {i : Instr}
    (hi : i ∈ [Instr.collGrantReceive f, .collDataFrameReceive f, .collAckReceive f]) : exec i s = .next s.dropBadFcs := by
  simp only [List.mem_cons, List.not_mem_nil, or_false] at hi
  rcases hi with rfl | rfl | rfl
  · change execCollGrantReceive f s = _
    rw [execCollGrantReceive, s.authenticate_badFcs h]
  · change execCollDataFrameReceive f s = _
    rw [execCollDataFrameReceive, s.authenticate_badFcs h]
  · change execCollAckReceive f s = _
    rw [execCollAckReceive, s.authenticate_badFcs h]

/-! ### The way of trace records (R317, R319, R343) -/

/-- An area that is not full takes a record behind the others (R318). -/
theorem TraceArea.records_insert_of_lt {a : TraceArea} {capacity : Nat} (r : TraceRecord) (place : Nat) (unsync : Bool)
    (h : a.records.length < capacity) : (a.insert capacity r false place unsync).records = a.records ++ [r] := by
  rw [TraceArea.insert, if_pos h]
  rfl

/-- The folios of a die have numbers of their own. -/
theorem dieFolio_apart {die j k : Nat} (h : j ≠ k) :
    (dieFolio die j).1 * 24 + (dieFolio die j).2 ≠ (dieFolio die k).1 * 24 + (dieFolio die k).2 := by
  unfold dieFolio
  dsimp only
  omega

/-- The records that folio k of a die has staged. -/
def State.staged (s : State) (die k : Nat) : List TraceRecord := (s.folio (dieFolio die k).1 (dieFolio die k).2).staging.records

/-- The records in a die's buffer. -/
def State.buffered (s : State) (die : Nat) : List TraceRecord := (s.dieBuffers.get DieBuffer.zero die).area.records

/-- No folio of the die but folio k has staged a record. -/
def State.OnlyStaged (s : State) (die k : Nat) : Prop := ∀ j < 32, j ≠ k → s.staged die j = []

/-- From s to t, n records of folio k, as far as it has them, have gone to the die's buffer, in their order. -/
structure Drained (s t : State) (die k n : Nat) : Prop where
  memory : t.memory = s.memory
  only : t.OnlyStaged die k
  staged : t.staged die k = (s.staged die k).drop n
  buffered : t.buffered die = s.buffered die ++ (s.staged die k).take n

theorem State.unstage_drained {s : State} {die k : Nat} (honly : s.OnlyStaged die k) (hroom : (s.buffered die).length < 131072) :
    Drained s (s.unstage die (dieFolio die k).1 (dieFolio die k).2) die k 1 := by
  cases hrec : s.staged die k with
  | nil =>
    have hsame : s.unstage die (dieFolio die k).1 (dieFolio die k).2 = s := by
      rw [State.staged] at hrec
      simp only [State.unstage, hrec]
    rw [hsame]
    exact ⟨rfl, honly, by simp [hrec], by simp [hrec]⟩
  | cons r rest =>
    have hrec' := hrec
    rw [State.staged] at hrec'
    simp only [State.unstage, hrec']
    refine ⟨rfl, fun j hj hjk => ?_, ?_, ?_⟩
    · rw [← honly j hj hjk]
      exact congrArg (fun f : Folio => f.staging.records) (State.folio_setFolio_other s _ (dieFolio_apart hjk))
    · rw [hrec]
      refine (congrArg (fun f : Folio => f.staging.records) (State.folio_setFolio s ..)).trans ?_
      simp [TraceArea.tail, hrec']
    · simp only [State.buffered, Tab.get_set_same, hrec, List.take_succ_cons, List.take_zero]
      exact TraceArea.records_insert_of_lt _ _ _ hroom

theorem Drained.refl {s : State} {die k : Nat} (honly : s.OnlyStaged die k) : Drained s s die k 0 :=
  ⟨rfl, honly, by simp, by simp⟩

theorem Drained.trans {s t u : State} {die k m n : Nat} (h : Drained s t die k m) (h' : Drained t u die k n) : Drained s u die k (m + n) where
  memory := h'.memory.trans h.memory
  only := h'.only
  staged := by rw [h'.staged, h.staged, List.drop_drop]
  buffered := by rw [h'.buffered, h.buffered, h.staged, List.append_assoc, ← List.take_add]

theorem Drained.length_buffered_le {s t : State} {die k n : Nat} (h : Drained s t die k n) :
    (t.buffered die).length ≤ (s.buffered die).length + n := by
  rw [h.buffered, List.length_append, List.length_take]
  omega

/-- The round-robin position of a die's drain is set. -/
def State.setTurn (s : State) (die turn : Nat) : State :=
  { s with dieBuffers := s.dieBuffers.set DieBuffer.zero die { s.dieBuffers.get DieBuffer.zero die with turn } }

theorem State.setTurn_drained {s : State} {die k : Nat} (turn : Nat) (honly : s.OnlyStaged die k) : Drained s (s.setTurn die turn) die k 0 :=
  ⟨rfl, honly, rfl, by simp [State.buffered, State.setTurn]⟩

/-- A drain does nothing, or takes a record of a folio that has staged one, which a flush or the round-robin finds. -/
theorem State.drainOne_cases (s : State) (die : Nat) :
    ((∀ k < 32, s.staged die k = []) ∧ s.drainOne die = s)
    ∨ ∃ k < 32, s.staged die k ≠ [] ∧ ∃ u, (u = s ∨ ∃ turn, u = s.setTurn die turn)
        ∧ s.drainOne die = u.unstage die (dieFolio die k).1 (dieFolio die k).2 := by
  have hfull : ∀ k, (!(s.staged die k).isEmpty) = true → s.staged die k ≠ [] := fun k h => by simpa using h
  unfold State.drainOne
  dsimp only
  split
  case h_1 k hk =>
    have hlt : k < 32 := List.mem_range.1 (List.mem_of_find?_eq_some hk)
    have hand := List.find?_some hk
    exact .inr ⟨k, hlt, hfull k (Bool.and_eq_true_iff.1 hand).1, s, .inl rfl, rfl⟩
  case h_2 =>
    split
    case h_1 hnone =>
      refine .inl ⟨fun k hk => ?_, rfl⟩
      have hseen : k ∈ (List.range 32).map fun i => ((s.dieBuffers.get DieBuffer.zero die).turn + i) % 32 :=
        List.mem_map.2 ⟨(k + 32 - (s.dieBuffers.get DieBuffer.zero die).turn % 32) % 32, List.mem_range.2 (by omega), by omega⟩
      simpa [State.staged] using List.find?_eq_none.1 hnone k hseen
    case h_2 k hk =>
      obtain ⟨i, -, hi⟩ := List.mem_map.1 (List.mem_of_find?_eq_some hk)
      have hsome := List.find?_some hk
      have hlt : k < 32 := hi ▸ Nat.mod_lt _ (by decide)
      exact .inr ⟨k, hlt, hfull k hsome, _, .inr ⟨(k + 1) % 32, rfl⟩, rfl⟩

theorem State.drainOne_drained {s : State} {die k : Nat} (honly : s.OnlyStaged die k) (hk : k < 32)
    (hroom : (s.buffered die).length < 131072) : Drained s (s.drainOne die) die k 1 := by
  rcases s.drainOne_cases die with ⟨hempty, h⟩ | ⟨j, hj, hfull, u, hu, h⟩
  · rw [h]
    exact ⟨rfl, honly, by simp [hempty k hk], by simp [hempty k hk]⟩
  · obtain rfl : j = k := by_contra fun hne => hfull (honly j hj hne)
    have hturn : Drained s u die j 0 := by
      rcases hu with rfl | ⟨turn, rfl⟩
      · exact .refl honly
      · exact State.setTurn_drained turn honly
    rw [h, ← Nat.zero_add 1]
    exact hturn.trans (State.unstage_drained hturn.only (hturn.length_buffered_le.trans_lt hroom))

theorem State.foldl_drainOne_drained {s : State} {die k : Nat} (honly : s.OnlyStaged die k) (hk : k < 32) (n : Nat)
    (hroom : (s.buffered die).length + n ≤ 131072) : Drained s ((List.range n).foldl (fun s _ => s.drainOne die) s) die k n := by
  induction n with
  | zero => exact .refl honly
  | succ n ih =>
    have hn := ih (by omega)
    rw [List.range_succ, List.foldl_append, List.foldl_cons, List.foldl_nil]
    have hle := hn.length_buffered_le
    exact hn.trans (State.drainOne_drained hn.only hk (by omega))

/-- A die buffer takes up to eight records of the folio in a cycle (R317). -/
theorem exec_traceStageDrain {s : State} {die k : Nat} (honly : s.OnlyStaged die k) (hk : k < 32)
    (hroom : (s.buffered die).length + 64 ≤ 131072) : ∃ t, exec (.traceStageDrain die) s = .next t ∧ Drained s t die k 8 :=
  ⟨_, rfl, State.foldl_drainOne_drained honly hk 8 (by omega)⟩

/-- The oldest record of a die's buffer goes to the ring where there is room (R317, R343). -/
theorem exec_traceRingCopy {s : State} {die : Nat} {r : TraceRecord} {rest : List TraceRecord} (hkeys : s.keysServed = true)
    (hrec : s.buffered die = r :: rest) (hroom : (s.platform.tringWrite - s.platform.tringRead).toNat ≠ 2 ^ 23) :
    ∃ t, exec (.traceRingCopy die) s = .next t ∧ t.buffered die = rest ∧ t.platform.tringWrite = s.platform.tringWrite + 1
      ∧ t.platform.ring.get 0 (s.platform.tringWrite.toNat % 2 ^ 23) = r ∧ t.memory = s.memory := by
  rw [State.buffered] at hrec
  have hexec : exec (.traceRingCopy die) s = execTraceRingCopy die s := rfl
  rw [hexec, execTraceRingCopy, if_neg (by simpa [hkeys] using hroom), hrec]
  refine ⟨_, rfl, ?_, rfl, Tab.get_set_same .., rfl⟩
  simp [State.buffered, TraceArea.tail, hrec]

/-! ### The obligation -/

theorem step_startSig {s : State} {sig : Nat} {rest : List Task} (h : s.agenda = .startSig sig :: rest) :
    step s = .next (({ s with agenda := rest } : State).clockSig sig) := by
  rw [step, h]
  rfl

/-- What the step that ends a wall cycle does (R15, R25, R39, R40). -/
theorem step_endCycle {s : State} {rest : List Task} (h : s.agenda = .endCycle :: rest) :
    ∃ t, step s = .next t ∧ (t.agenda = rest ∧ t.cycle = s.cycle + 1 ∧ t.clocked = [] ∧ t.memory = s.memory)
      ∧ (∀ v < 64, (t.iface v).credit = ((s.iface v).credit + s.shareOf v) % 2 ^ 32)
      ∧ (∀ row < 12, ∀ col < 24, (s.folio row col).Counts (t.folio row col) (s.folioSpent (s.folio row col)))
      ∧ ∀ x ∈ s.clocked, (s.clocked.map (·.sig)).Nodup → t.sig x.sig = (s.sig x.sig).closed x (s.spentBy x) s.cycle := by
  let u : State := { s with agenda := rest }
  have hstep : step s = .next u.closeCycle := by
    rw [step, h]
    rfl
  have hspent : ∀ f, u.folioSpent f = s.folioSpent f := fun _ => rfl
  have hspentBy : ∀ x, u.spentBy x = s.spentBy x := fun _ => rfl
  refine ⟨u.closeCycle, hstep, u.closeCycle_frame, fun v hv => u.credit_closeCycle hv, fun row hrow col hcol => ?_, fun x hx hnodup => ?_⟩
  · have hcounts := u.closeCycle_counts hrow hcol
    rw [hspent] at hcounts
    exact hcounts
  · have hclosed := u.sig_closeCycle hnodup hx
    rw [hspentBy] at hclosed
    exact hclosed

/-- Settles O49: the lemmas on the start of a signature's cycle, the end of a cycle, the clock and the way of trace records, put together. -/
theorem timeAndTrace : Obligations.TimeAndTrace := by
  unfold Obligations.TimeAndTrace
  refine ⟨fun s rest sig => ⟨fun hcut => State.runs_eq_false_of_cut (decide_eq_true hcut), fun hagenda hsaved => ?_⟩,
    fun s rest hagenda => ?_, fun s => ?_, fun s die => ?_⟩
  · obtain ⟨hclocked, hmemory⟩ := State.clockSig_clocked (s := { s with agenda := rest }) (sig := sig) hsaved
    exact ⟨_, _, step_startSig hagenda, hclocked, rfl, rfl, hmemory, Sig.heldOnly_iff _, beq_iff_eq, State.sweeps_clockedNow _ _, rfl,
      Spine.countedRegion_fetch⟩
  · obtain ⟨t, hstep, ⟨hrest, hcycle, hclocked, hmemory⟩, hcredit, hfolios, hsigs⟩ := step_endCycle hagenda
    refine ⟨t, hstep, hrest, hcycle, hclocked, hmemory, hcredit, fun row hrow col hcol => ?_,
      fun x hx hnodup busy held ⟨hbusy, hheld⟩ hsaved => ?_⟩
    · have hcounts := hfolios row hrow col hcol
      refine ⟨fun hidle => ?_, fun x hx hplaced hone busy held ⟨hbusy, hheld⟩ => ?_⟩
      · rw [State.folioSpent_idle hidle] at hcounts
        exact hcounts.flags (by decide) (by decide) (by decide)
      · rw [State.folioSpent_eq hx hplaced hone] at hcounts
        obtain ⟨hb, hh, hi⟩ := Clocked.spent_iff hbusy hheld
        exact hcounts.flags hb hh hi
    · obtain ⟨hb, hh, hi⟩ := State.spentBy_iff hbusy hheld
      rw [hsigs x hx hnodup]
      refine ⟨fun hx hg => ⟨Sig.time_closed _ _ hsaved hx hg, ?_⟩, fun hcounts => ?_⟩
      · rw [Sig.hold_closed _ _ hsaved hx hg]
        simp only [hh]
      rw [Sig.regions_closed _ _ hsaved hcounts]
      refine ⟨fun hnotBusy hnotHeld => ?_, fun hmoves => ?_⟩
      · rw [hi.2 (by rw [hnotBusy, hnotHeld]; rfl), countRegion_idle]
      have hspent : s.spentBy x ≠ .idle := by
        rw [Ne, hi]
        rcases hmoves with h | h <;> simp [h]
      have hcounted := fun c : RegionCount => c.bump_flags s.cycle hb hh
      refine ⟨fun hlen k => ?_, fun hlen _ h0 hr d hd hd0 hmin => ?_⟩
      · rw [get_countRegion_of_lt hspent hlen, hcounted]
      · have hfull := get_countRegion_of_full (cycle := s.cycle) hspent hlen h0 hr hd hd0 hmin
        dsimp only at hfull
        rw [hcounted] at hfull
        exact hfull
  · refine ⟨fun port _ => ⟨_, rfl, getLsbD_port_down _ port⟩, fun port offset => exec_ptpMessageReceive offset, fun phase rate hc => ?_,
      fun early => ⟨rfl, s.clock.time_add_step_le_tick early⟩, fun phase rate => exec_servoCorrection_closed phase rate, ?_,
      fun port hport hup => ?_, fun f hf i hi => exec_badFcs hf hi⟩
    · obtain ⟨hlow, hhigh⟩ := clampPpm_bounds (bound := 1000) (by decide) rate
      obtain ⟨hforward, hback⟩ := s.clock.step_corrected phase rate
      exact ⟨_, exec_servoCorrection phase rate hc, hlow, hhigh, clampPpm_of_bounds, rfl, hforward, hback, rfl⟩
    · exact ⟨_, exec_syncLoss s, rfl, rfl, rfl, Clock.synced_intervalPassed_lost, Clock.synced_intervalPassed_kept⟩
    · exact ⟨_, exec_precisionTimeMessageSend hport hup, Platform.ptpMessages_receiver _ _, Platform.ptpMessages_mem ..⟩
  · refine ⟨fun _ k hk hempty hroom => ?_, fun r rest hkeys hrec hroom => exec_traceRingCopy hkeys hrec hroom⟩
    obtain ⟨t, hexec, hdrained⟩ := exec_traceStageDrain hempty hk hroom
    exact ⟨t, hexec, hdrained.memory, hdrained.staged, hdrained.buffered⟩

end Sys2Proof.Machine

/-!
PROOFS. What a step runs (R18, R126, R128), what a reset leaves (R61, R331), and two statements that fail: a word that ends a launch while a stop is
to come (R138, R353), and the save of a launch that ends by fault (R41, R355).
-/

namespace Sys2Proof.Machine

/-! ### Decoded words (R137, R138) -/

/-- A word decodes by its header, to what its two slots decode to in the maps of its kind. -/
theorem decodeWord_slots {w : SchedWord} {h : Header} {a b : Instr} (hw : decodeWord w = .word h a b) :
    h = SchedWord.header w ∧ decodeSlot (slotMaps h.spine).1 (SchedWord.slotA w) = .instr a
      ∧ decodeSlot (slotMaps h.spine).2 (SchedWord.slotB w) = .instr b := by
  unfold decodeWord at hw
  dsimp only at hw
  split at hw
  · cases hw
  split at hw
  case h_1 ha hb =>
    cases hw
    exact ⟨rfl, ha, hb⟩
  all_goals cases hw

/-- The instruction of a word as the opcode table's rows give it: slot A's, or slot B's where slot A holds a NOP. -/
theorem decodeTableWord_eq_some {nbits w : Nat} {i : Instr} (hi : decodeTableWord nbits w = some i) :
    ∃ h a b, decodeWord (BitVec.ofNat 128 (w % 2 ^ nbits)) = .word h a b ∧ i = if a = .nop then b else a := by
  unfold decodeTableWord at hi
  split at hi
  case h_1 h b hword =>
    cases hi
    exact ⟨h, .nop, _, hword, by simp⟩
  case h_2 h a b hnop hword =>
    cases hi
    refine ⟨h, _, b, hword, ?_⟩
    rw [if_neg hnop]
  case h_3 => cases hi

/-! ### One step (R18, R126, R128) -/

theorem step_elemSlot {s : State} {rest : List Task} {slotB : Bool} {i : Instr} (h : s.agenda = .elemSlot slotB :: rest)
    (hi : s.focus.slot slotB = .instr i) : step s = exec i { s with agenda := rest, focus := { s.focus with slotB } } := by
  rw [step, h]
  simp only [runTask, State.runElemSlot, hi]
  rfl

theorem step_spineSlot {s : State} {rest : List Task} {slotB : Bool} {i : Instr} (h : s.agenda = .spineSlot slotB :: rest)
    (hat : s.here.atSlot slotB = true) (hi : s.here.slot slotB = .instr i) :
    step s = exec i { s with agenda := rest, focus := { Focus.idle with sig := s.focus.sig, spine := true, slotB, word := s.here.ir } } := by
  have hhere : ({ s with agenda := rest } : State).here = s.here := rfl
  rw [step, h]
  simp only [runTask, State.runSpineSlot, hhere, hat, hi, Bool.not_true, Bool.false_eq_true, if_false]

theorem step_event {s : State} {rest : List Task} {i : Instr} (h : s.agenda = .event i :: rest) : step s = exec i { s with agenda := rest } := by
  rw [step, h]
  rfl

/-- A fabric word stands in focus at its first slot. -/
theorem State.withFetchWord_fabric (s : State) {nbits w : Nat} {h : Header} {a b : Instr}
    (hword : decodeWord (BitVec.ofNat 128 (w % 2 ^ nbits)) = .word h a b) (hspine : h.spine = false) :
    (s.withFetchWord nbits w).agenda = slotsOf a (.elemSlot false) (.elemSlot true) .elemLeave
      ∧ (s.withFetchWord nbits w).focus.word = BitVec.ofNat 128 (w % 2 ^ nbits) := by
  unfold State.withFetchWord
  simp only [hword, hspine, Bool.false_eq_true, if_false, and_self]

/-- A spine word stands at its first slot, in focus and in the lead spine. -/
theorem State.withFetchWord_spine (s : State) {nbits w : Nat} {h : Header} {a b : Instr}
    (hword : decodeWord (BitVec.ofNat 128 (w % 2 ^ nbits)) = .word h a b) (hspine : h.spine = true) :
    let u := s.withFetchWord nbits w
    u.agenda = slotsOf a (.spineSlot false) (.spineSlot true) .spineLeave
      ∧ u.focus = { Focus.idle with sig := 1, spine := true, word := BitVec.ofNat 128 (w % 2 ^ nbits) }
      ∧ u.here.phase = (if a = .nop then .slotB else .slotA) ∧ u.here.ir = BitVec.ofNat 128 (w % 2 ^ nbits) := by
  unfold State.withFetchWord
  simp only [hword, hspine, if_true, State.here, State.spineOf, State.folio, State.sig, State.withLaunch, Sig.unused, Tab.get_set_same, and_self]

/-- The state that holds a word performs the word's instruction next. -/
theorem State.step_withFetchWord (s : State) {nbits w : Nat} {i : Instr} (hi : decodeTableWord nbits w = some i) :
    let u := s.withFetchWord nbits w
    ∃ slotB, step u = exec i { u with agenda := u.agenda.tail, focus := { u.focus with slotB } } := by
  obtain ⟨h, a, b, hword, rfl⟩ := decodeTableWord_eq_some hi
  obtain ⟨hheader, ha, hb⟩ := decodeWord_slots hword
  intro u
  cases hspine : h.spine
  case false =>
    obtain ⟨hagenda, hfocus⟩ := s.withFetchWord_fabric hword hspine
    rw [hspine, ← hfocus] at ha hb
    by_cases hnop : a = .nop
    · have hnext : u.agenda = .elemSlot true :: u.agenda.tail := by rw [hagenda, slotsOf, if_pos hnop]; rfl
      exact ⟨true, if_pos hnop ▸ step_elemSlot hnext hb⟩
    · have hnext : u.agenda = .elemSlot false :: u.agenda.tail := by rw [hagenda, slotsOf, if_neg hnop]; rfl
      exact ⟨false, if_neg hnop ▸ step_elemSlot hnext ha⟩
  case true =>
    obtain ⟨hagenda, hfocus, hphase, hir⟩ := s.withFetchWord_spine hword hspine
    have hsame (slotB : Bool) : { u.focus with slotB } = { Focus.idle with sig := u.focus.sig, spine := true, slotB, word := u.here.ir } := by
      rw [hfocus, hir]
    rw [hspine, ← hir] at ha hb
    by_cases hnop : a = .nop
    · have hnext : u.agenda = .spineSlot true :: u.agenda.tail := by rw [hagenda, slotsOf, if_pos hnop]; rfl
      have hat : u.here.atSlot true = true := by rw [Spine.atSlot, hphase, if_pos hnop]
      exact ⟨true, if_pos hnop ▸ hsame true ▸ step_spineSlot hnext hat hb⟩
    · have hnext : u.agenda = .spineSlot false :: u.agenda.tail := by rw [hagenda, slotsOf, if_neg hnop]; rfl
      have hat : u.here.atSlot false = true := by rw [Spine.atSlot, hphase, if_neg hnop]; rfl
      exact ⟨false, if_neg hnop ▸ hsame false ▸ step_spineSlot hnext hat ha⟩

/-- Settles O4: each kind of task, and the state that holds a word. -/
theorem stepRunsTheDecodedInstruction : Obligations.StepRunsTheDecodedInstruction := by
  unfold Obligations.StepRunsTheDecodedInstruction
  exact ⟨fun _ _ _ _ => step_elemSlot, fun _ _ _ _ => step_spineSlot, fun _ _ _ => step_event, fun s _ _ _ => s.step_withFetchWord⟩

/-! ### Reset (R33, R61, R91, R120, R270, R279, R310, R331, R339, R341) -/

/-- Settles O6: each part is a field of the reset state, or the default of a table that holds no entry yet. -/
theorem resetValues : Obligations.ResetValues := by
  unfold Obligations.ResetValues
  have hfolio (row col : Nat) : State.reset.folio row col = Folio.zero := rfl
  have hiface (v : Nat) : State.reset.iface v = Iface.zero := rfl
  have hslot (k : Nat) : State.reset.keySlot k = KeySlot.free := rfl
  refine ⟨rfl, rfl, rfl, rfl, rfl, rfl, rfl, rfl, rfl, rfl, rfl, rfl, fun row col => ⟨rfl, ?_⟩, fun v => ?_, fun k => ?_⟩
  · rw [hfolio]
    exact ⟨rfl, rfl, rfl, rfl, rfl, rfl⟩
  · rw [hiface]
    exact ⟨rfl, rfl, rfl, rfl⟩
  · rw [hslot]
    exact ⟨rfl, rfl⟩

/-! ### A marker word under a stop that is to come (R138, R352, R353) -/

/-- A launch whose next word is a marker word, with an element's fault noted for a stop that takes effect at wall cycle 12 (R352). -/
def markerUnderStop : State :=
  let s := State.reset.withLaunch { Spine.zero with fetched := [(0, SchedWord.marker.setWidth 512)] }
  s.setSig 1 { s.sig 1 with stop := some ⟨12, [⟨0x10, 0, 0, 1, 0, 0, 0, 0, 0, 0⟩], false, none⟩ }

/-- The faults noted for the end of a launch, in the state that a step gives. -/
def notesAfter (o : Host.Outcome State Fault Refusal) (sig : Nat) : Option (List FaultNote) :=
  match o with
  | .next t => some (t.sig sig).notes
  | _ => none

/-- The launch that ends takes over the fault of the stop that did not take effect, to record it as it ends (R353). -/
theorem notesAfter_markerUnderStop :
    notesAfter (exec (.spineEmitWord 1) markerUnderStop) 1 = some [⟨0x10, 0, 0, 1, 0, 0, 0, 0, 0, 0⟩] := by
  decide +kernel

/-- Refutes O5: a word that ends the launch leaves the signature's notes as they were, as the statement has it, only where no stop is to come. A
marker word under a stop that has not taken effect adds the stop's faults to them (Sig.doomed). -/
theorem not_wordIssue : ¬ Obligations.WordIssue := by
  unfold Obligations.WordIssue
  rintro ⟨hissue, -⟩
  have hruns : markerUnderStop.runs 1 = true := by decide +kernel
  have hfetch : (markerUnderStop.spineOf 1).phase = .fetch := by decide +kernel
  have hhere : markerUnderStop.codeBlock 1 ((markerUnderStop.spineOf 1).pc.toNat / 64) = .here (SchedWord.marker.setWidth 512) := by decide +kernel
  obtain ⟨-, hmarker, -⟩ := hissue markerUnderStop 1 _ hruns hfetch (by decide +kernel) (by decide +kernel) (by decide +kernel) hhere
  obtain ⟨t, hexec, hsig, -⟩ := hmarker (by decide +kernel)
  have hnotes := notesAfter_markerUnderStop
  rw [hexec, notesAfter, hsig] at hnotes
  exact absurd hnotes (by decide +kernel)

/-! ### A save of a launch that ends by fault (R34, R41, R355) -/

/-- A running launch that a pre-emption's wave has frozen (R41), with the mark of one that ends by fault. No run reaches it, since the mark comes
with the drain (Sig.doomed); the statement does not exclude it. -/
def doomedUnderWave : State :=
  let s := State.reset.withLaunch Spine.zero
  s.setSig 1 { s.sig 1 with waves := [⟨.preempt, 0, true, false⟩], byFault := true }

/-- The queue of an interface in the state that a step gives. -/
def queueAfter (o : Host.Outcome State Fault Refusal) (vif : Nat) : Option (List Queued) :=
  match o with
  | .next t => some (t.iface vif).queue
  | _ => none

/-- A launch that ends by fault does not return to its queue once it is saved (State.returnGang). -/
theorem queueAfter_imageSave_doomed : queueAfter (exec (.imageSave 1) doomedUnderWave) 0 = some [] := by decide +kernel

/-- No record waits for the room that the save makes. -/
theorem noCause_doomedUnderWave :
    ((doomedUnderWave.saveImage 1).blockingRecord.or ((doomedUnderWave.saveImage 1).causeRecord [1])).isNone = true := by
  decide +kernel

/-- Refutes O46: its first clause has every pre-empted running launch head its queue once it is saved, also one that bears the mark of a launch that
ends by fault, which is not to be placed again. -/
theorem not_launchesAndPlanes : ¬ Obligations.LaunchesAndPlanes := by
  unfold Obligations.LaunchesAndPlanes
  rintro ⟨hlaunches, -⟩
  obtain ⟨hsave, -⟩ := hlaunches doomedUnderWave 1
  have hvif : (doomedUnderWave.sig 1).vif = 0 := by decide +kernel
  have hwaves : (doomedUnderWave.sig 1).waves = [⟨.preempt, 0, true, false⟩] := by decide +kernel
  have hmove : doomedUnderWave.pendingMove 1 = none := by decide +kernel
  have hseam : doomedUnderWave.atSeamWord 1 = false := by decide +kernel
  have hcause : ∀ x, (doomedUnderWave.saveImage 1).blockingRecord.or ((doomedUnderWave.saveImage 1).causeRecord [1]) = some x →
      (doomedUnderWave.saveImage 1).placeGroup x.1 x.2 = none := by
    rw [Option.isNone_iff_eq_none.1 noCause_doomedUnderWave]
    rintro x ⟨⟩
  obtain ⟨t, q, rest, hexec, -, -, -, -, -, -, hqueue, -⟩ := hsave _ (by decide +kernel) hwaves rfl rfl (by decide +kernel)
    (by decide +kernel) (by decide +kernel) hmove hseam (by decide +kernel) (by decide +kernel) hcause
  have hempty := queueAfter_imageSave_doomed
  rw [hexec, queueAfter, ← hvif, hqueue] at hempty
  cases hempty

end Sys2Proof.Machine

/-!
PROOFS. How a spine leaves a word: the idle slots of its cycles, the loop's start, a transfer's target or the next word (R18, R157, R163), and what a
debug stop behind the word may change (R322).
-/

namespace Sys2Proof.Machine

/-! ### The lead spine under changes of its signature -/

/-- A change of a signature that leaves its corner leaves its lead spine. -/
theorem State.spineOf_setSig (s : State) {sig : Nat} {g : Sig} (hrow : g.row0 = (s.sig sig).row0) (hcol : g.col0 = (s.sig sig).col0) :
    (s.setSig sig g).spineOf sig = s.spineOf sig := by
  simp [State.spineOf, hrow, hcol]

theorem State.sig_count (s : State) (sig event n m : Nat) : (s.count sig event n).sig m = s.sig m := rfl

theorem Spine.captures_eq (p : Spine) (event n : Nat) : ∃ capture, p.capture_ event n = { p with capture } := by
  unfold Spine.capture_
  dsimp only
  split
  · exact ⟨p.capture, rfl⟩
  · exact ⟨_, rfl⟩

/-- Counting an event changes the capture counters alone. -/
theorem State.spineOf_count (s : State) (sig event n : Nat) :
    ∃ capture, (s.count sig event n).spineOf sig = { s.spineOf sig with capture } := by
  obtain ⟨capture, h⟩ := (s.spineOf sig).captures_eq event n
  exact ⟨capture, by rw [State.count, State.spineOf_setSpineOf, h]⟩

/-! ### What a debug stop may change (R322) -/

/-- Of the spines, the signatures and memory, a debug stop changes waves of signatures and the breakpoint of a spine. -/
structure State.DebugChanged (s t : State) : Prop where
  memory : t.memory = s.memory
  focus : t.focus = s.focus
  sig : ∀ n, ∃ waves, t.sig n = { s.sig n with waves }
  folio : ∀ r c, ∃ breakpoint, t.folio r c = { s.folio r c with spine := { (s.folio r c).spine with breakpoint } }

namespace State.DebugChanged

variable {s t u : State}

theorem refl (s : State) : s.DebugChanged s := ⟨rfl, rfl, fun _ => ⟨_, rfl⟩, fun _ _ => ⟨_, rfl⟩⟩

theorem trans (h : s.DebugChanged t) (h' : t.DebugChanged u) : s.DebugChanged u where
  memory := h'.memory.trans h.memory
  focus := h'.focus.trans h.focus
  sig n := by
    obtain ⟨_, hn⟩ := h.sig n
    obtain ⟨w, hn'⟩ := h'.sig n
    exact ⟨w, by rw [hn', hn]⟩
  folio r c := by
    obtain ⟨_, hrc⟩ := h.folio r c
    obtain ⟨b, hrc'⟩ := h'.folio r c
    exact ⟨b, by rw [hrc', hrc]⟩

theorem spineOf (h : s.DebugChanged t) (sig : Nat) : ∃ breakpoint, t.spineOf sig = { s.spineOf sig with breakpoint } := by
  obtain ⟨_, hsig⟩ := h.sig sig
  obtain ⟨b, hfolio⟩ := h.folio (s.sig sig).row0 (s.sig sig).col0
  exact ⟨b, by simp only [State.spineOf, hsig, hfolio]⟩

end State.DebugChanged

theorem State.requestWave_debugChanged (s : State) (sig : Nat) (cause : WaveCause) : s.DebugChanged (s.requestWave sig cause) where
  memory := rfl
  focus := rfl
  sig n := by
    by_cases hn : n = sig
    · subst hn
      exact ⟨_, State.sig_setSig ..⟩
    · exact ⟨_, State.sig_setSig_other _ _ hn⟩
  folio _ _ := ⟨_, rfl⟩

theorem State.traceDie_eq (s : State) (die vif signum : Nat) (regions : List (BitVec 16)) (event cls payload : Nat) :
    ∃ dieBuffers, s.traceDie die vif signum regions event cls payload = { s with dieBuffers } := by
  unfold State.traceDie
  dsimp only
  split
  · exact ⟨_, rfl⟩
  · exact ⟨_, rfl⟩

theorem State.debugStop_debugChanged (s : State) (vif cause code : Nat) : s.DebugChanged (s.debugStop vif cause code) := by
  unfold State.debugStop
  split
  · exact .refl s
  extract_lets _ u v
  have hu : s.DebugChanged u := ⟨rfl, rfl, fun _ => ⟨_, rfl⟩, fun _ _ => ⟨_, rfl⟩⟩
  have hv : s.DebugChanged v :=
    List.foldlRecOn (motive := s.DebugChanged) u.placedSigs _ hu fun t ht n _ => ht.trans (t.requestWave_debugChanged n .debug)
  obtain ⟨dieBuffers, hdie⟩ := v.traceDie_eq 4 vif 0 [] 0x0030 3 (code % 2 ^ 16 + cause % 4 * 2 ^ 16)
  rw [hdie]
  exact ⟨hv.memory, hv.focus, hv.sig, hv.folio⟩

theorem State.setSpineOf_debugChanged (s : State) (sig : Nat) (breakpoint : Bool) :
    s.DebugChanged (s.setSpineOf sig { s.spineOf sig with breakpoint }) where
  memory := rfl
  focus := rfl
  sig _ := ⟨_, rfl⟩
  folio r c := by
    by_cases hrc : r * 24 + c = (s.sig sig).row0 * 24 + (s.sig sig).col0
    · refine ⟨breakpoint, ?_⟩
      have hsame : s.folio r c = s.folio (s.sig sig).row0 (s.sig sig).col0 := by rw [State.folio, State.folio, hrc]
      rw [State.setSpineOf, State.folio, hrc, ← State.folio, State.folio_setFolio, hsame]
      rfl
    · exact ⟨_, State.folio_setFolio_other _ _ hrc⟩

theorem State.debugStopAt_debugChanged (s : State) (sig vif cause code : Nat) : s.DebugChanged (s.debugStopAt sig vif cause code) := by
  unfold State.debugStopAt
  split
  · exact .refl s
  · exact (s.debugStop_debugChanged vif cause code).trans (State.setSpineOf_debugChanged _ sig true)

theorem State.breakAfter_debugChanged (s : State) (sig : Nat) (code : Option Nat) : s.DebugChanged (s.breakAfter sig code) := by
  unfold State.breakAfter
  cases code with
  | none => exact .refl s
  | some c =>
    dsimp only
    split
    · exact s.debugStopAt_debugChanged ..
    · exact .refl s

theorem State.debugger_debugChanged (s : State) (debugger : Debug) : s.DebugChanged { s with debugger } :=
  ⟨rfl, rfl, fun _ => ⟨_, rfl⟩, fun _ _ => ⟨_, rfl⟩⟩

theorem State.takeHit_debugChanged (s : State) (sig : Nat) : s.DebugChanged (s.takeHit sig) := by
  unfold State.takeHit
  dsimp only
  split
  case isFalse => exact .refl s
  split
  case isFalse => exact s.debugger_debugChanged _
  split
  · exact (s.debugger_debugChanged _).trans (State.debugStopAt_debugChanged ..)
  · exact .refl s

/-! ### The end of a word (R163) -/

theorem Spine.nextPc_of_none {p : Spine} (h : p.levelAt p.pc none = none) :
    p.nextPc = { p with pc := p.target.getD (p.pc + 16), target := none } := by
  unfold Spine.nextPc
  rw [h]

/-- The bits of a number of four bits, each given by a Bool. -/
theorem getLsbD_fourBits (bit : Nat → Bool) {k : Nat} (hk : k < 4) :
    (BitVec.ofNat 4 ((List.range 4).foldl (fun acc i => acc + (if bit i then 2 ^ i else 0)) 0)).getLsbD k = bit k := by
  have hbits : ∀ b : Fin 4 → Bool, ∀ k : Fin 4,
      (BitVec.ofNat 4 ((List.finRange 4).foldl (fun acc i => acc + (if b i then 2 ^ i.val else 0)) 0)).getLsbD k = b k := by decide
  exact hbits (fun i => bit i) ⟨k, hk⟩

theorem Spine.getLsbD_setActive (p : Spine) {l k : Nat} (on : Bool) (hk : k < 4) :
    (p.setActive l on).lact.getLsbD k = if k = l then on else p.lact.getLsbD k :=
  getLsbD_fourBits (fun i => if i = l then on else p.lact.getLsbD i) hk

/-- At the end of an iteration of a level one iteration less is left, and the level's start is next, or, after the last one, the next word. -/
theorem Spine.nextPc_of_some {p : Spine} {l : Nat} (h : p.levelAt p.pc none = some l) :
    p.nextPc.lc.get 0 l = p.lc.get 0 l - 1
      ∧ p.nextPc.pc = (if p.lc.get 0 l = 1 then p.pc + 16 else p.lstart.get 0 l)
      ∧ ∀ k < 4, p.nextPc.lact.getLsbD k = (p.lact.getLsbD k && !(k == l && p.lc.get 0 l == 1)) := by
  have hlast : p.lc.get 0 l - 1 = 0 ↔ p.lc.get 0 l = 1 := by bv_omega
  unfold Spine.nextPc
  rw [h]
  dsimp only
  by_cases h1 : p.lc.get 0 l = 1
  · rw [if_pos (hlast.2 h1), if_pos h1]
    refine ⟨?_, rfl, fun k hk => ?_⟩
    · exact Tab.get_set_same ..
    · refine (Spine.getLsbD_setActive _ _ hk).trans ?_
      rw [h1]
      by_cases hkl : k = l <;> simp [hkl]
  · rw [if_neg (mt hlast.1 h1), if_neg h1]
    refine ⟨Tab.get_set_same .., rfl, fun k _ => ?_⟩
    rw [beq_eq_false_iff_ne.2 h1, Bool.and_false, Bool.not_false, Bool.and_true]

/-! ### Idle slots and the end of a spine word (R18, R157) -/

/-- An idle slot enters the flight with the signature's T; of the spine only capture counters change. -/
theorem State.emitIdle_spec (s : State) (sig : Nat) (le : BitVec 3) :
    ∃ slot : InFlight, slot.n = (s.sig sig).time ∧ slot.word = SchedWord.idle le
      ∧ (s.emitIdle sig le).sig sig = { s.sig sig with flight := (s.sig sig).flight ++ [slot] }
      ∧ (∃ capture, (s.emitIdle sig le).spineOf sig = { s.spineOf sig with capture }) ∧ (s.emitIdle sig le).memory = s.memory := by
  have hspine : (s.putSlot sig (SchedWord.idle le)).spineOf sig = s.spineOf sig := s.spineOf_setSig rfl rfl
  obtain ⟨capture, hcount⟩ := (s.putSlot sig (SchedWord.idle le)).spineOf_count sig 2 1
  exact ⟨_, rfl, rfl, (State.sig_count ..).trans (State.sig_setSig ..), ⟨capture, hspine ▸ hcount⟩, rfl⟩

/-- The last idle slot of a spine word is sent, the word counts, and issue goes on. -/
theorem State.spineOut_of_leave {s : State} {sig : Nat} (hphase : (s.spineOf sig).phase = .leave) (hidles : (s.spineOf sig).idles = 0)
    (hending : (s.sig sig).ending = false) :
    let u := (s.emitIdle sig (SchedWord.header (s.spineOf sig).ir).le).count sig 3 1
    let p := (u.spineOf sig).nextPc
    s.spineOut sig = (u.setSpineOf sig { p with phase := .fetch, waiting := false, bkpt := none }).breakAfter sig p.bkpt := by
  obtain ⟨_, -, -, hsig, -⟩ := s.emitIdle_spec sig (SchedWord.header (s.spineOf sig).ir).le
  unfold State.spineOut
  simp only [hphase, hidles, if_true, State.sig_count, hsig, hending, Bool.false_eq_true, if_false]

/-- What leaving a spine word does (R18, R157, R163). -/
theorem State.spineOut_leave {s : State} {sig : Nat} (hphase : (s.spineOf sig).phase = .leave) (hidles : (s.spineOf sig).idles = 0)
    (hending : (s.sig sig).ending = false) :
    ∃ slot : InFlight, slot.n = (s.sig sig).time ∧ slot.word = SchedWord.idle (SchedWord.header (s.spineOf sig).ir).le
      ∧ ((s.spineOut sig).sig sig).flight = (s.sig sig).flight ++ [slot]
      ∧ ∃ capture breakpoint, (s.spineOut sig).spineOf sig
          = { ({ s.spineOf sig with capture } : Spine).nextPc with phase := .fetch, waiting := false, bkpt := none, breakpoint } := by
  obtain ⟨slot, hn, hword, hsig, ⟨_, hspine⟩, -⟩ := s.emitIdle_spec sig (SchedWord.header (s.spineOf sig).ir).le
  obtain ⟨capture, hcount⟩ := (s.emitIdle sig (SchedWord.header (s.spineOf sig).ir).le).spineOf_count sig 3 1
  rw [hspine] at hcount
  have hout := State.spineOut_of_leave hphase hidles hending
  dsimp only at hout
  have hdebug := hout ▸ State.breakAfter_debugChanged (_ : State) sig _
  obtain ⟨_, hflight⟩ := hdebug.sig sig
  obtain ⟨breakpoint, hleft⟩ := hdebug.spineOf sig
  refine ⟨slot, hn, hword, ?_, capture, breakpoint, ?_⟩
  · rw [hflight, State.sig_setSpineOf, State.sig_count, hsig]
  · rw [hleft, State.spineOf_setSpineOf, hcount]

theorem exec_spineEmitWord_leave {s : State} {sig : Nat} (hruns : s.runs sig = true) (hphase : (s.spineOf sig).phase = .leave) :
    exec (.spineEmitWord sig) s = .next (s.spineOut sig) := by
  change execSpineEmitWord sig s = _
  unfold execSpineEmitWord
  simp only [hruns, hphase, Bool.not_true, Bool.false_eq_true, if_false]

/-- What END does (R37, R165, R188). -/
theorem exec_endLaunch_spec (s : State) (f : SG) :
    ∃ t, exec (.endLaunch f) s = .next t ∧ (t.sig s.focus.sig).status = .draining ∧ (t.sig s.focus.sig).ending = true
      ∧ t.here.phase = .leave ∧ t.here.seamRequest = none ∧ t.here.g = s.here.g ∧ t.memory = s.memory := by
  let u := s.setHere { s.here with phase := .leave, waiting := false, answer := none, seamRequest := none }
  let v := u.setSig s.focus.sig { u.sig s.focus.sig with status := .draining, ending := true }
  have hdebug := v.takeHit_debugChanged s.focus.sig
  have hv : v.here = u.here := u.spineOf_setSig rfl rfl
  obtain ⟨_, hsig⟩ := hdebug.sig s.focus.sig
  obtain ⟨_, hspine⟩ := hdebug.spineOf s.focus.sig
  have hhere : (v.takeHit s.focus.sig).here = (v.takeHit s.focus.sig).spineOf s.focus.sig := by rw [State.here, hdebug.focus]; rfl
  rw [hspine, ← show v.here = v.spineOf s.focus.sig from rfl, hv, State.here_setHere] at hhere
  refine ⟨_, rfl, ?_, ?_, ?_, ?_, ?_, hdebug.memory⟩
  · rw [hsig, State.sig_setSig]
  · rw [hsig, State.sig_setSig]
  all_goals rw [hhere]

theorem State.voteDelivered_of_past {s : State} {sig : Nat}
    (h : ∀ v, (s.spineOf sig).lastVote = some v → v + 2 * (s.sig sig).span + 32 ≤ (s.sig sig).time) : s.voteDelivered sig = true := by
  unfold State.voteDelivered
  split
  · rfl
  · exact decide_eq_true (h _ ‹_›)

/-- Settles O14: the loop's end and the target by `Spine.nextPc`, which a debug stop after the word leaves (R322); END and WAITV by their meanings. -/
theorem wordsLeftAndEnded : Obligations.WordsLeftAndEnded := by
  unfold Obligations.WordsLeftAndEnded
  refine ⟨fun s sig hruns hphase hidles hending => ?_, fun s => ⟨exec_endLaunch_spec s, fun f hvote => State.onlyWrites_of_result ?_⟩⟩
  · obtain ⟨slot, hn, hword, hflight, capture, breakpoint, hspine⟩ := State.spineOut_leave hphase hidles hending
    rw [exec_spineEmitWord_leave hruns hphase]
    refine ⟨_, slot, rfl, hflight, hn, hword, ?_, fun hnone => ?_, fun l hsome => ?_⟩
    · rw [hspine]
    · rw [hspine]
      exact congrArg Spine.pc (Spine.nextPc_of_none (p := { s.spineOf sig with capture }) hnone)
    · rw [hspine]
      exact Spine.nextPc_of_some (p := { s.spineOf sig with capture }) hsome
  · change execWaitv f s = _
    rw [execWaitv, if_pos (State.voteDelivered_of_past hvote)]

end Sys2Proof.Machine

/-!
PROOFS. Freezes and stops (R41, R352), what a controller's store and a fault record leave (R346, R347), sweeps (R65, R374), and the seams where
every folio advances its generation or switches its plane (R45, R46, R61).
-/

namespace Sys2Proof.Machine

/-! ### Trace records at a folio (R317) -/

/-- Of the machine, a trace record staged at a folio changes staging areas alone. -/
def State.StagesOnly (s t : State) : Prop := ∃ folios, t = { s with folios } ∧ ∀ r c, ∃ staging, t.folio r c = { s.folio r c with staging }

theorem State.traceAt_stagesOnly (s : State) (row col vif signum : Nat) (regions : List (BitVec 16)) (event cls payload : Nat) :
    s.StagesOnly (s.traceAt row col vif signum regions event cls payload) := by
  unfold State.traceAt
  dsimp only
  split
  · exact ⟨s.folios, rfl, fun _ _ => ⟨_, rfl⟩⟩
  · refine ⟨_, rfl, fun r c => ?_⟩
    rw [State.folio_setFolio_apply]
    split
    · exact ⟨_, by rw [State.folio, State.folio, ‹r * 24 + c = row * 24 + col›]⟩
    · exact ⟨_, rfl⟩

theorem State.traceSig_stagesOnly (s : State) (sig event cls payload : Nat) : s.StagesOnly (s.traceSig sig event cls payload) :=
  s.traceAt_stagesOnly ..

namespace State.StagesOnly

variable {s t : State}

theorem memory (h : s.StagesOnly t) : t.memory = s.memory := by
  obtain ⟨_, rfl, -⟩ := h
  rfl

theorem sig (h : s.StagesOnly t) (n : Nat) : t.sig n = s.sig n := by
  obtain ⟨_, rfl, -⟩ := h
  rfl

theorem spineOf (h : s.StagesOnly t) (n : Nat) : t.spineOf n = s.spineOf n := by
  obtain ⟨_, hfolio⟩ := h.elim fun _ h => h.2 (s.sig n).row0 (s.sig n).col0
  rw [State.spineOf, h.sig, hfolio, State.spineOf]

end State.StagesOnly

/-! ### Frozen signatures (R41, R48, R352) -/

theorem State.runs_eq_false_of_frozen {s : State} {sig : Nat} (h : (s.sig sig).frozen = true) : s.runs sig = false := by
  simp [State.runs, h]

theorem Sig.frozen_of_wave {g : Sig} {w : Wave} (hw : w ∈ g.waves) (hforce : w.inForce = true) : g.frozen = true := by
  have hany : g.waves.any (·.inForce) = true := List.any_eq_true.2 ⟨w, hw, hforce⟩
  simp [Sig.frozen, hany]

theorem Sig.frozen_of_stop {g : Sig} {st : FaultStop} (hst : g.stop = some st) (hforce : st.inForce = true) : g.frozen = true := by
  simp [Sig.frozen, hst, hforce]

theorem Spine.interrupted_eq (p : Spine) :
    p.interrupted = { p with capture := { p.capture with intr := p.capture.intr + if p.capture.on then 1 else 0 } } := by
  unfold Spine.interrupted
  split
  · rfl
  · exact congrArg (fun intr => { p with capture := { p.capture with intr } }) (BitVec.add_zero p.capture.intr).symm

/-- The state in which the wave of a signature has struck, before its trace record. -/
def State.struckWith (s : State) (sig : Nat) (w : Wave) : State :=
  let u := s.setSig sig { s.sig sig with waves := [{ w with inForce := true, from_ := s.cycle }] }
  if w.cause.interrupts then u.setSpineOf sig (u.spineOf sig).interrupted else u

theorem State.struckWith_spec (s : State) (sig : Nat) (w : Wave) :
    (s.struckWith sig w).sig sig = { s.sig sig with waves := [{ w with inForce := true, from_ := s.cycle }] }
      ∧ (s.struckWith sig w).memory = s.memory
      ∧ (s.struckWith sig w).spineOf sig = { s.spineOf sig with capture := { (s.spineOf sig).capture with
          intr := (s.spineOf sig).capture.intr + if (s.spineOf sig).capture.on && w.cause.interrupts then 1 else 0 } } := by
  have hspine := s.spineOf_setSig (sig := sig) (g := { s.sig sig with waves := [{ w with inForce := true, from_ := s.cycle }] }) rfl rfl
  unfold State.struckWith
  cases hcause : w.cause.interrupts
  · refine ⟨State.sig_setSig .., rfl, hspine.trans ?_⟩
    simp
  · refine ⟨(State.sig_setSpineOf ..).trans (State.sig_setSig ..), rfl, (State.spineOf_setSpineOf ..).trans ?_⟩
    rw [hspine, Spine.interrupted_eq, Bool.and_true]

/-- Whether a wave of a signature is due, and strikes unless an advance or a controller holds it (R41, R395). -/
def State.waveDue (s : State) (sig : Nat) (w : Wave) : Bool :=
  let restoring := (s.sig sig).status == .starting && !(s.sig sig).image.isEmpty
  !w.inForce && !w.parked && w.from_ ≤ s.cycle && w.cause != .causal && !(restoring && w.cause == .debug)

theorem exec_freezeWaveEffect (s : State) (sig : Nat) :
    exec (.freezeWaveEffect sig) s =
      let struck := (s.sig sig).waves.filter (s.waveDue sig)
      if struck.isEmpty || s.advancing sig || s.controllerOwes sig then .next s
      else
        let u := s.setSig sig { s.sig sig with
          waves := (s.sig sig).waves.map fun w => if s.waveDue sig w then { w with inForce := true, from_ := s.cycle } else w }
        .next (struck.foldl (fun u w =>
          (if w.cause.interrupts then u.setSpineOf sig (u.spineOf sig).interrupted else u).traceSig sig 0x0003 1 w.cause.code) u) := rfl

/-- The only wave of a signature strikes, once it is due (R41, R68, R395). -/
theorem exec_freezeWaveEffect_of_due {s : State} {sig : Nat} {w : Wave} (hwaves : (s.sig sig).waves = [w]) (hdue : s.waveDue sig w = true)
    (hadvancing : s.advancing sig = false) (howes : s.controllerOwes sig = false) :
    exec (.freezeWaveEffect sig) s = .next ((s.struckWith sig w).traceSig sig 0x0003 1 w.cause.code) := by
  have hstruck : (s.sig sig).waves.filter (s.waveDue sig) = [w] := by rw [hwaves, List.filter_cons_of_pos hdue, List.filter_nil]
  rw [exec_freezeWaveEffect, hstruck, hwaves, hadvancing, howes]
  simp only [List.isEmpty_cons, Bool.or_false, Bool.false_eq_true, if_false, List.map_cons, List.map_nil, hdue, if_true]
  rfl

theorem State.waveDue_of_fields {s : State} {sig : Nat} {w : Wave} (hforce : w.inForce = false) (hparked : w.parked = false)
    (hfrom : w.from_ ≤ s.cycle) (hcausal : w.cause ≠ .causal)
    (hdebug : w.cause = .debug → (s.sig sig).status = .starting → (s.sig sig).image = []) : s.waveDue sig w = true := by
  have hrestore : ((s.sig sig).status == .starting && !(s.sig sig).image.isEmpty && w.cause == .debug) = false := by
    by_cases hd : w.cause = .debug
    · by_cases hst : (s.sig sig).status = .starting
      · simp [hdebug hd hst]
      · simp [hst]
    · simp [hd]
  simp only [State.waveDue, hforce, hparked, hrestore, decide_eq_true hfrom, bne_iff_ne.2 hcausal, Bool.not_false, Bool.and_self]

/-! ### Fault records (R346, R347) -/

/-- A state with other signatures and folios. -/
def State.withPlaces (s : State) (sigs : Tab Sig) (folios : Tab Folio) : State := { s with sigs, folios }

theorem State.withPlaces_memory (s : State) (sigs : Tab Sig) (folios : Tab Folio) : (s.withPlaces sigs folios).memory = s.memory := rfl

theorem State.withPlaces_poisonedUnits (s : State) (sigs : Tab Sig) (folios : Tab Folio) :
    (s.withPlaces sigs folios).poisonedUnits = s.poisonedUnits := rfl

theorem State.withPlaces_withMemory (s : State) (sigs : Tab Sig) (folios : Tab Folio) (memory : Memory) (poisonedUnits : List Nat) :
    { s.withPlaces sigs folios with memory, poisonedUnits } = ({ s with memory, poisonedUnits } : State).withPlaces sigs folios := rfl

/-- A controller's store of a unit changes memory and the poisoned units, each from what it was. -/
theorem putUnit_eq (k : Material) (pa unitVa : Nat) (data mask : Vec) :
    ∃ (value : Vec → Vec) (poisoned : List Nat → List Nat), ∀ s : State, s.putUnit k pa unitVa data mask =
      { s with memory := s.memory.setUnit (pa / 64) (value (s.memory.unit (pa / 64))), poisonedUnits := poisoned s.poisonedUnits } := by
  by_cases h : mask = -1
  · exact ⟨fun _ => sealWith k unitVa data, fun l => l.filter (· ≠ pa / 64), fun s => if_pos h⟩
  · exact ⟨fun old => sealWith k unitVa ((openWith k unitVa old &&& ~~~mask) ||| (data &&& mask)), id, fun s => if_neg h⟩

theorem State.putUnit_withPlaces (s : State) (sigs : Tab Sig) (folios : Tab Folio) (k : Material) (pa unitVa : Nat) (data mask : Vec) :
    (s.withPlaces sigs folios).putUnit k pa unitVa data mask = (s.putUnit k pa unitVa data mask).withPlaces sigs folios := by
  obtain ⟨value, poisoned, hput⟩ := putUnit_eq k pa unitVa data mask
  rw [hput, hput, withPlaces_memory, withPlaces_poisonedUnits, withPlaces_withMemory]

theorem State.walk_withPlaces (s : State) (sigs : Tab Sig) (folios : Tab Folio) (vif va : Nat) :
    (s.withPlaces sigs folios).walk vif va = s.walk vif va := by
  have hiface : (s.withPlaces sigs folios).iface vif = s.iface vif := rfl
  have hplatform : (s.withPlaces sigs folios).platform = s.platform := rfl
  rw [State.walk, State.walk, hiface, hplatform, withPlaces_memory, withPlaces_poisonedUnits]

/-- The checks of an access through a leaf depend on the platform alone. -/
theorem State.checkLeaf_of_platform {s t : State} (hplatform : t.platform = s.platform) (l : Leaf) (va : Nat) (need : List Need) :
    t.checkLeaf l va need = s.checkLeaf l va need := by
  have hcarve (pa : Nat) : t.inCarveOut pa = s.inCarveOut pa := by
    rw [State.inCarveOut, State.inCarveOut, State.carveOuts, State.carveOuts, hplatform]
  rw [State.checkLeaf, State.checkLeaf, State.checkPhysical, State.checkPhysical, hplatform, hcarve]

theorem State.checkLeaf_withPlaces (s : State) (sigs : Tab Sig) (folios : Tab Folio) (l : Leaf) (va : Nat) (need : List Need) :
    (s.withPlaces sigs folios).checkLeaf l va need = s.checkLeaf l va need := State.checkLeaf_of_platform rfl l va need

theorem State.translatePages_withPlaces (s : State) (sigs : Tab Sig) (folios : Tab Folio) (vif : Nat) (va : Word) (need : List Need) :
    (s.withPlaces sigs folios).translatePages none vif va need = s.translatePages none vif va need := by
  unfold State.translatePages
  by_cases hva : (va.extractLsb' 56 8).toNat ≠ 0
  · rw [if_pos hva, if_pos hva]
  rw [if_neg hva, if_neg hva, Option.bind_none, Option.bind_none, State.walk_withPlaces]
  cases s.walk vif va.toNat with
  | error e => rfl
  | ok l => exact s.checkLeaf_withPlaces sigs folios l va.toNat need

theorem State.worldMaterial_withPlaces (s : State) (sigs : Tab Sig) (folios : Tab Folio) (vif : Nat) :
    (s.withPlaces sigs folios).worldMaterial vif = s.worldMaterial vif := rfl

/-- A controller's store is the same whatever signatures and folios hold. -/
theorem State.writeVirtual_withPlaces (s : State) (sigs : Tab Sig) (folios : Tab Folio) (vif : Nat) (va : Word) (n data : Nat) :
    (s.withPlaces sigs folios).writeVirtual vif va n data = (s.writeVirtual vif va n data).map fun u => u.withPlaces sigs folios := by
  rw [State.writeVirtual, State.writeVirtual, translatePages_withPlaces, worldMaterial_withPlaces, withPlaces_poisonedUnits]
  cases s.translatePages none vif va [.wr] with
  | error e => rfl
  | ok pa =>
    cases s.worldMaterial vif with
    | error e => rfl
    | ok k =>
      simp only [State.putUnit_withPlaces]
      split <;> rfl

theorem State.readVirtual_withPlaces (s : State) (sigs : Tab Sig) (folios : Tab Folio) (vif : Nat) (va : Word) (n : Nat) :
    (s.withPlaces sigs folios).readVirtual vif va n = s.readVirtual vif va n := by
  have hunit : (s.withPlaces sigs folios).readUnit vif va = s.readUnit vif va := by
    rw [State.readUnit, State.readUnit, translatePages_withPlaces, worldMaterial_withPlaces, withPlaces_poisonedUnits]
    rfl
  rw [State.readVirtual, State.readVirtual, hunit]

theorem State.iface_withPlaces (s : State) (sigs : Tab Sig) (folios : Tab Folio) (vif : Nat) :
    (s.withPlaces sigs folios).iface vif = s.iface vif := rfl

theorem State.ns_withPlaces (s : State) (sigs : Tab Sig) (folios : Tab Folio) : (s.withPlaces sigs folios).ns = s.ns := rfl

/-- The writing of a fault record is the same whatever signatures and folios hold. -/
theorem State.writeFault_withPlaces (s : State) (sigs : Tab Sig) (folios : Tab Folio) (vif : Nat) (f : FaultInfo) :
    (s.withPlaces sigs folios).writeFault vif f = ((s.writeFault vif f).1.withPlaces sigs folios, (s.writeFault vif f).2) := by
  unfold State.writeFault
  simp only [iface_withPlaces, readVirtual_withPlaces, writeVirtual_withPlaces, ns_withPlaces]
  split
  · rfl
  cases s.readVirtual vif ((s.iface vif).faultArea.1 + 8) 8 with
  | error e => rfl
  | ok rcnt =>
    dsimp only
    split
    · cases s.writeVirtual vif ((s.iface vif).faultArea.1 + 0x10) 8 ((s.iface vif).lost + 1).toNat <;> rfl
    generalize s.writeVirtual vif _ 64 _ = first
    cases first with
    | error e => rfl
    | ok s1 =>
      simp only [Except.map, writeVirtual_withPlaces]
      cases s1.writeVirtual vif (s.iface vif).faultArea.1 8 ((s.iface vif).wcnt.toNat + 1) <;> rfl

theorem State.interrupt_withPlaces (s : State) (sigs : Tab Sig) (folios : Tab Folio) (vif count : Nat) (fault : Bool) :
    (s.withPlaces sigs folios).interrupt vif count fault = (s.interrupt vif count fault).withPlaces sigs folios := by
  rw [State.interrupt, State.interrupt, iface_withPlaces, withPlaces_memory]
  split <;> rfl

/-- A fault record, and its interrupt, are the same whatever signatures and folios hold, and leave both. -/
theorem State.recordFault_withPlaces (s : State) (sigs : Tab Sig) (folios : Tab Folio) (vif : Nat) (f : FaultInfo) :
    (s.withPlaces sigs folios).recordFault vif f = ((s.recordFault vif f).1.withPlaces sigs folios, (s.recordFault vif f).2) := by
  unfold State.recordFault
  rw [writeFault_withPlaces]
  generalize s.writeFault vif f = written
  obtain ⟨u, k⟩ := written
  dsimp only
  split
  · rw [interrupt_withPlaces]
  · rfl

/-! ### A fault stop (R352) -/

theorem State.stopBegins_eq (s : State) (sig : Nat) : ∃ folios, s.stopBegins sig = { s with folios } := by
  obtain ⟨folios, h, -⟩ := State.traceSig_stagesOnly (s.setSpineOf sig (s.spineOf sig).interrupted) sig 0x0003 1 4
  exact ⟨folios, h⟩

/-- A signature that a fault stop froze in this cycle. -/
def Sig.stopped (g : Sig) (cycle : Nat) : Sig := { g with stop := some { from_ := cycle, notes := [], inForce := true, lifts := none } }

theorem State.beginStop_singleton (s : State) (sig : Nat) (n : FaultNote) :
    s.beginStop sig [n] =
      let u := (s.setSig sig ((s.sig sig).stopped s.cycle)).stopBegins sig
      let recorded := u.recordFault (u.sig sig).vif (n.info sig 2)
      if recorded.2.isSome then recorded.1 else recorded.1.endByFault sig := rfl

/-- A stop for one fault whose record is written leaves memory as the record does. -/
theorem State.beginStop_of_recorded {s : State} {sig : Nat} {n : FaultNote}
    (hrecorded : (s.recordFault (s.sig sig).vif (n.info sig 2)).2.isSome = true) :
    ∃ folios, s.beginStop sig [n]
      = (s.recordFault (s.sig sig).vif (n.info sig 2)).1.withPlaces (s.setSig sig ((s.sig sig).stopped s.cycle)).sigs folios := by
  obtain ⟨folios, hbegins⟩ := (s.setSig sig ((s.sig sig).stopped s.cycle)).stopBegins_eq sig
  have hplaces : (s.setSig sig ((s.sig sig).stopped s.cycle)).stopBegins sig
      = s.withPlaces (s.setSig sig ((s.sig sig).stopped s.cycle)).sigs folios := hbegins
  have hsig : (s.withPlaces (s.setSig sig ((s.sig sig).stopped s.cycle)).sigs folios).sig sig = (s.sig sig).stopped s.cycle :=
    State.sig_setSig s sig _
  refine ⟨folios, ?_⟩
  rw [State.beginStop_singleton, hplaces]
  dsimp only
  rw [hsig, State.recordFault_withPlaces]
  exact if_pos hrecorded

theorem exec_faultStopFreeze_of_recorded {s : State} {sig : Nat} {st : FaultStop} {n : FaultNote} (hstop : (s.sig sig).stop = some st)
    (hnotes : st.notes = [n]) (hforce : st.inForce = false) (hfrom : st.from_ ≤ s.cycle) (hadvancing : s.advancing sig = false)
    (hrecorded : (s.recordFault (s.sig sig).vif (n.info sig 2)).2.isSome = true) :
    ∃ t, exec (.faultStopFreeze sig) s = .next t ∧ t.sig sig = (s.sig sig).stopped s.cycle
      ∧ t.memory = (s.recordFault (s.sig sig).vif (n.info sig 2)).1.memory := by
  obtain ⟨folios, hbegin⟩ := State.beginStop_of_recorded hrecorded
  have hexec : exec (.faultStopFreeze sig) s = execFaultStopFreeze sig s := rfl
  refine ⟨s.beginStop sig [n], ?_, ?_, ?_⟩
  · rw [hexec, execFaultStopFreeze, hstop]
    simp only [hforce, hadvancing, hnotes, Bool.false_or, Bool.or_false, decide_eq_true_eq, Nat.not_lt.2 hfrom, if_false]
  · rw [hbegin]
    exact State.sig_setSig s sig _
  · rw [hbegin, State.withPlaces_memory]

/-- A stop whose answers are all there lifts. -/
theorem exec_faultStopResume_of_lifts {s : State} {sig : Nat} {st : FaultStop} {k : Nat} (hstop : (s.sig sig).stop = some st)
    (hlifts : st.lifts = some k) (hk : k ≤ s.cycle) :
    exec (.faultStopResume sig) s
      = .next ((s.setSig sig { s.sig sig with stop := none }).traceSig sig 0x0004 1 (4 + (s.cycle - st.from_) * 16)) := by
  have hexec : exec (.faultStopResume sig) s = execFaultStopResume sig s := rfl
  rw [hexec, execFaultStopResume, hstop]
  simp only [hlifts, hk, if_true]

/-! ### Sweeps (R65, R374) -/

/-- A folio that wraps is swept: one step of the second pass of `State.sweepFolios`. -/
def State.markSwept (s : State) (rc : Nat × Nat) : State :=
  if (s.folio rc.1 rc.2).gen = 0xFFFF then s.setFolio rc.1 rc.2 { s.folio rc.1 rc.2 with swept := true } else s

/-- Sweeps leave everything but elements and the marks of folios. -/
structure State.Swept (s t : State) : Prop where
  memory : t.memory = s.memory
  sig : ∀ n, t.sig n = s.sig n
  folio : ∀ r c, ∃ swept, t.folio r c = { s.folio r c with swept } ∧ ((s.folio r c).swept = true → swept = true)

namespace State.Swept

variable {s t u : State}

theorem refl (s : State) : s.Swept s := ⟨rfl, fun _ => rfl, fun _ _ => ⟨_, rfl, id⟩⟩

theorem trans (h : s.Swept t) (h' : t.Swept u) : s.Swept u where
  memory := h'.memory.trans h.memory
  sig n := (h'.sig n).trans (h.sig n)
  folio r c := by
    obtain ⟨x, hx, himp⟩ := h.folio r c
    obtain ⟨y, hy, himp'⟩ := h'.folio r c
    rw [hx] at hy himp'
    exact ⟨y, hy, himp' ∘ himp⟩

theorem gen (h : s.Swept t) (r c : Nat) : (t.folio r c).gen = (s.folio r c).gen := by
  obtain ⟨_, hfolio, -⟩ := h.folio r c
  rw [hfolio]

theorem swept (h : s.Swept t) {r c : Nat} (hs : (s.folio r c).swept = true) : (t.folio r c).swept = true := by
  obtain ⟨_, hfolio, himp⟩ := h.folio r c
  rw [hfolio]
  exact himp hs

theorem spineOf (h : s.Swept t) (n : Nat) : t.spineOf n = s.spineOf n := by
  obtain ⟨_, hfolio, -⟩ := h.folio (s.sig n).row0 (s.sig n).col0
  rw [State.spineOf, h.sig, hfolio, State.spineOf]

end State.Swept

theorem State.markSwept_swept (s : State) (rc : Nat × Nat) : s.Swept (s.markSwept rc) := by
  unfold State.markSwept
  split
  case isFalse => exact .refl s
  refine ⟨rfl, fun _ => rfl, fun r c => ?_⟩
  rw [State.folio_setFolio_apply]
  split
  · exact ⟨true, by rw [State.folio, State.folio, ‹r * 24 + c = rc.1 * 24 + rc.2›], fun _ => rfl⟩
  · exact ⟨_, rfl, id⟩

theorem State.markSwept_same (s : State) (rc : Nat × Nat) (hgen : ((s.markSwept rc).folio rc.1 rc.2).gen = 0xFFFF) :
    ((s.markSwept rc).folio rc.1 rc.2).swept = true := by
  rw [(s.markSwept_swept rc).gen] at hgen
  rw [State.markSwept, if_pos hgen, State.folio_setFolio]

theorem State.foldl_markSwept_swept (s : State) (l : List (Nat × Nat)) : s.Swept (l.foldl State.markSwept s) :=
  List.foldlRecOn (motive := s.Swept) l _ (.refl s) fun u hu rc _ => hu.trans (u.markSwept_swept rc)

theorem State.foldl_markSwept_mem (s : State) {l : List (Nat × Nat)} {rc : Nat × Nat} (hrc : rc ∈ l)
    (hgen : ((l.foldl State.markSwept s).folio rc.1 rc.2).gen = 0xFFFF) : ((l.foldl State.markSwept s).folio rc.1 rc.2).swept = true := by
  induction l generalizing s with
  | nil => cases hrc
  | cons a rest ih =>
    rw [List.foldl_cons] at hgen ⊢
    rcases List.mem_cons.1 hrc with rfl | hrest
    · have hlater := State.foldl_markSwept_swept (s.markSwept rc) rest
      rw [hlater.gen] at hgen
      exact hlater.swept (s.markSwept_same rc hgen)
    · exact ih _ hrest hgen

/-- The elements of the folios that wrap, after the first pass of `State.sweepFolios`. -/
def State.sweepElements (s : State) (sig : Nat) : State :=
  (s.busyPlaces sig).foldl (fun s rc =>
    if (s.folioOf sig rc.1 rc.2).gen = 0xFFFF then s.setElementOf sig rc.1 rc.2 (s.elementOf sig rc.1 rc.2).swept else s) s

theorem State.sweepElements_swept (s : State) (sig : Nat) : s.Swept (s.sweepElements sig) :=
  List.foldlRecOn (motive := s.Swept) _ _ (.refl s) fun u hu rc _ => hu.trans (by
    split
    · exact ⟨rfl, fun _ => rfl, fun _ _ => ⟨_, rfl, id⟩⟩
    · exact .refl u)

theorem State.sweepFolios_eq (s : State) (sig : Nat) :
    s.sweepFolios sig = ((s.sweepElements sig).sig sig).folios.foldl State.markSwept (s.sweepElements sig) := rfl

theorem State.sweepFolios_swept (s : State) (sig : Nat) : s.Swept (s.sweepFolios sig) :=
  (s.sweepElements_swept sig).trans (State.foldl_markSwept_swept ..)

/-- After a sweep no folio of the signature has a wrap before it. -/
theorem State.wraps_sweepFolios (s : State) (sig : Nat) : (s.sweepFolios sig).wraps sig = false := by
  unfold State.wraps
  rw [List.any_eq_false]
  intro rc hrc
  rw [(s.sweepFolios_swept sig).sig, ← (s.sweepElements_swept sig).sig] at hrc
  rw [Bool.and_eq_true, beq_iff_eq, Bool.not_eq_true', not_and]
  intro hgen
  rw [State.sweepFolios_eq] at hgen ⊢
  rw [State.foldl_markSwept_mem _ hrc hgen]
  simp

theorem exec_wrapSweep_starting {s : State} {sig : Nat} (hstatus : (s.sig sig).status = .starting) (hsweep : 1 < (s.sig sig).sweep) :
    exec (.wrapSweep sig) s = .next (s.setSig sig { s.sig sig with sweep := (s.sig sig).sweep - 1 }) := by
  have hexec : exec (.wrapSweep sig) s = execWrapSweep sig s := rfl
  rw [hexec, execWrapSweep]
  dsimp only
  rw [if_pos (beq_iff_eq.2 hstatus), if_neg (by omega), if_neg (by omega)]

theorem exec_wrapSweep_running {s : State} {sig : Nat} {first k : Nat} (hstatus : (s.sig sig).status = .running)
    (hruns : s.runs sig = true) (hphase : (s.spineOf sig).phase = .seam first (k + 1)) :
    exec (.wrapSweep sig) s =
      let u := s.setSpineOf sig { s.spineOf sig with phase := .seam first k }
      .next (if k = 0 then u.sweepFolios sig else u) := by
  have hexec : exec (.wrapSweep sig) s = execWrapSweep sig s := rfl
  rw [hexec, execWrapSweep]
  dsimp only
  rw [hstatus, if_neg (by decide), if_pos hruns, State.sweepSeam, hphase]

/-! ### Advances of the generation (R61) -/

theorem mem_rectangle {row col ht wd : Nat} {rc : Nat × Nat} :
    rc ∈ rectangle row col ht wd ↔ ∃ i < ht, ∃ j < wd, (row + i, col + j) = rc := by
  simp [rectangle]

theorem nodup_rectangle (row col ht wd : Nat) : (rectangle row col ht wd).Nodup := by
  unfold rectangle
  rw [List.nodup_flatMap]
  refine ⟨fun i _ => List.nodup_range.map fun j j' h => ?_, List.nodup_range.imp fun {i i'} hne => ?_⟩
  · simpa using h
  · simp only [Function.onFun, List.disjoint_left, List.mem_map, List.mem_range, not_exists, not_and]
    rintro _ ⟨j, -, rfl⟩ j' - h
    exact hne (by simpa using (congrArg Prod.fst h).symm)

theorem lt_of_mem_rectangle {row col ht wd : Nat} (hcol : col + wd ≤ 24) {rc : Nat × Nat} (h : rc ∈ rectangle row col ht wd) : rc.2 < 24 := by
  obtain ⟨i, -, j, hj, rfl⟩ := mem_rectangle.1 h
  exact Nat.lt_of_lt_of_le (Nat.add_lt_add_left hj col) hcol

/-- Folios in the device's columns have indices of their own. -/
theorem folio_eq_of_index {a b : Nat × Nat} (ha : a.2 < 24) (hb : b.2 < 24) (h : a.1 * 24 + a.2 = b.1 * 24 + b.2) : a = b :=
  Prod.ext (by omega) (by omega)

/-- Steps that each change one folio of their own give every folio of a list what its own step gives it. -/
theorem State.folio_foldl_own {β : Type} {step : State → Nat × Nat → State} {view : State → β} {l : List (Nat × Nat)} (hl : l.Nodup)
    (hcol : ∀ rc ∈ l, rc.2 < 24) (hview : ∀ u rc, view (step u rc) = view u)
    (hother : ∀ (u : State) (rc : Nat × Nat) (r c : Nat), r * 24 + c ≠ rc.1 * 24 + rc.2 → (step u rc).folio r c = u.folio r c)
    (s : State) {rc : Nat × Nat} (hrc : rc ∈ l) :
    ∃ u, u.folio rc.1 rc.2 = s.folio rc.1 rc.2 ∧ view u = view s ∧ (l.foldl step s).folio rc.1 rc.2 = (step u rc).folio rc.1 rc.2 := by
  obtain ⟨u, hu, hfold⟩ := foldl_touches_once step (fun u => (u.folio rc.1 rc.2, view u)) hl hrc (fun u b hb hne =>
    Prod.ext (hother u b rc.1 rc.2 fun h => hne (folio_eq_of_index (hcol b hb) (hcol rc hrc) h.symm)) (hview u b)) s
  exact ⟨u, congrArg Prod.fst hu, congrArg Prod.snd hu, congrArg Prod.fst hfold⟩

/-- A folio's generation advances. -/
def Folio.advanced (f : Folio) : Folio := { f with gen := nextGen f.gen, swept := false }

theorem State.advanceGenerations_eq (s : State) (sig : Nat) :
    s.advanceGenerations sig = (s.sig sig).folios.foldl (fun s rc => s.setFolio rc.1 rc.2 (s.folio rc.1 rc.2).advanced) s := rfl

theorem State.folio_advanceGenerations {s : State} {sig : Nat} (hcol : (s.sig sig).col0 + (s.sig sig).wd ≤ 24) {rc : Nat × Nat}
    (hrc : rc ∈ (s.sig sig).folios) : (s.advanceGenerations sig).folio rc.1 rc.2 = (s.folio rc.1 rc.2).advanced := by
  obtain ⟨u, hu, -, hfold⟩ := State.folio_foldl_own (step := fun s rc => s.setFolio rc.1 rc.2 (s.folio rc.1 rc.2).advanced)
    (view := fun _ => ()) (nodup_rectangle ..) (fun _ h => lt_of_mem_rectangle hcol h) (fun _ _ => rfl)
    (fun u rc r c h => State.folio_setFolio_other u _ h) s hrc
  rw [State.advanceGenerations_eq]
  refine hfold.trans ?_
  rw [State.folio_setFolio, hu]

theorem State.advanceGenerations_keeps (s : State) (sig : Nat) :
    (s.advanceGenerations sig).memory = s.memory ∧ (∀ n, (s.advanceGenerations sig).sig n = s.sig n)
      ∧ ∀ n, (s.advanceGenerations sig).spineOf n = s.spineOf n := by
  rw [State.advanceGenerations_eq]
  refine List.foldlRecOn (motive := fun t : State => t.memory = s.memory ∧ (∀ n, t.sig n = s.sig n) ∧ ∀ n, t.spineOf n = s.spineOf n) _ _
    ⟨rfl, fun _ => rfl, fun _ => rfl⟩ fun u hu rc _ => ?_
  obtain ⟨hmemory, hsig, hspine⟩ := hu
  refine ⟨hmemory, hsig, fun n => (hspine n).symm ▸ ?_⟩
  exact State.folio_setFolio_keeps (·.spine) u rc.1 rc.2 _ _ rfl

theorem State.folio_setSpineOf_keeps {β : Type} (view : Folio → β) (hview : ∀ f p, view { f with spine := p } = view f) (s : State)
    (sig r c : Nat) (p : Spine) : view ((s.setSpineOf sig p).folio r c) = view (s.folio r c) :=
  State.folio_setFolio_keeps view s _ _ r c (hview _ _)

theorem State.spineOf_hastenFreezes (s : State) (sig : Nat) : (s.hastenFreezes sig).spineOf sig = s.spineOf sig := by
  unfold State.hastenFreezes
  exact s.spineOf_setSig rfl rfl

theorem State.folio_hastenFreezes (s : State) (sig r c : Nat) : (s.hastenFreezes sig).folio r c = s.folio r c := rfl

/-- A seam passed: the spine goes on, every generation has advanced, and the planes are as they were. -/
theorem State.passSeam_spec {s : State} {sig : Nat} (hcol : (s.sig sig).col0 + (s.sig sig).wd ≤ 24) :
    (s.passSeam sig).spineOf sig = { s.spineOf sig with phase := .fetch, seamRequest := none } ∧ (s.passSeam sig).memory = s.memory
      ∧ ∀ rc ∈ (s.sig sig).folios, ((s.passSeam sig).folio rc.1 rc.2).gen = nextGen (s.folio rc.1 rc.2).gen
        ∧ ((s.passSeam sig).folio rc.1 rc.2).planes = (s.folio rc.1 rc.2).planes := by
  obtain ⟨hmemory, hsig, hspine⟩ := s.advanceGenerations_keeps sig
  refine ⟨?_, hmemory, fun rc hrc => ⟨?_, ?_⟩⟩
  · rw [State.passSeam, State.spineOf_hastenFreezes, State.spineOf_setSpineOf, hspine]
  · rw [State.passSeam, State.folio_hastenFreezes, State.folio_setSpineOf_keeps (·.gen) (fun _ _ => rfl),
      State.folio_advanceGenerations hcol hrc, Folio.advanced]
  · rw [State.passSeam, State.folio_hastenFreezes, State.folio_setSpineOf_keeps (·.planes) (fun _ _ => rfl),
      State.folio_advanceGenerations hcol hrc, Folio.advanced]

/-! ### Planes at a seam (R45, R46) -/

/-- Of two planes the one loaded later, the first of them where they are even. -/
def laterPlane (b : Option (Nat × Plane)) (x : Nat × Plane) : Option (Nat × Plane) :=
  match b with
  | none => some x
  | some y => if y.2.loaded < x.2.loaded then some x else b

theorem mem_of_foldl_laterPlane {l : List (Nat × Plane)} {b : Option (Nat × Plane)} {x : Nat × Plane} (h : l.foldl laterPlane b = some x) :
    b = some x ∨ x ∈ l := by
  induction l generalizing b with
  | nil => exact .inl h
  | cons a rest ih =>
    rcases ih h with hb | hrest
    · have hbest : b = some x ∨ x = a := by
        unfold laterPlane at hb
        split at hb
        · exact .inr (Option.some.inj hb).symm
        · split at hb
          · exact .inr (Option.some.inj hb).symm
          · exact .inl hb
      exact hbest.imp_right fun hxa => List.mem_cons.2 (.inl hxa)
    · exact .inr (List.mem_cons_of_mem _ hrest)

theorem Folio.mem_of_planeWith {f : Folio} {vif cfg : Nat} {image : Word} {states : List PlaneState} {x : Nat × Plane}
    (h : f.planeWith vif image cfg states = some x) :
    x ∈ f.planes ∧ x.2.owner = some vif ∧ x.2.image = image ∧ x.2.cfg = cfg := by
  have hmem : x ∈ f.planes.filter fun (_, p) => p.owner == some vif && p.image == image && p.cfg == cfg && states.contains p.state := by
    unfold Folio.planeWith at h
    dsimp only at h
    split at h
    · cases h
      exact List.mem_of_find?_eq_some ‹_›
    · exact (mem_of_foldl_laterPlane h).resolve_left (by simp)
  obtain ⟨hx, hfields⟩ := List.mem_filter.1 hmem
  simp only [Bool.and_eq_true, beq_iff_eq] at hfields
  exact ⟨hx, hfields.1.1.1, hfields.1.1.2, hfields.1.2⟩

/-- A table that lists no key twice gives each listed entry. -/
theorem Tab.get_of_mem {α : Type} {d : α} {t : Tab α} (hkeys : (t.map (·.1)).Nodup) {x : Nat × α} (hx : x ∈ t) : t.get d x.1 = x.2 := by
  induction t with
  | nil => cases hx
  | cons p rest ih =>
    obtain ⟨hp, hrest⟩ := List.nodup_cons.1 hkeys
    rcases List.mem_cons.1 hx with rfl | hx
    · exact if_pos rfl
    · have hne : p.1 ≠ x.1 := fun he => hp (List.mem_map.2 ⟨x, hx, he.symm⟩)
      exact (if_neg hne).trans (ih hrest hx)

theorem Tab.set_eq_put {α : Type} [DecidableEq α] {d x : α} (h : x ≠ d) (t : Tab α) (k : Nat) : t.set d k x = t.put k x := if_neg h

theorem Folio.not_active_of_mem_idlePlanes {f : Folio} {x : Nat × Plane} (hx : x ∈ f.idlePlanes.planes) : x.2.state ≠ .active := by
  obtain ⟨y, -, rfl⟩ := List.mem_map.1 hx
  dsimp only
  split
  · exact fun h => nomatch h
  · assumption

/-- An active plane among planes none of which is active. -/
theorem find_active_put {t : Tab Plane} {k : Nat} {q : Plane} (ht : ∀ x ∈ t, x.2.state ≠ .active) (hq : q.state = .active) :
    ((t.put k q).find? fun p => p.2.state = .active) = some (k, q) := by
  have hmem : (k, q) ∈ t.put k q := Tab.mem_put.2 (.inl rfl)
  obtain ⟨y, hy⟩ := Option.isSome_iff_exists.1 (List.find?_isSome (p := fun p => p.2.state = .active).2 ⟨_, hmem, decide_eq_true hq⟩)
  have hactive : y.2.state = .active :=
    of_decide_eq_true (List.find?_some (p := fun p : Nat × Plane => decide (p.2.state = .active)) hy)
  rcases Tab.mem_put.1 (List.mem_of_find?_eq_some hy) with rfl | ⟨hyt, -⟩
  · exact hy
  · exact absurd hactive (ht y hyt)

/-- The plane that a folio activates is its active one. -/
theorem Folio.active_activate (f : Folio) (k cycle : Nat) :
    (f.activate k cycle).active = some (k, { f.idlePlanes.plane k with state := .active, activated := cycle }) := by
  have hvalid : ({ f.idlePlanes.plane k with state := .active, activated := cycle } : Plane) ≠ Plane.invalid :=
    fun h => nomatch congrArg Plane.state h
  have hset : (f.activate k cycle).planes = f.idlePlanes.planes.put k { f.idlePlanes.plane k with state := .active, activated := cycle } :=
    Tab.set_eq_put hvalid ..
  rw [Folio.active, hset]
  exact find_active_put (fun _ => Folio.not_active_of_mem_idlePlanes) rfl

theorem Folio.plane_idlePlanes_of_mem {f : Folio} (hkeys : (f.planes.map (·.1)).Nodup) {x : Nat × Plane} (hx : x ∈ f.planes) :
    f.idlePlanes.plane x.1 = if x.2.state = .active then { x.2 with state := .ready } else x.2 := by
  have hkeys' : (f.idlePlanes.planes.map (·.1)).Nodup := by
    rw [Folio.idlePlanes, List.map_map]
    exact hkeys
  have hmem : (x.1, if x.2.state = .active then { x.2 with state := .ready } else x.2) ∈ f.idlePlanes.planes :=
    List.mem_map.2 ⟨x, hx, rfl⟩
  exact Tab.get_of_mem hkeys' hmem


/-- A folio's planes after it has switched to the plane of a configuration. -/
def Folio.switched (f : Folio) (vif : Nat) (image : Word) (cfg cycle : Nat) : Folio :=
  match (f.planeWith vif image cfg [.ready, .active]).map (·.1) with
  | some k => f.activate k cycle
  | none => f

theorem Folio.active_switched {f : Folio} {vif cfg cycle : Nat} {image : Word} (hkeys : (f.planes.map (·.1)).Nodup)
    (hsome : (f.planeWith vif image cfg [.ready, .active]).isSome = true) :
    ∃ k q, (f.switched vif image cfg cycle).active = some (k, q) ∧ q.owner = some vif ∧ q.image = image ∧ q.cfg = cfg := by
  obtain ⟨x, hx⟩ := Option.isSome_iff_exists.1 hsome
  obtain ⟨hmem, howner, himage, hcfg⟩ := Folio.mem_of_planeWith hx
  have hplane := Folio.plane_idlePlanes_of_mem hkeys hmem
  rw [Folio.switched, hx, Option.map_some]
  refine ⟨_, _, Folio.active_activate .., ?_⟩
  rw [hplane]
  split <;> exact ⟨howner, himage, hcfg⟩

/-- What a switch leaves of a folio: all but its planes. -/
theorem Folio.switched_eq (f : Folio) (vif : Nat) (image : Word) (cfg cycle : Nat) :
    ∃ planes, f.switched vif image cfg cycle = { f with planes } := by
  unfold Folio.switched
  split
  · exact ⟨_, rfl⟩
  · exact ⟨_, rfl⟩

/-- One folio's part of a plane switch. -/
def State.switchFolio (sig : Nat) (cfg : BitVec 16) (s : State) (rc : Nat × Nat) : State :=
  match s.switchPlane sig cfg rc with
  | some k => s.setFolio rc.1 rc.2 ((s.folio rc.1 rc.2).activate k s.cycle)
  | none => s

theorem State.switchFolio_keeps (sig : Nat) (cfg : BitVec 16) (s : State) (rc : Nat × Nat) :
    ∃ folios, State.switchFolio sig cfg s rc = { s with folios } := by
  unfold State.switchFolio
  split <;> exact ⟨_, rfl⟩

theorem State.folio_switchFolio (sig : Nat) (cfg : BitVec 16) (s : State) (rc : Nat × Nat) (r c : Nat) :
    (State.switchFolio sig cfg s rc).folio r c
      = if r * 24 + c = rc.1 * 24 + rc.2 then (s.folio r c).switched (s.sig sig).vif (s.sig sig).code cfg.toNat s.cycle else s.folio r c := by
  have hsame (h : r * 24 + c = rc.1 * 24 + rc.2) : s.folio r c = s.folio rc.1 rc.2 := by rw [State.folio, State.folio, h]
  unfold State.switchFolio
  cases hplane : s.switchPlane sig cfg rc with
  | none =>
    by_cases h : r * 24 + c = rc.1 * 24 + rc.2
    · rw [if_pos h, hsame h, Folio.switched, ← State.switchPlane, hplane]
    · rw [if_neg h]
  | some k =>
    refine (State.folio_setFolio_apply ..).trans ?_
    split
    · rw [hsame ‹_›, Folio.switched, ← State.switchPlane, hplane]
    · rfl

/-- What a plane switch leaves: memory, the signatures, and of a folio all but its planes. -/
structure State.PlanesChanged (s t : State) : Prop where
  memory : t.memory = s.memory
  sig : ∀ n, t.sig n = s.sig n
  folio : ∀ r c, ∃ planes, t.folio r c = { s.folio r c with planes }

theorem State.PlanesChanged.spineOf {s t : State} (h : s.PlanesChanged t) (n : Nat) : t.spineOf n = s.spineOf n := by
  obtain ⟨_, hfolio⟩ := h.folio (s.sig n).row0 (s.sig n).col0
  rw [State.spineOf, h.sig, hfolio, State.spineOf]

theorem State.foldl_switchFolio_changed (sig : Nat) (cfg : BitVec 16) (s : State) (l : List (Nat × Nat)) :
    s.PlanesChanged (l.foldl (State.switchFolio sig cfg) s) := by
  refine List.foldlRecOn (motive := s.PlanesChanged) l _ ⟨rfl, fun _ => rfl, fun _ _ => ⟨_, rfl⟩⟩ fun u hu rc _ => ?_
  obtain ⟨_, hstep⟩ := State.switchFolio_keeps sig cfg u rc
  refine ⟨?_, fun n => ?_, fun r c => ?_⟩
  · rw [hstep, ← hu.memory]
  · rw [hstep, ← hu.sig]
    rfl
  · obtain ⟨planes, hplanes⟩ := hu.folio r c
    rw [State.folio_switchFolio, hplanes]
    split
    · obtain ⟨planes', hswitched⟩ := Folio.switched_eq { s.folio r c with planes } (u.sig sig).vif (u.sig sig).code cfg.toNat u.cycle
      exact ⟨planes', hswitched⟩
    · exact ⟨planes, rfl⟩

/-- Every folio of a rectangle switches to its plane. -/
theorem State.folio_foldl_switchFolio {sig : Nat} {cfg : BitVec 16} {s : State} (hcol : (s.sig sig).col0 + (s.sig sig).wd ≤ 24) {rc : Nat × Nat}
    (hrc : rc ∈ (s.sig sig).folios) :
    ((s.sig sig).folios.foldl (State.switchFolio sig cfg) s).folio rc.1 rc.2
      = (s.folio rc.1 rc.2).switched (s.sig sig).vif (s.sig sig).code cfg.toNat s.cycle := by
  obtain ⟨u, hu, hview, hfold⟩ := State.folio_foldl_own (step := State.switchFolio sig cfg) (view := fun u => (u.sig sig, u.cycle))
    (nodup_rectangle ..) (fun _ h => lt_of_mem_rectangle hcol h)
    (fun u rc => by obtain ⟨_, hstep⟩ := State.switchFolio_keeps sig cfg u rc; rw [hstep]; rfl)
    (fun u rc r c h => (State.folio_switchFolio ..).trans (if_neg h)) s hrc
  obtain ⟨hsig, hcycle⟩ := Prod.mk.inj hview
  refine hfold.trans ?_
  rw [State.folio_switchFolio, if_pos rfl, hu, hsig, hcycle]

/-! ### The seam's advance (R46, R61) -/

theorem exec_seamGenerationAdvance_of_ready {s : State} {sig : Nat} (hrequest : (s.spineOf sig).seamRequest = some .genadv)
    (hready : s.seamReady sig = true) : exec (.seamGenerationAdvance sig) s = .next (s.passSeam sig) := by
  have hexec : exec (.seamGenerationAdvance sig) s = execSeamGenerationAdvance sig s := rfl
  rw [hexec, execSeamGenerationAdvance, hrequest]
  exact if_pos hready

theorem exec_seamPlaneSwitch_of_ready {s : State} {sig : Nat} {cfg : BitVec 16} (hrequest : (s.spineOf sig).seamRequest = some (.plsw cfg))
    (hready : s.seamReady sig = true) (hswitch : s.switchReady sig cfg = true) :
    exec (.seamPlaneSwitch sig) s = .next (((s.sig sig).folios.foldl (State.switchFolio sig cfg) s).passSeam sig) := by
  have hexec : exec (.seamPlaneSwitch sig) s = execSeamPlaneSwitch sig s := rfl
  rw [hexec, execSeamPlaneSwitch]
  dsimp only
  rw [hrequest]
  dsimp only
  rw [hready, hswitch, if_neg (by decide), if_neg (by decide)]
  rfl

/-- Settles O44: each event by what it changes: a wave or a stop sets one mark of its signature, a sweep marks the folios that wrap, and an advance
changes every folio of the rectangle once. -/
theorem freezesAndSeams : Obligations.FreezesAndSeams := by
  unfold Obligations.FreezesAndSeams
  intro s sig
  refine ⟨?freeze, ?stop, ?resume, fun hstatus hsweep => exec_wrapSweep_starting hstatus hsweep, ?sweep, fun hready _ hcol => ⟨?genadv, ?plsw⟩⟩
  case freeze =>
    intro w hwaves hforce hparked hfrom hcausal hadvancing howes hdebug
    obtain ⟨hsig, hmemory, hspine⟩ := s.struckWith_spec sig w
    have hstages := State.traceSig_stagesOnly (s.struckWith sig w) sig 0x0003 1 w.cause.code
    refine ⟨_, exec_freezeWaveEffect_of_due hwaves (State.waveDue_of_fields hforce hparked hfrom hcausal hdebug) hadvancing howes, ?_, ?_, ?_, ?_, ?_⟩
    · rw [hstages.sig, hsig]
    · refine State.runs_eq_false_of_frozen (Sig.frozen_of_wave (w := { w with inForce := true, from_ := s.cycle }) ?_ rfl)
      rw [hstages.sig, hsig]
      exact List.mem_singleton_self _
    · rw [hstages.spineOf, hspine]
    · exact hstages.memory.trans hmemory
    · rw [hstages.spineOf, hspine]
  case stop =>
    intro st n hstop hnotes hforce hfrom hadvancing hrecorded
    obtain ⟨t, hexec, hsig, hmemory⟩ := exec_faultStopFreeze_of_recorded hstop hnotes hforce hfrom hadvancing hrecorded
    have hstopped : (t.sig sig).stop = some { from_ := s.cycle, notes := [], inForce := true, lifts := none } := by rw [hsig, Sig.stopped]
    exact ⟨t, hexec, hstopped, State.runs_eq_false_of_frozen (Sig.frozen_of_stop hstopped rfl), hmemory⟩
  case resume =>
    intro st k hstop hlifts hk
    have hstages := State.traceSig_stagesOnly (s.setSig sig { s.sig sig with stop := none }) sig 0x0004 1 (4 + (s.cycle - st.from_) * 16)
    refine ⟨_, exec_faultStopResume_of_lifts hstop hlifts hk, ?_, ?_, hstages.memory⟩
    · rw [hstages.sig, State.sig_setSig]
    · exact congrArg Spine.g ((hstages.spineOf sig).trans (s.spineOf_setSig rfl rfl))
  case sweep =>
    intro first k hstatus hruns hphase
    have hspine := s.spineOf_setSpineOf sig { s.spineOf sig with phase := .seam first k }
    refine ⟨_, exec_wrapSweep_running hstatus hruns hphase, ?_, ?_, fun hk => ⟨?_, fun rc _ => ?_⟩⟩
    · split
      · rw [(State.sweepFolios_swept ..).spineOf, hspine]
      · rw [hspine]
    · split
      · exact (State.sweepFolios_swept ..).memory
      · rfl
    · rw [if_pos hk]
      exact State.wraps_sweepFolios ..
    · rw [if_pos hk, (State.sweepFolios_swept ..).gen]
      exact State.folio_setSpineOf_keeps (·.gen) (fun _ _ => rfl) ..
  case genadv =>
    intro hrequest
    obtain ⟨hspine, hmemory, hfolio⟩ := State.passSeam_spec hcol
    refine ⟨_, exec_seamGenerationAdvance_of_ready hrequest hready, ?_, ?_, ?_, hmemory, fun rc hrc => (hfolio rc hrc).1⟩
    all_goals rw [hspine]
  case plsw =>
    intro cfg hrequest hkeys hplanes
    have hswitch : s.switchReady sig cfg = true := List.all_eq_true.2 fun rc hrc => by
      rw [State.switchPlane, Option.isSome_map]
      exact hplanes rc hrc
    have hchanged := State.foldl_switchFolio_changed sig cfg s (s.sig sig).folios
    obtain ⟨hspine, hmemory, hfolio⟩ := State.passSeam_spec (s := (s.sig sig).folios.foldl (State.switchFolio sig cfg) s) (sig := sig)
      (by rw [hchanged.sig]; exact hcol)
    rw [hchanged.sig] at hfolio
    refine ⟨_, exec_seamPlaneSwitch_of_ready hrequest hready hswitch, ⟨?_, ?_, ?_, hmemory.trans hchanged.memory, fun rc hrc => ?_⟩, fun rc hrc => ?_⟩
    · rw [hspine]
    · rw [hspine]
    · rw [hspine, hchanged.spineOf]
    · obtain ⟨_, hplanes⟩ := hchanged.folio rc.1 rc.2
      rw [(hfolio rc hrc).1, hplanes]
      rfl
    · rw [Folio.active, (hfolio rc hrc).2, State.folio_foldl_switchFolio hcol hrc]
      exact Folio.active_switched (hkeys rc hrc) (hplanes rc hrc)

end Sys2Proof.Machine

/-!
PROOFS. Launch queues (R28, R31 to R34), the bindery's step (R33 to R35), and the placement of a record (R34, R36).
-/

namespace Sys2Proof.Machine

/-! ### The launch window (R28, R31) -/

/-- A record as it arrives in a queue. -/
def Queued.arriving (record : Vec) (cycle : Nat) : Queued :=
  { record, prio := recordPri record, blocking := false, arrived := cycle, first := cycle, waitedBefore := 0
    candidateSince := none, ready := recordWord record 3 = 0, saved := none }

theorem State.enqueue_of_refused {s : State} {vif aux : Nat} {record : Vec} (h : s.recordRefused vif record = some aux) :
    s.enqueue vif record = s.report vif (FaultInfo.report 0x20 3 aux 0) := by
  rw [State.enqueue, h]
  rfl

theorem State.checkGang_zero (s : State) (vif : Nat) : s.checkGang vif 0 = s := by
  rw [State.checkGang]
  exact if_neg (by simp)

theorem State.enqueue_of_accepted {s : State} {vif : Nat} {record : Vec} (h : s.recordRefused vif record = none) (hgang : recordGang record = 0) :
    s.enqueue vif record
      = s.setIface vif { s.iface vif with queue := (s.iface vif).queue ++ [Queued.arriving record s.cycle] } := by
  rw [State.enqueue, h]
  dsimp only
  rw [hgang, State.checkGang_zero]
  rfl

theorem exec_launchWindowWrite_slot {s : State} (hserving : s.serving = true) {vif offset size : Nat} {record : Vec} (hsize : size = 64)
    (hoffset : offset % 64 = 0) : exec (.launchWindowWrite vif offset size record) s = .next (s.enqueue vif record) := by
  have hexec : exec (.launchWindowWrite vif offset size record) s = execLaunchWindowWrite vif offset size record s := rfl
  rw [hexec, execLaunchWindowWrite, hserving, if_neg (by decide), if_pos (by simp [hsize, hoffset])]

theorem exec_launchWindowWrite_other {s : State} (hserving : s.serving = true) {vif offset size : Nat} {record : Vec}
    (h : size ≠ 64 ∨ offset % 64 ≠ 0) :
    exec (.launchWindowWrite vif offset size record) s = .next (s.report vif (FaultInfo.report 0x21 4 offset 0)) := by
  have hexec : exec (.launchWindowWrite vif offset size record) s = execLaunchWindowWrite vif offset size record s := rfl
  rw [hexec, execLaunchWindowWrite, hserving, if_neg (by decide), if_neg (by simpa [Decidable.imp_iff_not_or] using h)]

/-! ### Readiness, aging and blocking (R32 to R34) -/

/-- The CWAIT of the only record of a queue is read. -/
theorem State.pollCwait_singleton {s : State} {vif x : Nat} {q : Queued} (hqueue : (s.iface vif).queue = [q]) (hsaved : q.saved = none)
    (haddr : recordWord q.record 3 ≠ 0) (hread : s.readVirtual vif (recordWord q.record 3) 8 = .ok x) :
    s.pollCwait vif = s.setIface vif { s.iface vif with queue := [{ q with ready := decide ((recordWord q.record 4).toNat ≤ x) }] } := by
  have hwaits : ¬(recordWord q.record 3 = 0 ∨ q.saved.isSome = true) :=
    fun h => h.elim haddr (by simp [hsaved])
  unfold State.pollCwait
  simp only [hqueue, List.filterMap_cons, List.filterMap_nil, if_neg hwaits, hread, List.length_singleton, Nat.sub_self, List.range_zero,
    List.foldl_nil]

theorem exec_priorityAging (s : State) (vif : Nat) :
    exec (.priorityAging vif) s = .next (s.setIface vif { s.iface vif with
      queue := (s.iface vif).queue.map fun q => { q with prio := min 7 (recordPri q.record + q.waited s.cycle / 2 ^ 24) } }) := rfl

theorem State.mem_of_candidate {s : State} {vif : Nat} {q : Queued} (h : s.candidate vif = some q) : q ∈ (s.iface vif).queue := by
  unfold State.candidate at h
  have hbest : ∀ x, some q = some x → x ∈ (s.iface vif).queue := h ▸ List.foldlRecOn
    (motive := fun best : Option Queued => ∀ x, best = some x → x ∈ (s.iface vif).queue) _ _ (fun _ h => nomatch h) fun best ih y hy x hx => by
      split at hx
      · exact ih x hx
      split at hx
      · exact Option.some.inj hx ▸ hy
      split at hx
      · exact Option.some.inj hx ▸ hy
      · exact ih x hx
  exact hbest q rfl

theorem State.markCandidate_eq (s : State) (vif : Nat) :
    ∃ queue, s.markCandidate vif = s.setIface vif { s.iface vif with queue } ∧ queue.length = (s.iface vif).queue.length :=
  ⟨_, rfl, List.length_map _⟩

theorem exec_candidateBecomesBlocking_of_old {s : State} {vif c : Nat} {q : Queued} (hcandidate : (s.markCandidate vif).candidate vif = some q)
    (hsince : q.candidateSince = some c) (hc : c + 2 ^ 24 ≤ s.cycle) (hplace : (s.markCandidate vif).placeGroup vif q = none) :
    exec (.candidateBecomesBlocking vif) s = .next ((s.markCandidate vif).setIface vif { (s.markCandidate vif).iface vif with
      queue := ((s.markCandidate vif).iface vif).queue.map fun x => if x = q then { x with blocking := true } else x }) := by
  have hexec : exec (.candidateBecomesBlocking vif) s = execCandidateBecomesBlocking vif s := rfl
  have hcycle : (s.markCandidate vif).cycle = s.cycle := rfl
  rw [hexec, execCandidateBecomesBlocking]
  dsimp only
  rw [hcandidate]
  dsimp only
  rw [hsince, hplace, hcycle, if_pos (by simpa using hc)]

/-! ### The bindery step (R33 to R35) -/

theorem exec_binderyStep_of_runs {s : State} (h : s.binderyRuns = true) :
    exec .binderyStep s = .next (if s.markCandidates.startAll.partlySaved then s.markCandidates.startAll
      else match s.markCandidates.startAll.blockingRecord with
        | some (v, q) => s.markCandidates.startAll.serveBlocking v q
        | none => s.markCandidates.startAll.serveVisit) := by
  have hexec : exec .binderyStep s = execBinderyStep s := rfl
  rw [hexec, execBinderyStep, h]
  exact if_neg (by decide)

theorem State.serveBlocking_of_placed {s t : State} {vif : Nat} {q : Queued} (h : s.placeGroup vif q = some t) : s.serveBlocking vif q = t := by
  rw [State.serveBlocking, h]

/-- A visit that finds nothing to place, or no place, moves on. -/
theorem State.serveVisit_of_not_placed {s : State} (h : ∀ q, (s.pollCwait s.visit).candidate s.visit = some q →
      (s.pollCwait s.visit).placeGroup s.visit q = none) :
    s.serveVisit = { s.pollCwait s.visit with visit := (s.visit + 1) % 64, visitPlaced := 0 } := by
  unfold State.serveVisit
  dsimp only
  cases hcandidate : (s.pollCwait s.visit).candidate s.visit with
  | none => rfl
  | some q =>
    dsimp only
    rw [h q hcandidate]

theorem State.serveVisit_of_placed {s t : State} {q : Queued} (hcandidate : (s.pollCwait s.visit).candidate s.visit = some q)
    (h : (s.pollCwait s.visit).placeGroup s.visit q = some t) :
    s.serveVisit = if (t.iface s.visit).policy.weight ≤ t.visitPlaced + 1 then { t with visit := (s.visit + 1) % 64, visitPlaced := 0 }
      else { t with visitPlaced := t.visitPlaced + 1 } := by
  unfold State.serveVisit
  dsimp only
  rw [hcandidate]
  dsimp only
  rw [h]

/-! ### Placement (R34, R36) -/

/-- Whether a shape fits at the corner of a number, in device folio order. -/
def State.fitsAt (s : State) (vif ht wd k : Nat) : Bool :=
  s.inPartition vif (k / 24) (k % 24) ht wd && (rectangle (k / 24) (k % 24) ht wd).all s.freeFolio

theorem State.firstFit_eq {s : State} {vif ht wd c : Nat} (hc : c < 288) (hfits : s.fitsAt vif ht wd c = true)
    (hfirst : ∀ k < c, s.fitsAt vif ht wd k = false) : s.firstFit vif ht wd none = some (c / 24, c % 24) := by
  have hfind : (List.range 288).find? (s.fitsAt vif ht wd) = some c := by
    rw [List.find?_range_eq_some]
    exact ⟨hfits, List.mem_range.2 hc, fun k hk => by simp [hfirst k hk]⟩
  unfold State.firstFit
  rw [List.find?_map, Option.map_eq_some_iff]
  refine ⟨c, ?_, rfl⟩
  rw [← hfind]
  congr 1
  funext k
  exact Bool.and_true _

theorem State.takeFolio_placed (s : State) (n : Nat) (a : Nat × Nat) (r c : Nat) :
    ((s.takeFolio n a).folio r c).placed = if r * 24 + c = a.1 * 24 + a.2 then n + 1 else (s.folio r c).placed := by
  unfold State.takeFolio
  rw [State.folio_setFolio_apply]
  split <;> rfl

/-- A folio taken for a signature stays its own while others are taken. -/
theorem State.foldl_takeFolio_placed (s : State) (n : Nat) (l : List (Nat × Nat)) {rc : Nat × Nat} (h : rc ∈ l ∨ (s.folio rc.1 rc.2).placed = n + 1) :
    ((l.foldl (fun s rc => s.takeFolio n rc) s).folio rc.1 rc.2).placed = n + 1 := by
  induction l generalizing s with
  | nil => exact h.resolve_left List.not_mem_nil
  | cons a rest ih =>
    refine ih (s.takeFolio n a) ?_
    rw [State.takeFolio_placed]
    by_cases hindex : rc.1 * 24 + rc.2 = a.1 * 24 + a.2
    · exact .inr (if_pos hindex)
    · rw [if_neg hindex]
      exact h.imp_left fun hmem => (List.mem_cons.1 hmem).resolve_left fun he => hindex (he ▸ rfl)

theorem Folio.beginLoad_placed {f f' : Folio} {vif cfg : Nat} {image source : Word} (h : f.beginLoad vif image cfg source = some f') :
    f'.placed = f.placed := by
  obtain ⟨k, -, rfl⟩ := Option.map_eq_some_iff.1 h
  rfl

/-- The loading of a plane leaves signatures and what is placed. -/
theorem State.loadAnew_keeps (s : State) (sig cfg place : Nat) :
    (∀ n, (s.loadAnew sig cfg place).sig n = s.sig n) ∧ ∀ r c, ((s.loadAnew sig cfg place).folio r c).placed = (s.folio r c).placed := by
  unfold State.loadAnew
  dsimp only
  split
  · exact ⟨fun _ => rfl, fun _ _ => rfl⟩
  split
  · exact ⟨fun _ => rfl, fun _ _ => rfl⟩
  split
  · exact ⟨fun _ => rfl, fun r c => State.folio_setFolio_keeps (·.placed) s _ _ r c (Folio.beginLoad_placed ‹_›)⟩
  · exact ⟨fun _ => rfl, fun _ _ => rfl⟩

theorem State.foldl_loadAnew_keeps (s : State) (sig cfg : Nat) (l : List Nat) :
    (∀ n, (l.foldl (fun s p => s.loadAnew sig cfg p) s).sig n = s.sig n)
      ∧ ∀ r c, ((l.foldl (fun s p => s.loadAnew sig cfg p) s).folio r c).placed = (s.folio r c).placed := by
  refine List.foldlRecOn (motive := fun t : State => (∀ n, t.sig n = s.sig n) ∧ ∀ r c, (t.folio r c).placed = (s.folio r c).placed) l _
    ⟨fun _ => rfl, fun _ _ => rfl⟩ fun u hu p _ => ?_
  obtain ⟨hsig, hplaced⟩ := u.loadAnew_keeps sig cfg p
  exact ⟨fun n => (hsig n).trans (hu.1 n), fun r c => (hplaced r c).trans (hu.2 r c)⟩

/-- A record placed at a corner: its signature starts there, and its folios are its signature's. -/
theorem State.placeAt_spec (s : State) (vif : Nat) (q : Queued) (gang : Nat) (corner : Nat × Nat) :
    let t := s.placeAt vif q gang corner
    let g := t.sig s.freshSig
    (g.status = .starting ∧ g.row0 = corner.1 ∧ g.col0 = corner.2 ∧ g.ht = recordHt q.record ∧ g.wd = recordWd q.record ∧ g.record = q.record)
      ∧ ∀ rc ∈ rectangle corner.1 corner.2 (recordHt q.record) (recordWd q.record), (t.folio rc.1 rc.2).placed = s.freshSig + 1 := by
  unfold State.placeAt
  extract_lets n ht wd fs unused g u v t gPlaced
  obtain ⟨hsig, hplaced⟩ := v.foldl_loadAnew_keeps n 0 (List.range (ht * wd))
  have hg : gPlaced = g := (hsig n).trans (State.sig_setSig ..)
  refine ⟨?_, fun rc hrc => ?_⟩
  · rw [hg]
    exact ⟨rfl, rfl, rfl, rfl, rfl, rfl⟩
  · exact (hplaced rc.1 rc.2).trans (State.foldl_takeFolio_placed u n fs (.inl hrc))

/-- A record that nothing is reserved for is placed at the first corner where it fits. -/
theorem State.placeOne_of_fits {s : State} {vif gang c : Nat} {q : Queued} (hsaved : q.saved = none)
    (hreserved : s.reservedFor vif (recordHt q.record) (recordWd q.record) = none) (hc : c < 288)
    (hfits : s.fitsAt vif (recordHt q.record) (recordWd q.record) c = true)
    (hfirst : ∀ k < c, s.fitsAt vif (recordHt q.record) (recordWd q.record) k = false) :
    s.placeOne vif gang q = some ((s.dequeue vif q).placeAt vif q gang (c / 24, c % 24)) := by
  rw [State.placeOne, hsaved]
  dsimp only
  rw [hreserved]
  dsimp only
  rw [State.firstFit_eq hc hfits hfirst, Option.map_some]

/-- Settles O45: the queue's events each change one queue, the bindery's step is one of its branches, and a placement takes the folios of the first
corner that fits. -/
theorem queuesAndPlacement : Obligations.QueuesAndPlacement := by
  unfold Obligations.QueuesAndPlacement
  refine ⟨fun s vif => ⟨fun hserving offset size record => ⟨?accepted, ?refused, ?other⟩, ?cwait, exec_priorityAging s vif, ?blocking⟩,
    fun s => ⟨?partly, fun hruns hpartly => ⟨?served, ?visit⟩, ?placed⟩⟩
  case accepted =>
    intro hsize hoffset hrefused hgang
    refine ⟨_, Queued.arriving record s.cycle, exec_launchWindowWrite_slot hserving hsize hoffset, ?_, rfl, rfl, rfl, rfl, ?_⟩
    · rw [State.enqueue_of_accepted hrefused hgang, State.iface_setIface]
    · rw [State.enqueue_of_accepted hrefused hgang]
      rfl
  case refused =>
    intro aux hsize hoffset hrefused
    rw [exec_launchWindowWrite_slot hserving hsize hoffset, State.enqueue_of_refused hrefused]
  case other => exact exec_launchWindowWrite_other hserving
  case cwait =>
    intro q x hqueue hsaved haddr hread
    refine ⟨s.pollCwait vif, rfl, ?_, ?_⟩
    · rw [State.pollCwait_singleton hqueue hsaved haddr hread, State.iface_setIface]
    · rw [State.pollCwait_singleton hqueue hsaved haddr hread]
      rfl
  case blocking =>
    intro q c u hcandidate hsince hc hplace
    obtain ⟨queue, hmark, hlength⟩ := s.markCandidate_eq vif
    refine ⟨_, exec_candidateBecomesBlocking_of_old hcandidate hsince hc hplace, ?_, ?_, rfl⟩
    · rw [State.iface_setIface]
      exact List.mem_map.2 ⟨q, State.mem_of_candidate hcandidate, if_pos rfl⟩
    · rw [State.iface_setIface, List.length_map, hmark, State.iface_setIface, hlength]
  case partly =>
    intro hruns hpartly
    rw [exec_binderyStep_of_runs hruns, if_pos hpartly]
  case served =>
    intro x q t hblocking hplace
    rw [exec_binderyStep_of_runs hruns, hpartly, hblocking, ← State.serveBlocking_of_placed hplace]
    rfl
  case visit =>
    intro hblocking
    have hstep : exec .binderyStep s = .next s.markCandidates.startAll.serveVisit := by
      rw [exec_binderyStep_of_runs hruns, hpartly, hblocking]
      rfl
    refine ⟨fun hnone => ?_, fun q hcandidate hplace => ?_, fun q t hcandidate hplace => ?_⟩
    · rw [hstep, State.serveVisit_of_not_placed fun q hq => nomatch hnone.symm.trans hq]
    · rw [hstep, State.serveVisit_of_not_placed fun q' hq' => Option.some.inj (hcandidate.symm.trans hq') ▸ hplace]
    · rw [hstep, State.serveVisit_of_placed hcandidate hplace]
  case placed =>
    intro vif gang q c ht wd fits hsaved hreserved hc hfits hfirst n
    obtain ⟨⟨hstatus, hrow, hcol, hht, hwd, hrecord⟩, hplaced⟩ := (s.dequeue vif q).placeAt_spec vif q gang (c / 24, c % 24)
    exact ⟨_, State.placeOne_of_fits hsaved hreserved hc hfits hfirst, hstatus, hrow, hcol, hht, hwd, hrecord, hplaced⟩

end Sys2Proof.Machine

/-!
PROOFS. The events of a running signature: fetches (R18, R141), results that land (R201, R225), votes (R223), routed values (R233), wait conditions
and holds (R23, R24, R26), and the reads of a spine that waits (R158, R180).
-/

namespace Sys2Proof.Machine

/-! ### Fetches (R18, R141) -/

theorem State.fillTlb_eq (s : State) (die vif va : Nat) (l : Leaf) : ∃ tlb free, s.fillTlb die vif va l = { s with tlb, free } := ⟨_, _, rfl⟩

/-- A block whose fetch passes its checks is opened and kept. -/
theorem exec_fetchBlockArrives_of_ok {s : State} {sig block pa : Nat} {k : Material} (hstatus : (s.sig sig).status = .running)
    (htranslate : s.translatePages (some (dieOf (s.sig sig).row0 (s.sig sig).col0)) (s.sig sig).vif (BitVec.ofNat 64 (64 * block)) [.x] = .ok pa)
    (hworld : s.worldMaterial (s.sig sig).vif = .ok k) (hpoisoned : s.poisonedUnits.contains (pa / 64) = false) :
    ∃ tlb free, exec (.fetchBlockArrives sig block) s = .next (({ s with tlb, free } : State).setSpineOf sig { s.spineOf sig with
      fetched := (block, s.getUnit k pa block) :: (s.spineOf sig).fetched.filter fun b => b.1 != block
      wanted := (s.spineOf sig).wanted.filter fun b => b != block }) := by
  have hexec : exec (.fetchBlockArrives sig block) s = execFetchBlockArrives sig block s := rfl
  rw [hexec, execFetchBlockArrives]
  dsimp only
  rw [htranslate, hworld]
  dsimp only
  rw [hstatus, hpoisoned, if_neg (by decide)]
  split
  · obtain ⟨tlb, free, hfill⟩ := s.fillTlb_eq (dieOf (s.sig sig).row0 (s.sig sig).col0) (s.sig sig).vif (BitVec.ofNat 64 (64 * block)).toNat ‹_›
    rw [hfill]
    exact ⟨tlb, free, rfl⟩
  · exact ⟨s.tlb, s.free, rfl⟩

/-! ### Results that land (R201, R225) -/

theorem Element.land_withPending (e : Element) (pending : List Pending) (gen : Gen) (w : Write) :
    ({ e with pending } : Element).land gen w = { e.land gen w with pending } := by
  cases w with
  | v i data mask fmt scaled => rfl
  | a i data mask kindI => rfl
  | s i data => rfl
  | k i data mask =>
    unfold Element.land
    dsimp only
    split <;> rfl
  | ring i data => rfl

/-- A landing result changes registers and rings alone. -/
theorem Element.land_keeps (e : Element) (gen : Gen) (w : Write) :
    (e.land gen w).pending = e.pending ∧ (e.land gen w).matrix = e.matrix ∧ (e.land gen w).pad = e.pad := by
  cases w with
  | v i data mask fmt scaled => exact ⟨rfl, rfl, rfl⟩
  | a i data mask kindI => exact ⟨rfl, rfl, rfl⟩
  | s i data => exact ⟨rfl, rfl, rfl⟩
  | k i data mask =>
    unfold Element.land
    dsimp only
    split <;> exact ⟨rfl, rfl, rfl⟩
  | ring i data => exact ⟨rfl, rfl, rfl⟩

theorem Element.landDue_keeps (e : Element) (t : Nat) :
    (e.landDue t).pending = e.pending.filter (fun p => t < p.due) ∧ (e.landDue t).matrix = e.matrix ∧ (e.landDue t).pad = e.pad := by
  unfold Element.landDue
  refine List.foldlRecOn (motive := fun u : Element => u.pending = e.pending.filter (fun p => t < p.due) ∧ u.matrix = e.matrix ∧ u.pad = e.pad)
    _ _ ⟨rfl, rfl, rfl⟩ fun u hu p _ => ?_
  obtain ⟨hpending, hmatrix, hpad⟩ := u.land_keeps p.gen p.write
  exact ⟨hpending.trans hu.1, hmatrix.trans hu.2.1, hpad.trans hu.2.2⟩

/-- The only pending result of an element lands when it is due. -/
theorem Element.landDue_singleton {e : Element} {x : Pending} {t : Nat} (hpending : e.pending = [x]) (hdue : x.due ≤ t) :
    e.landDue t = { e.land x.gen x.write with pending := [] } := by
  have hnow : dueAt t [x] = [x] := by simp [dueAt, hdue, insertPending]
  have hlater : [x].filter (fun p => t < p.due) = [] := by simp [hdue]
  rw [Element.landDue, hpending, hnow, hlater, List.foldl_cons, List.foldl_nil, Element.land_withPending]

theorem exec_resultLands_of_runs {s : State} {sig : Nat} (hruns : s.runs sig = true) (row col : Nat) :
    exec (.resultLands sig row col) s
      = .next (s.setElementOf sig row col (((s.elementOf sig row col).landDue (s.sig sig).time).readTiles (s.sig sig).time)) := by
  have hexec : exec (.resultLands sig row col) s = execResultLands sig row col s := rfl
  rw [hexec, execResultLands, hruns]
  rfl

theorem Element.mem_matrix_readTiles (e : Element) (t : Nat) (m : MatrixOp) :
    m ∈ (e.readTiles t).matrix ↔ m ∈ e.matrix ∧ t < m.readAt := by
  simp [Element.readTiles]

theorem Element.mem_pending_readTiles {e : Element} {t : Nat} {p : Pending} :
    p ∈ (e.readTiles t).pending ↔ p ∈ e.pending ∨ ∃ m ∈ e.matrix, m.readAt ≤ t ∧ ∃ w ∈ m.writes e, ⟨m.readAt + 1, m.word, false, m.gen, w⟩ = p := by
  simp [Element.readTiles, and_assoc]

/-! ### Votes (R22, R223) -/

theorem Vote.value_eq (v : Vote) :
    v.value = if v.mode = 0 then (if v.ones = 0 then 0 else 1) else if v.mode = 1 then (if v.ones = v.takers then 1 else 0)
      else if v.mode = 2 then BitVec.ofNat 64 v.ones else v.orValue := by
  unfold Vote.value
  split <;> simp_all

/-- The only vote due is written to vt. -/
theorem exec_voteResultDelivered_of_due {s : State} {sig : Nat} {v : Vote} {rest : List Vote} (hruns : s.runs sig = true)
    (hvotes : (s.sig sig).votes = v :: rest) (hdue : v.due ≤ (s.sig sig).time) (hrest : ∀ x ∈ rest, (s.sig sig).time < x.due) :
    exec (.voteResultDelivered sig) s
      = .next ((s.setSpineOf sig { s.spineOf sig with vt := v.value }).setSig sig { s.sig sig with votes := rest }) := by
  have hexec : exec (.voteResultDelivered sig) s = execVoteResultDelivered sig s := rfl
  have hnow : (v :: rest).filter (fun v => v.due ≤ (s.sig sig).time) = [v] := by
    rw [List.filter_cons_of_pos (by simpa using hdue), List.filter_eq_nil_iff.2 (by simpa using hrest)]
  have hlater : (v :: rest).filter (fun v => (s.sig sig).time < v.due) = rest := by
    rw [List.filter_cons_of_neg (by simpa using hdue), List.filter_eq_self.2 (by simpa using hrest)]
  rw [hexec, execVoteResultDelivered, hruns, if_neg (by decide)]
  dsimp only
  rw [hvotes, hnow, hlater]
  rfl

/-! ### Routed values (R20, R233) -/

theorem State.element_setElement_apply (s : State) (row col r c : Nat) (e : Element) :
    (s.setElement row col e).element r c = if r * 384 + c = row * 384 + col then e else s.element r c :=
  Tab.get_set ..

theorem State.elementOf_setElementOf (s : State) (sig row col r c : Nat) (e : Element) :
    (s.setElementOf sig row col e).elementOf sig r c
      = if (16 * (s.sig sig).row0 + r) * 384 + (16 * (s.sig sig).col0 + c)
          = (16 * (s.sig sig).row0 + row) * 384 + (16 * (s.sig sig).col0 + col) then e else s.elementOf sig r c :=
  State.element_setElement_apply ..

/-- What a setting of an element leaves as it was reads the same in every element. -/
theorem State.elementOf_setElementOf_keeps {β : Type} (view : Element → β) (s : State) (sig row col r c : Nat) {e : Element}
    (h : view e = view (s.elementOf sig row col)) : view ((s.setElementOf sig row col e).elementOf sig r c) = view (s.elementOf sig r c) := by
  rw [State.elementOf_setElementOf]
  by_cases hindex : (16 * (s.sig sig).row0 + r) * 384 + (16 * (s.sig sig).col0 + c)
      = (16 * (s.sig sig).row0 + row) * 384 + (16 * (s.sig sig).col0 + col)
  · rw [if_pos hindex, h, State.elementOf, State.elementOf, State.element, State.element, hindex]
  · rw [if_neg hindex]

/-- An element's values on their way have left it. -/
def State.sentOut (s : State) (sig row col : Nat) : State := s.setElementOf sig row col { s.elementOf sig row col with delay := [] }

/-- A value enters an element's port view. -/
def State.arrives (s : State) (sig r c : Nat) (value : Arrived) : State :=
  s.setElementOf sig r c { s.elementOf sig r c with ports := (s.elementOf sig r c).ports ++ [value] }

theorem State.delay_sentOut (s : State) (sig row col : Nat) : ((s.sentOut sig row col).elementOf sig row col).delay = [] := by
  rw [State.sentOut, State.elementOf_setElementOf, if_pos rfl]

theorem State.ports_sentOut (s : State) (sig row col r c : Nat) :
    ((s.sentOut sig row col).elementOf sig r c).ports = (s.elementOf sig r c).ports :=
  State.elementOf_setElementOf_keeps (e := { s.elementOf sig row col with delay := [] }) (·.ports) s sig row col r c rfl

theorem State.delay_arrives (s : State) (sig r c row col : Nat) (value : Arrived) :
    ((s.arrives sig r c value).elementOf sig row col).delay = (s.elementOf sig row col).delay :=
  State.elementOf_setElementOf_keeps (e := { s.elementOf sig r c with ports := (s.elementOf sig r c).ports ++ [value] }) (·.delay) s sig r c
    row col rfl

theorem State.ports_arrives (s : State) (sig r c : Nat) (value : Arrived) :
    ((s.arrives sig r c value).elementOf sig r c).ports = (s.elementOf sig r c).ports ++ [value] := by
  rw [State.arrives, State.elementOf_setElementOf, if_pos rfl]

/-- The only value on its way from an element enters the neighbour's port view when it is due. -/
theorem exec_routeValueLands_of_due {s : State} {sig row col : Nat} {x : Routed} (hruns : s.runs sig = true)
    (hdelay : (s.elementOf sig row col).delay = [x]) (hdue : x.leaves ≤ (s.sig sig).time) :
    exec (.routeValueLands sig row col) s = .next ((s.sentOut sig row col).arrives sig (x.out.to row col).1 (x.out.to row col).2.1
      ⟨(x.out.to row col).2.2, x.word, x.sent, x.value⟩) := by
  have hexec : exec (.routeValueLands sig row col) s = execRouteValueLands sig row col s := rfl
  have hnow : [x].filter (fun x => x.leaves ≤ (s.sig sig).time) = [x] := by simp [hdue]
  have hlater : [x].filter (fun x => (s.sig sig).time < x.leaves) = [] := by simp [hdue]
  rw [hexec, execRouteValueLands, hruns, if_neg (by decide)]
  dsimp only
  rw [hdelay, hnow, hlater]
  rfl

/-! ### Wait conditions and holds (R23, R24, R26) -/

/-- The open words of a signature whose wait condition is true. -/
def State.waitingWords (s : State) (sig : Nat) : List (InFlight × Nat × Nat) :=
  ((s.checkedWords sig (!s.runs sig)).filter fun (w, r, c) => !(s.sig sig).passed.contains (w.n, r, c)).filter fun (w, r, c) => s.waits sig w r c

theorem State.mem_waitingWords {s : State} {sig : Nat} {x : InFlight × Nat × Nat} :
    x ∈ s.waitingWords sig ↔ x ∈ s.checkedWords sig (!s.runs sig) ∧ (x.1.n, x.2.1, x.2.2) ∉ (s.sig sig).passed
      ∧ s.waits sig x.1 x.2.1 x.2.2 = true := by
  simp [State.waitingWords, and_comm]

theorem exec_waitConditionCheck_of_started {s : State} {sig : Nat} (hstatus : (s.sig sig).status ≠ .starting) :
    ∃ passed, exec (.waitConditionCheck sig) s = .next (s.setSig sig { s.sig sig with
      passed, asserted := ((!(s.waitingWords sig).isEmpty) :: (s.sig sig).asserted).take 12 }) := by
  have hexec : exec (.waitConditionCheck sig) s = execWaitConditionCheck sig s := rfl
  rw [hexec, execWaitConditionCheck]
  dsimp only
  rw [if_neg (mt beq_iff_eq.1 hstatus), List.partition_eq_filter_filter]
  exact ⟨_, rfl⟩

theorem exec_holdFreeze (s : State) (sig : Nat) :
    exec (.holdFreeze sig) s = .next (if (s.sig sig).asserted.getD 11 false then s.setSig sig { s.sig sig with held := true } else s) := rfl

theorem exec_holdRelease (s : State) (sig : Nat) :
    exec (.holdRelease sig) s = .next (if (s.sig sig).asserted.getD 11 false then s else s.setSig sig { s.sig sig with held := false }) := rfl

theorem getD_eq_true_iff {l : List Bool} {k : Nat} : l.getD k false = true ↔ l[k]? = some true := by
  rw [List.getD_eq_getElem?_getD]
  cases l[k]? <;> simp

/-! ### Waiting slots (R158, R180) -/

theorem exec_spineWaitSatisfied_of_waiting {s : State} {sig : Nat} (hruns : s.runs sig = true)
    (hphase : (s.spineOf sig).phase = .slotA ∨ (s.spineOf sig).phase = .slotB) (hresume : (s.spineOf sig).resumeAt ≤ s.cycle) :
    exec (.spineWaitSatisfied sig) s = .next
      { s with focus := { Focus.idle with sig, spine := true }, agenda := [.spineSlot false, .spineSlot true] ++ s.agenda } := by
  have hexec : exec (.spineWaitSatisfied sig) s = execSpineWaitSatisfied sig s := rfl
  rw [hexec, execSpineWaitSatisfied, hruns, decide_eq_true hresume]
  rcases hphase with hphase | hphase <;> rw [hphase] <;> rfl

/-! ### Reads of the spine context (R73, R83, R180) -/

/-- A read under the world key, at an address that passes its checks: the page it lies in, where a die's TLB holds it, permits it. -/
structure State.Serves (s : State) (die vif : Nat) (va : Word) (pa : Nat) : Prop where
  high : (va.extractLsb' 56 8).toNat = 0
  leaf : ∀ l, s.tlbHit die vif va.toNat = some l → s.checkLeaf l va.toNat [.rd] = .ok pa
  world : (s.iface vif).worldKey.isSome = true

theorem State.serves_of_translatePages {s : State} {die vif pa : Nat} {va : Word} (h : s.translatePages (some die) vif va [.rd] = .ok pa)
    (hworld : (s.iface vif).worldKey.isSome = true) : s.Serves die vif va pa := by
  unfold State.translatePages at h
  split at h
  · cases h
  refine ⟨not_not.1 ‹_›, fun l hl => ?_, hworld⟩
  rw [Option.bind_some, hl] at h
  exact h

theorem State.Serves.congr {s t : State} {die vif pa : Nat} {va : Word} (h : s.Serves die vif va pa) (htlb : t.tlb = s.tlb)
    (hplatform : t.platform = s.platform) (hifaces : t.ifaces = s.ifaces) : t.Serves die vif va pa where
  high := h.high
  leaf l hl := by
    rw [State.tlbHit, htlb, ← State.tlbHit] at hl
    rw [State.checkLeaf_of_platform hplatform]
    exact h.leaf l hl
  world := by
    rw [State.iface, hifaces]
    exact h.world

theorem State.sendOn_world {s : State} {r : Request} {pa : Nat} (hop : r.op = .read) (hkey : r.key = .world)
    (hworld : (s.iface r.vif).worldKey.isSome = true) : s.sendOn r pa = s.updateRequest { r with pa, stage := .travel } := by
  obtain ⟨k, hk⟩ := Option.isSome_iff_exists.1 hworld
  have hmaterial : s.material r.vif .world = some (some (k, 0)) := by rw [State.material, hk, Option.map_some]
  have hbelow : belowDomain (some (k, 0)) (r.sealVa.toNat / 64) = false := by simp [belowDomain]
  have hsealed : ({ r with pa } : Request).sealAtPort (some (k, 0)) = { r with pa } := by
    unfold Request.sealAtPort
    rw [hop]
  have hmiss (port : Nat) : s.keyMiss { r with pa } port = false := by
    unfold State.keyMiss
    rw [hkey]
  unfold State.sendOn
  dsimp only
  rw [hkey, hmaterial]
  dsimp only
  rw [hbelow, if_neg (by decide), ← hkey, hsealed, hmiss]
  rfl

/-- A read under the world key whose checks pass waits for its walk, or goes on to its home. -/
theorem State.translateRequest_of_serves {s : State} {r : Request} {pa : Nat} (hop : r.op = .read) (hkey : r.key = .world)
    (hserves : s.Serves r.die r.vif r.va pa) :
    s.translateRequest r = s.updateRequest { r with stage := .translate }
      ∨ s.translateRequest r = s.updateRequest { r with pa, stage := .travel } := by
  unfold State.translateRequest
  rw [if_neg (not_not.2 hserves.high)]
  cases hhit : s.tlbHit r.die r.vif r.va.toNat with
  | none => exact .inl rfl
  | some l =>
    have hleaf : s.checkLeaf l r.va.toNat [r.op.need] = .ok pa := by
      rw [hop]
      exact hserves.leaf l hhit
    dsimp only
    rw [hleaf]
    exact .inr (State.sendOn_world hop hkey hserves.world)

theorem State.watch_eq (s : State) (vif sig va kind : Nat) : ∃ debugger, s.watch vif sig va kind = { s with debugger } := by
  unfold State.watch
  dsimp only
  split
  · exact ⟨_, rfl⟩
  split
  · exact ⟨_, rfl⟩
  · exact ⟨_, rfl⟩

theorem State.mem_updateRequest {s : State} {r q : Request} (hmem : r ∈ s.requests) (hid : q.id = r.id) : q ∈ (s.updateRequest q).requests :=
  List.mem_map.2 ⟨r, hmem, if_pos hid.symm⟩

/-- The request of a signature enters the list, and counts. -/
def State.entered (s : State) (sig : Nat) (r : Request) : State :=
  ({ s with requests := s.requests ++ [r], nextRequest := s.nextRequest + 1 } : State).count sig 5 1

theorem State.mem_requests_entered (s : State) (sig : Nat) (r : Request) : r ∈ (s.entered sig r).requests :=
  List.mem_append_right s.requests (List.mem_singleton_self r)

theorem State.readAhead_entered (s : State) (sig : Nat) (r : Request) :
    ((s.entered sig r).spineOf sig).readAhead = (s.spineOf sig).readAhead := by
  obtain ⟨capture, hcount⟩ :=
    ({ s with requests := s.requests ++ [r], nextRequest := s.nextRequest + 1 } : State).spineOf_count sig 5 1
  rw [State.entered, hcount]
  rfl

/-- The request that the spine context's access makes, as it enters the list. -/
def State.spineAccess (s : State) (sig : Nat) (va : Word) (op : ReqOp) : Request := { s.spineRequest sig va op with id := s.nextRequest }

theorem State.issueSpine_eq (s : State) (sig : Nat) (va : Word) (op : ReqOp) :
    s.issueSpine sig va op =
      let u := s.watch (s.sig sig).vif sig va.toNat op.watchKind
      (u.entered sig (u.spineAccess sig va op)).translateRequest (u.spineAccess sig va op) := rfl

/-- A read of the spine context is issued: it waits for its walk, or goes on to its home. -/
theorem State.issueSpine_read {s : State} {sig pa : Nat} {ea : Word}
    (hserves : s.Serves (dieOf (s.sig sig).row0 (s.sig sig).col0) (s.sig sig).vif ea pa) :
    ((s.issueSpine sig ea .read).spineOf sig).readAhead = (s.spineOf sig).readAhead ∧ (s.issueSpine sig ea .read).memory = s.memory
      ∧ ∃ r ∈ (s.issueSpine sig ea .read).requests, r.source = .spine sig ∧ r.va = ea ∧ r.op = .read
        ∧ (r.stage = .translate ∨ r.stage = .travel ∧ r.pa = pa) := by
  obtain ⟨debugger, hwatch⟩ := s.watch_eq (s.sig sig).vif sig ea.toNat (ReqOp.read).watchKind
  rw [State.issueSpine_eq, hwatch]
  extract_lets u
  have hreadAhead : ((u.entered sig (u.spineAccess sig ea .read)).spineOf sig).readAhead = (s.spineOf sig).readAhead :=
    u.readAhead_entered sig _
  have hmem := u.mem_requests_entered sig (u.spineAccess sig ea .read)
  have hentered : (u.entered sig (u.spineAccess sig ea .read)).Serves (dieOf (s.sig sig).row0 (s.sig sig).col0) (s.sig sig).vif ea pa :=
    hserves.congr rfl rfl rfl
  rcases State.translateRequest_of_serves (r := u.spineAccess sig ea .read) rfl rfl hentered with hissue | hissue
  · rw [hissue]
    exact ⟨hreadAhead, rfl, _, State.mem_updateRequest hmem rfl, rfl, rfl, rfl, .inl rfl⟩
  · rw [hissue]
    exact ⟨hreadAhead, rfl, _, State.mem_updateRequest hmem rfl, rfl, rfl, rfl, .inr ⟨rfl, rfl⟩⟩

theorem exec_waitcPoll_of_waiting {s : State} {sig : Nat} {ea : Word} (hruns : s.runs sig = true) (hpoll : (s.spineOf sig).poll = some ea)
    (hwaiting : (s.spineOf sig).waiting = true) (hanswer : (s.spineOf sig).answer = none) (hreading : s.reading sig = false)
    (hfull : s.portFull sig = false) :
    exec (.waitcPoll sig) s
      = .next (((s.setSpineOf sig { s.spineOf sig with progress := 1 }).emptyReadAhead sig).issueSpine sig ea .read) := by
  have hexec : exec (.waitcPoll sig) s = execWaitcPoll sig s := rfl
  rw [hexec, execWaitcPoll]
  dsimp only
  rw [hpoll]
  dsimp only
  rw [hruns, hwaiting, hanswer, hreading, hfull]
  rfl

theorem State.spineOf_emptyReadAhead (s : State) (sig : Nat) : (s.emptyReadAhead sig).spineOf sig = { s.spineOf sig with readAhead := [] } :=
  s.spineOf_setSpineOf sig _

/-- Settles O39: every event of a running signature by its own equation, and what that equation says of the state. -/
theorem fabricEvents : Obligations.FabricEvents := by
  unfold Obligations.FabricEvents
  intro s sig
  refine ⟨?fetch, fun hruns row col => ⟨exec_resultLands_of_runs hruns row col, ?lands, ?pending, ?matrix, ?tiles, ?pad⟩, ?vote, ?route, ?wait,
    ?freeze, ?release, exec_spineWaitSatisfied_of_waiting, ?poll⟩
  case fetch =>
    intro block pa k hstatus htranslate hworld hpoisoned
    obtain ⟨tlb, free, hexec⟩ := exec_fetchBlockArrives_of_ok hstatus htranslate hworld hpoisoned
    refine ⟨_, hexec, ?_, ?_, rfl⟩
    · rw [State.spineOf_setSpineOf]
      exact List.mem_cons_self ..
    · rw [State.spineOf_setSpineOf]
      simp
  case lands => exact fun x hpending hdue => Element.landDue_singleton hpending hdue
  case pending =>
    intro x hx hdue
    refine Element.mem_pending_readTiles.2 (.inl ?_)
    rw [(Element.landDue_keeps ..).1]
    exact List.mem_filter.2 ⟨hx, decide_eq_true hdue⟩
  case matrix =>
    intro m
    rw [Element.mem_matrix_readTiles, (Element.landDue_keeps ..).2.1]
  case tiles =>
    intro m hm hdue w hw
    refine Element.mem_pending_readTiles.2 (.inr ⟨m, ?_, hdue, w, hw, rfl⟩)
    rw [(Element.landDue_keeps ..).2.1]
    exact hm
  case pad => exact (Element.landDue_keeps ..).2.2
  case vote =>
    intro v rest hruns hvotes hdue hrest
    have hspine := (s.setSpineOf sig { s.spineOf sig with vt := v.value }).spineOf_setSig (sig := sig) (g := { s.sig sig with votes := rest }) rfl rfl
    rw [State.spineOf_setSpineOf] at hspine
    refine ⟨_, exec_voteResultDelivered_of_due hruns hvotes hdue hrest, ?_, ?_, rfl, ?_⟩
    · rw [State.sig_setSig]
    · rw [hspine]
    · rw [hspine]
      exact v.value_eq
  case route =>
    intro row col x hruns hdelay hdue there
    refine ⟨_, exec_routeValueLands_of_due hruns hdelay hdue, ?_, ?_, rfl⟩
    · rw [State.delay_arrives, State.delay_sentOut]
    · rw [State.ports_arrives, State.ports_sentOut]
  case wait =>
    intro hstatus
    obtain ⟨passed, hexec⟩ := exec_waitConditionCheck_of_started hstatus
    refine ⟨passed, _, hexec, rfl, ?_⟩
    simp only [← State.mem_waitingWords (s := s) (sig := sig)]
    simp [List.take_succ_cons, List.eq_nil_iff_forall_not_mem]
  case freeze =>
    intro hasserted
    rw [exec_holdFreeze, if_pos (getD_eq_true_iff.2 hasserted)]
  case release =>
    intro hasserted
    rw [exec_holdRelease, if_neg (mt getD_eq_true_iff.1 hasserted)]
  case poll =>
    intro ea pa hruns hpoll hwaiting hanswer hreading hfocus hreaches
    rw [State.Reaches, hfocus] at hreaches
    obtain ⟨hfull, htranslate, hworld⟩ := hreaches
    have hserves := State.serves_of_translatePages htranslate hworld
    let u := (s.setSpineOf sig { s.spineOf sig with progress := 1 }).emptyReadAhead sig
    have hserves' : u.Serves (dieOf (s.sig sig).row0 (s.sig sig).col0) (s.sig sig).vif ea pa := hserves.congr rfl rfl rfl
    obtain ⟨hreadAhead, hmemory, hrequest⟩ := State.issueSpine_read (s := u) (sig := sig) hserves'
    refine ⟨_, exec_waitcPoll_of_waiting hruns hpoll hwaiting hanswer hreading hfull, hreadAhead.trans ?_, hmemory, hrequest⟩
    rw [State.spineOf_emptyReadAhead]

end Sys2Proof.Machine

/-!
PROOFS. Element state: results that land (R63, R201), and buffer instructions (R59, R60, R239, R352, R356, R369).
-/

namespace Sys2Proof.Machine

/-! ### Claiming writes (R63) -/

theorem getLsbD_claimed {w : Nat} (current : Bool) (old data mask : BitVec w) {j : Nat} (hj : j < w) :
    (claimed current old data mask).getLsbD j = if mask.getLsbD j then data.getLsbD j else current && old.getLsbD j := by
  have hkept : (old &&& ~~~mask).getLsbD j = (old.getLsbD j && !mask.getLsbD j) := by
    rw [BitVec.getLsbD_and, BitVec.getLsbD_not, decide_eq_true hj, Bool.true_and]
  cases current
  · rw [claimed, if_neg Bool.false_ne_true, BitVec.getLsbD_and]
    cases mask.getLsbD j <;> simp
  · rw [claimed, if_pos rfl, BitVec.getLsbD_or, hkept, BitVec.getLsbD_and]
    cases mask.getLsbD j <;> simp

/-- A write of every bit leaves nothing of the old item. -/
theorem claimed_whole {w : Nat} (current : Bool) (old data : BitVec w) : claimed current old data (-1) = data := by
  cases current <;> simp [claimed, BitVec.neg_one_eq_allOnes]

/-- A scalar is written whole, so that no poison mark stays. -/
theorem Tagged.write_whole {w : Nat} (r : Tagged w) (gen : Gen) (data : BitVec w) : r.write gen data (-1) = ⟨data, gen, false⟩ := by
  rw [Tagged.write, claimed_whole, bne_self_eq_false, Bool.and_false]

theorem Element.land_k_zero (e : Element) (gen : Gen) (data mask : Word) : e.land gen (.k 0 data mask) = e := rfl

theorem Element.land_k_other (e : Element) (gen : Gen) {i : Nat} (data mask : Word) (hi : i ≠ 0) :
    e.land gen (.k i data mask) = { e with k := e.k.set (Tagged.zero 64) i ((e.k.get (Tagged.zero 64) i).write gen data mask) } := if_neg hi

/-- Settles O37: each kind of write sets one entry of its register file, to the claimed bits under its word's generation. -/
theorem writesClaimTheirItem : Obligations.WritesClaimTheirItem := by
  unfold Obligations.WritesClaimTheirItem
  intro e gen i
  refine ⟨fun data mask fmt scaled => ?vector, fun data mask kindI => ?tile, fun data => ?scalar,
    fun data mask => ⟨?k0, fun hi => ?predicate⟩⟩
  case vector =>
    have hsame := Tab.get_set_same VReg.zero e.v i
    refine ⟨rfl, fun j hj => ?_, congrArg VReg.gen (hsame _), congrArg VReg.fmt (hsame _), congrArg VReg.scaled (hsame _), fun k hk =>
      Tab.get_set_other _ _ _ hk⟩
    exact (congrArg (fun r : VReg => r.data.getLsbD j) (hsame _)).trans (getLsbD_claimed _ _ _ _ hj)
  case tile =>
    have hsame := Tab.get_set_same AReg.zero e.a i
    refine ⟨rfl, fun j hj => ?_, congrArg AReg.gen (hsame _), congrArg AReg.kindI (hsame _), fun k hk => Tab.get_set_other _ _ _ hk⟩
    exact (congrArg (fun r : AReg => r.data.getLsbD j) (hsame _)).trans (getLsbD_claimed _ _ _ _ hj)
  case scalar =>
    exact ⟨rfl, (Tab.get_set_same ..).trans (Tagged.write_whole ..), fun k hk => Tab.get_set_other _ _ _ hk⟩
  case k0 =>
    rintro rfl
    exact e.land_k_zero gen data mask
  case predicate =>
    have hsame := Tab.get_set_same (Tagged.zero 64) e.k i
    rw [e.land_k_other gen data mask hi]
    refine ⟨rfl, fun j hj => ?_, congrArg Tagged.gen (hsame _), fun k hk => Tab.get_set_other _ _ _ hk⟩
    exact (congrArg (fun r : Tagged 64 => r.data.getLsbD j) (hsame _)).trans (getLsbD_claimed _ _ _ _ hj)

/-! ### The laws of element instructions (R126, R352) -/

theorem EM.bind_ok {α β : Type} {m : EM α} {f : α → EM β} {e e' : Element} {x : α} (h : m e = .ok (x, e')) : (m >>= f) e = f x e' := by
  change (m e >>= fun p => f p.1 p.2) = _
  rw [h]
  rfl

theorem EM.bind_error {α β : Type} {m : EM α} {f : α → EM β} {e : Element} {x : ElemFault} (h : m e = .error x) :
    (m >>= f) e = .error x := by
  change (m e >>= fun p => f p.1 p.2) = _
  rw [h]
  rfl

theorem performSlot_of_ok {s : State} {m : ElemEnv → EM Unit} {e : Element} (hs : s.focus.suppressed = false)
    (hm : m s.env s.elem = .ok ((), e)) : performSlot s m = .next (s.withElem e) := by
  rw [State.elem] at hm
  rw [performSlot, State.perform, hs, hm]
  rfl

theorem performSlot_of_error {s : State} {m : ElemEnv → EM Unit} {f : ElemFault} (hs : s.focus.suppressed = false)
    (hm : m s.env s.elem = .error f) : performSlot s m = .next (s.elementFault f (slotCode s.focus.slotB)) := by
  rw [State.elem] at hm
  rw [performSlot, State.perform, hs, hm]
  rfl

/-- A running signature with no stop to come notes an element's fault for one 12 cycles on (R352). -/
theorem State.takeElementFault_of_running {s : State} {sig : Nat} (n : FaultNote) (hend : (s.sig sig).byFault = false)
    (hfrozen : (s.sig sig).frozen = false) (hstop : (s.sig sig).stop = none) :
    s.takeElementFault sig n = s.setSig sig { s.sig sig with stop := some ⟨s.cycle + 12, [n], false, none⟩ } := by
  unfold State.takeElementFault
  dsimp only
  rw [hend, hfrozen, hstop]
  rfl

/-- The state in which the element in focus is `before` again, and its word performs nothing more (R352). -/
def State.wordUndone (s : State) (before : Element) : State :=
  { s.withElem before with focus := { s.focus with suppressed := true, vote := none } }

theorem State.sig_wordUndone (s : State) (before : Element) (n : Nat) : (s.wordUndone before).sig n = s.sig n := rfl

theorem State.elem_wordUndone (s : State) (before : Element) : (s.wordUndone before).elem = before := State.element_setElement ..

theorem State.elementFault_eq (s : State) (code aux addr : Nat) :
    s.elementFault ⟨code, aux, addr⟩ (slotCode s.focus.slotB)
      = (s.wordUndone (s.focus.before.count 1 1)).takeElementFault s.focus.sig (s.noteOf code aux addr) := by
  have hsig (before : Element) : (s.wordUndone before).sig = s.sig := rfl
  have hns (before : Element) : (s.wordUndone before).ns = s.ns := rfl
  rw [State.noteOf, ← hsig (s.focus.before.count 1 1), ← hns (s.focus.before.count 1 1)]
  rfl

/-- A change of a signature that leaves its corner leaves its elements. -/
theorem State.elementOf_setSig {s : State} {sig row col : Nat} {g : Sig} (hrow : g.row0 = (s.sig sig).row0) (hcol : g.col0 = (s.sig sig).col0) :
    (s.setSig sig g).elementOf sig row col = s.elementOf sig row col := by
  rw [State.elementOf, State.sig_setSig, hrow, hcol]
  rfl

/-- An instruction whose performing faults takes the fault as R352 says. -/
theorem State.takesNote_of_fault {s : State} {i : Instr} {code aux addr : Nat}
    (h : exec i s = .next (s.elementFault ⟨code, aux, addr⟩ (slotCode s.focus.slotB))) : s.TakesNote i code aux addr := by
  intro hend hfrozen hstop
  rw [State.elementFault_eq] at h
  generalize s.focus.before.count 1 1 = before at h ⊢
  rw [State.takeElementFault_of_running (s := s.wordUndone before) _ hend hfrozen hstop] at h
  refine ⟨_, h, ?_, rfl, State.sig_setSig .., rfl⟩
  refine (State.elementOf_setSig (s := s.wordUndone before) ?_ ?_).trans (s.elem_wordUndone before) <;> rfl

/-! ### Buffer instructions (R59, R60, R239) -/

theorem State.guardZero_of_acts {s : State} (h : s.acts = true) : s.focus.suppressed = false ∧ guardZero s.env = true := by
  simpa [State.acts] using h

/-- The tagged item that holds the descriptor of a buffer. -/
def State.bufferItem (s : State) (b : BitVec 3) : Tagged 64 := s.elem.b.get (Tagged.zero 64) b.toNat

theorem State.buffer_of_current {s : State} {b : BitVec 3} (h : (s.bufferItem b).gen = s.env.gen) :
    s.buffer b = BufferDesc.ofWord (s.bufferItem b).data := by
  rw [State.bufferItem] at h
  rw [State.buffer, State.bufferItem, if_pos h]

theorem State.mayUse_iff {s : State} {b : BitVec 3} :
    s.mayUse b = true ↔ (s.bufferItem b).gen = s.env.gen ∧ (s.bufferItem b).poison = false
      ∧ (s.buffer b).cnt ≠ 0 := by
  simp [State.mayUse, State.bufferItem, and_assoc]

theorem readBuffer_of_mayUse {s : State} {b : BitVec 3} (h : s.mayUse b = true) :
    readBuffer s.env b.toNat s.elem = .ok (s.buffer b, s.elem) := by
  obtain ⟨hgen, hpoison, hcnt⟩ := State.mayUse_iff.1 h
  have hchecked (cls addr : Nat) : readChecked s.env (s.bufferItem b).gen
      (s.bufferItem b).poison cls addr s.elem = .ok (true, s.elem) := by
    rw [readChecked, if_pos hgen, hpoison]
    rfl
  have hread : readB s.env b.toNat s.elem = .ok ((s.bufferItem b).data, s.elem) :=
    EM.bind_ok (m := get) rfl |>.trans (EM.bind_ok (hchecked 1 0))
  have hdeclared : declaredBuffer b.toNat (s.bufferItem b).data s.elem = .ok (s.buffer b, s.elem) := by
    rw [State.buffer_of_current hgen] at hcnt ⊢
    rw [declaredBuffer, bne_iff_ne.2 hcnt]
    rfl
  exact (EM.bind_ok hread).trans hdeclared

theorem checkBufferState_of_ok {d : BufferDesc} {voidFaults : Bool} (e : Element) (hvoid : (voidFaults && d.void) = false) :
    checkBufferState d voidFaults true e = .ok ((), e) := by
  rw [checkBufferState, hvoid]
  rfl

theorem checkBufferState_of_void {d : BufferDesc} (ok : Bool) (e : Element) (hvoid : d.void = true) :
    checkBufferState d true ok e = .error ⟨0x13, d.toWord.toNat, 0⟩ := by
  rw [checkBufferState, hvoid]
  rfl

theorem checkBufferState_of_state {d : BufferDesc} {voidFaults : Bool} (e : Element) (hvoid : (voidFaults && d.void) = false) :
    checkBufferState d voidFaults false e = .error ⟨0x12, d.toWord.toNat, 0⟩ := by
  rw [checkBufferState, hvoid]
  rfl

/-- Whether a buffer is EMPTY or FULL, as its instructions check it. -/
theorem BufferDesc.settled {d : BufferDesc} (h : d.st = 0 ∨ d.st = 2) : (d.st == 0 || d.st == 2) = true := by
  rcases h with h | h <;> rw [h] <;> rfl

theorem BufferDesc.moving {d : BufferDesc} (h : d.st = 1 ∨ d.st = 3) : (d.st == 0 || d.st == 2) = false := by
  rcases h with h | h <;> rw [h] <;> rfl

theorem elemBdecl_of_guard {s : State} {f : BD} (hguard : guardZero s.env = true) :
    elemBdecl f s.env s.elem = (checkBufferState (s.buffer f.b) false ((s.buffer f.b).st == 0 || (s.buffer f.b).st == 2) >>= fun _ =>
      setBuffer s.env f.b.toNat
        ⟨(f.n.extractLsb' 0 11).toNat, (f.sub.extractLsb' 0 11).toNat, 0, 0, false, 0, false⟩) s.elem := by
  rw [State.buffer, apply_ite BufferDesc.ofWord, elemBdecl, hguard]
  rfl

theorem elemBstateFull_of_mayUse {s : State} {f : BD} (hguard : guardZero s.env = true) (huse : s.mayUse f.b = true) :
    elemBstateFull f s.env s.elem = (checkBufferState (s.buffer f.b) true ((s.buffer f.b).st == 0 || (s.buffer f.b).st == 2) >>= fun _ =>
      if (s.buffer f.b).st = 0 then
        setBuffer s.env f.b.toNat
          { s.buffer f.b with st := 2, fcnt := (s.buffer f.b).cnt, fmt := capturedDfmt s.env.mode, scaled := false }
      else pure ()) s.elem := by
  rw [elemBstateFull, hguard]
  exact EM.bind_ok (readBuffer_of_mayUse huse)

theorem elemBstateEmpty_of_mayUse {s : State} {f : BD} (hguard : guardZero s.env = true) (huse : s.mayUse f.b = true) :
    elemBstateEmpty f s.env s.elem = (checkBufferState (s.buffer f.b) false ((s.buffer f.b).st == 0 || (s.buffer f.b).st == 2) >>= fun _ =>
      if (s.buffer f.b).st = 2 then
        setBuffer s.env f.b.toNat { s.buffer f.b with st := 0, fcnt := 0, void := false }
      else pure ()) s.elem := by
  rw [elemBstateEmpty, hguard]
  exact EM.bind_ok (readBuffer_of_mayUse huse)

theorem exec_bdecl_of_declarable {s : State} {f : BD} (hacts : s.acts = true) (hst : (s.buffer f.b).st = 0 ∨ (s.buffer f.b).st = 2) :
    s.Describes (.bdecl f) f.b ⟨(f.n.extractLsb' 0 11).toNat, (f.sub.extractLsb' 0 11).toNat, 0, 0, false, 0, false⟩ := by
  obtain ⟨hs, hguard⟩ := State.guardZero_of_acts hacts
  refine performSlot_of_ok (m := elemBdecl f) hs ((elemBdecl_of_guard hguard).trans ?_)
  rw [BufferDesc.settled hst]
  exact EM.bind_ok (checkBufferState_of_ok s.elem rfl)

/-- BDECL of a buffer that a stream fills or drains (R352, R356). -/
theorem takesNote_bdecl {s : State} {f : BD} (hacts : s.acts = true) (hst : (s.buffer f.b).st = 1 ∨ (s.buffer f.b).st = 3) :
    s.TakesNote (.bdecl f) 0x12 (s.buffer f.b).toWord.toNat 0 := by
  obtain ⟨hs, hguard⟩ := State.guardZero_of_acts hacts
  refine State.takesNote_of_fault (performSlot_of_error (m := elemBdecl f) hs ((elemBdecl_of_guard hguard).trans ?_))
  rw [BufferDesc.moving hst]
  exact EM.bind_error (checkBufferState_of_state s.elem rfl)

/-- BSTATE full fills an EMPTY buffer, and leaves a FULL one. -/
theorem exec_bstateFull_of_settled {s : State} {f : BD} (hacts : s.acts = true) (huse : s.mayUse f.b = true) (hvoid : (s.buffer f.b).void = false) :
    ((s.buffer f.b).st = 0 → s.Describes (.bstateFull f) f.b
        { s.buffer f.b with st := 2, fcnt := (s.buffer f.b).cnt, fmt := capturedDfmt s.env.mode, scaled := false })
      ∧ ((s.buffer f.b).st = 2 → exec (.bstateFull f) s = .next (s.withElem s.elem)) := by
  obtain ⟨hs, hguard⟩ := State.guardZero_of_acts hacts
  refine ⟨fun hst => ?_, fun hst => ?_⟩ <;>
    refine performSlot_of_ok (m := elemBstateFull f) hs ((elemBstateFull_of_mayUse hguard huse).trans ?_)
  · rw [BufferDesc.settled (.inl hst), if_pos hst]
    exact EM.bind_ok (checkBufferState_of_ok s.elem hvoid)
  · rw [BufferDesc.settled (.inr hst), if_neg (by rw [hst]; decide)]
    exact EM.bind_ok (checkBufferState_of_ok s.elem hvoid)

/-- BSTATE full of a void buffer, or of one that a stream fills or drains (R356). -/
theorem takesNote_bstateFull {s : State} {f : BD} (hacts : s.acts = true) (huse : s.mayUse f.b = true) :
    ((s.buffer f.b).void = true → s.TakesNote (.bstateFull f) 0x13 (s.buffer f.b).toWord.toNat 0)
      ∧ ((s.buffer f.b).st = 1 ∨ (s.buffer f.b).st = 3 → (s.buffer f.b).void = false →
        s.TakesNote (.bstateFull f) 0x12 (s.buffer f.b).toWord.toNat 0) := by
  obtain ⟨hs, hguard⟩ := State.guardZero_of_acts hacts
  refine ⟨fun hvoid => ?_, fun hst hvoid => ?_⟩ <;>
    refine State.takesNote_of_fault (performSlot_of_error (m := elemBstateFull f) hs ((elemBstateFull_of_mayUse hguard huse).trans ?_))
  · exact EM.bind_error (checkBufferState_of_void _ s.elem hvoid)
  · rw [BufferDesc.moving hst]
    exact EM.bind_error (checkBufferState_of_state s.elem hvoid)

/-- BSTATE empty empties a FULL buffer, and leaves an EMPTY one. -/
theorem exec_bstateEmpty_of_settled {s : State} {f : BD} (hacts : s.acts = true) (huse : s.mayUse f.b = true) :
    ((s.buffer f.b).st = 2 → s.Describes (.bstateEmpty f) f.b { s.buffer f.b with st := 0, fcnt := 0, void := false })
      ∧ ((s.buffer f.b).st = 0 → exec (.bstateEmpty f) s = .next (s.withElem s.elem)) := by
  obtain ⟨hs, hguard⟩ := State.guardZero_of_acts hacts
  refine ⟨fun hst => ?_, fun hst => ?_⟩ <;>
    refine performSlot_of_ok (m := elemBstateEmpty f) hs ((elemBstateEmpty_of_mayUse hguard huse).trans ?_)
  · rw [BufferDesc.settled (.inr hst), if_pos hst]
    exact EM.bind_ok (checkBufferState_of_ok s.elem rfl)
  · rw [BufferDesc.settled (.inl hst), if_neg (by rw [hst]; decide)]
    exact EM.bind_ok (checkBufferState_of_ok s.elem rfl)

theorem takesNote_bstateEmpty {s : State} {f : BD} (hacts : s.acts = true) (huse : s.mayUse f.b = true)
    (hst : (s.buffer f.b).st = 1 ∨ (s.buffer f.b).st = 3) : s.TakesNote (.bstateEmpty f) 0x12 (s.buffer f.b).toWord.toNat 0 := by
  obtain ⟨hs, hguard⟩ := State.guardZero_of_acts hacts
  refine State.takesNote_of_fault (performSlot_of_error (m := elemBstateEmpty f) hs ((elemBstateEmpty_of_mayUse hguard huse).trans ?_))
  rw [BufferDesc.moving hst]
  exact EM.bind_error (checkBufferState_of_state s.elem rfl)

/-- The two halves of a doubleword, as BQRY puts them into scalars. -/
theorem extractLsb'_halves (x : Word) :
    x.extractLsb' 0 32 = .ofNat 32 x.toNat ∧ x.extractLsb' 32 32 = .ofNat 32 (x.toNat / 2 ^ 32) := by
  constructor <;> apply BitVec.eq_of_toNat_eq <;> simp [Nat.shiftRight_eq_div_pow]

/-- The descriptor word that BQRY answers with, zero for a stale one (R239). -/
def State.bufferWord (s : State) (b : BitVec 3) : Word :=
  if (s.bufferItem b).gen = s.env.gen then (s.bufferItem b).data else 0

/-- BQRY of a stale descriptor counts as a stale read, and of a current one counts nothing (R243). -/
theorem elemBqry_of_sound {s : State} {f : BD} (hguard : guardZero s.env = true)
    (hsound : (s.bufferItem f.b).gen = s.env.gen → (s.bufferItem f.b).poison = false) :
    ∃ tally, elemBqry f s.env s.elem = .ok ((), { s.elem with
      tally
      pending := (s.elem.pending ++ [⟨s.env.time + 1, s.env.n, true, s.env.gen, .s f.sb.toNat ((s.bufferWord f.b).extractLsb' 0 32)⟩])
        ++ [⟨s.env.time + 1, s.env.n, true, s.env.gen, .s (f.sb.toNat + 1) ((s.bufferWord f.b).extractLsb' 32 32)⟩] }) := by
  have hcheck : EM.check (!((s.bufferItem f.b).gen == s.env.gen && (s.bufferItem f.b).poison))
      0x18 1 0 s.elem = .ok ((), s.elem) := by
    by_cases hgen : (s.bufferItem f.b).gen = s.env.gen
    · rw [hsound hgen, Bool.and_false]
      rfl
    · rw [beq_eq_false_iff_ne.2 hgen]
      rfl
  rw [elemBqry, hguard]
  by_cases hcount : (decide ((s.bufferItem f.b).gen ≠ s.env.gen) && !s.env.trap) = true
  · rw [State.bufferItem] at hcount
    refine ⟨s.elem.tally.set 0 8 (s.elem.tally.get 0 8 + 1), (EM.bind_ok (m := get) rfl).trans ((EM.bind_ok hcheck).trans ?_)⟩
    rw [if_pos hcount]
    rfl
  · rw [State.bufferItem] at hcount
    refine ⟨s.elem.tally, (EM.bind_ok (m := get) rfl).trans ((EM.bind_ok hcheck).trans ?_)⟩
    rw [if_neg hcount]
    rfl

theorem queues_bqry {s : State} {f : BD} (hacts : s.acts = true)
    (hsound : (s.bufferItem f.b).gen = s.env.gen → (s.bufferItem f.b).poison = false) :
    s.Queues (.bqry f) 1 true [.s f.sb.toNat (.ofNat 32 (s.bufferWord f.b).toNat),
      .s (f.sb.toNat + 1) (.ofNat 32 ((s.bufferWord f.b).toNat / 2 ^ 32))] s.elem.sigma := by
  obtain ⟨hs, hguard⟩ := State.guardZero_of_acts hacts
  obtain ⟨tally, hquery⟩ := elemBqry_of_sound hguard hsound
  obtain ⟨hlow, hhigh⟩ := extractLsb'_halves (s.bufferWord f.b)
  rw [hlow, hhigh, List.append_assoc] at hquery
  exact ⟨tally, performSlot_of_ok (m := elemBqry f) hs hquery⟩

/-- BQRY of a current descriptor that is poisoned (R369). -/
theorem takesNote_bqry {s : State} {f : BD} (hacts : s.acts = true)
    (hgen : (s.bufferItem f.b).gen = s.env.gen) (hpoison : (s.bufferItem f.b).poison = true) :
    s.TakesNote (.bqry f) 0x18 1 0 := by
  obtain ⟨hs, hguard⟩ := State.guardZero_of_acts hacts
  have hcheck : EM.check (!((s.bufferItem f.b).gen == s.env.gen && (s.bufferItem f.b).poison))
      0x18 1 0 s.elem = .error ⟨0x18, 1, 0⟩ := by
    rw [beq_iff_eq.2 hgen, hpoison]
    rfl
  refine State.takesNote_of_fault (performSlot_of_error (m := elemBqry f) hs ?_)
  rw [elemBqry, hguard]
  exact (EM.bind_ok (m := get) rfl).trans (EM.bind_error hcheck)

/-- Settles O35: each buffer instruction by the state of the descriptor that it reads. -/
theorem buffers : Obligations.Buffers := by
  unfold Obligations.Buffers
  intro s f d hacts
  refine ⟨exec_bdecl_of_declarable hacts, fun huse => ?_, takesNote_bdecl hacts, takesNote_bqry hacts, queues_bqry hacts⟩
  obtain ⟨hempties, hempty⟩ := exec_bstateEmpty_of_settled hacts huse
  obtain ⟨hvoid, hmoving⟩ := takesNote_bstateFull hacts huse
  exact ⟨fun h => (exec_bstateFull_of_settled hacts huse h).1, fun h => (exec_bstateFull_of_settled hacts huse h).2, hempties, hempty, hvoid,
    fun hst => ⟨takesNote_bstateEmpty hacts huse hst, hmoving hst⟩⟩

end Sys2Proof.Machine

/-!
PROOFS. Streams: the next request of a port (R81, R83, R93), fills (R60, R63, R87), discards that wait (R371), egress (R242, R352, R373) and
completion (R84).
-/

namespace Sys2Proof.Machine

/-! ### Contexts and elements of a signature after a change -/

theorem State.ctx_setCtx (s : State) (sig key : Nat) (c : Ctx) : (s.setCtx sig key c).ctx sig key = c := by
  rw [State.ctx, State.setCtx, State.sig_setSig]
  exact Tab.get_set_same ..

theorem State.setCtx_setCtx (s : State) (sig key : Nat) (c d : Ctx) : (s.setCtx sig key c).setCtx sig key d = s.setCtx sig key d := by
  simp only [State.setCtx, State.sig_setSig, State.setSig_setSig, Tab.set_set]

theorem State.elementOf_setElementOf_same (s : State) (sig row col : Nat) (e : Element) :
    (s.setElementOf sig row col e).elementOf sig row col = e :=
  State.element_setElement ..

/-- A context's change leaves every element of its signature. -/
theorem State.elementOf_setCtx (s : State) (sig key row col : Nat) (c : Ctx) :
    (s.setCtx sig key c).elementOf sig row col = s.elementOf sig row col := by
  rw [State.elementOf, State.setCtx, State.sig_setSig]
  rfl

theorem Sig.cutOff_of_not_byFault {g : Sig} (h : g.byFault = false) : g.cutOff = false := by rw [Sig.cutOff, h]; rfl

theorem Sig.running_or_draining {g : Sig} (h : g.status = .running ∨ g.status = .draining) :
    (g.status == .running || g.status == .draining) = true := by
  rcases h with h | h <;> rw [h] <;> rfl

/-! ### A stream's next request (R78, R81, R83, R93) -/

theorem Ctx.backRun_of_direct {c : Ctx} (h : (Block.ofVec c.block).indexed = false) : c.backRun = none := by
  rw [Ctx.backRun, h]
  rfl

theorem Ctx.current_of_direct {c : Ctx} (h : (Block.ofVec c.block).indexed = false) : c.current = c.run := by
  rw [Ctx.current, Ctx.backRun_of_direct h]
  rfl

/-- The next piece of a stream is that of the run in hand, or the first of the next run. -/
theorem Ctx.stepPiece_next {c : Ctx} (ps : List Piece) (hback : c.backRun = none) :
    ((c.stepPiece ps).run, (c.stepPiece ps).unit) = (if c.unit + 1 < ps.length then (c.run, c.unit + 1) else (c.run + 1, 0)) := by
  unfold Ctx.stepPiece
  rw [hback]
  by_cases h : c.unit + 1 < ps.length
  · simp only [if_pos h]
  · simp only [if_neg h, Option.isSome_none, Bool.false_eq_true, if_false]

theorem Ctx.stepPiece_captured (c : Ctx) (ps : List Piece) : (c.stepPiece ps).block = c.block ∧ (c.stepPiece ps).range = c.range := by
  unfold Ctx.stepPiece
  dsimp only
  split
  · exact ⟨rfl, rfl⟩
  split <;> exact ⟨rfl, rfl⟩

/-- The port of a stream that is not indexed may issue the next piece of a run that is left (R78, R83, R383). -/
structure State.IssueOpen (s : State) (sig ctx : Nat) : Prop where
  kind : (s.ctx sig ctx).kind = .stream
  ports : s.portsIssue sig = true
  room : s.portLoad sig (ctx / 16) < 256
  first : s.reissues sig ctx = false
  direct : (Block.ofVec (s.ctx sig ctx).block).indexed = false
  left : (s.ctx sig ctx).run < (Block.ofVec (s.ctx sig ctx).block).runs

theorem State.IssueOpen.exec_streamRequestIssue {s : State} {sig ctx : Nat} (h : s.IssueOpen sig ctx) :
    exec (.streamRequestIssue sig ctx) s = .next (s.issueNext sig ctx) := by
  have hexec : exec (.streamRequestIssue sig ctx) s = execStreamRequestIssue sig ctx s := rfl
  have hroom : s.portRoom sig (ctx / 16) = true := decide_eq_true h.room
  rw [hexec, execStreamRequestIssue]
  dsimp only
  rw [h.kind, h.ports, hroom, h.first, h.direct]
  simp [Nat.not_le.2 h.left]

/-- Requests of a stream that are outstanding. -/
def State.streamLoad (s : State) (sig key : Nat) : Nat :=
  (s.requests.filter fun r => r.outstanding && match r.source with | .stream n k _ => n == sig && k == key | _ => false).length

/-- A load that is not too far ahead, and a store whose bytes are there, issue the next piece. -/
theorem State.issueNext_of_ready {s : State} {sig key : Nat} {p : Piece}
    (hpiece : ((s.ctx sig key).piecesOf (s.ctx sig key).current)[(s.ctx sig key).unit]? = some p)
    (hready : (Block.ofVec (s.ctx sig key).block).loads = true ∧ (s.ctx sig key).units.length + s.streamLoad sig key < 256
      ∨ (Block.ofVec (s.ctx sig key).block).loads = false ∧ ((s.ctx sig key).pieceData (s.ctx sig key).current p).isSome = true) :
    ∃ data, s.issueNext sig key = s.issuePiece sig key ((s.ctx sig key).piecesOf (s.ctx sig key).current) p data := by
  have hnext : s.issueNext sig key =
      match ((s.ctx sig key).piecesOf (s.ctx sig key).current)[(s.ctx sig key).unit]? with
      | none => s
      | some p =>
        if (Block.ofVec (s.ctx sig key).block).loads then
          (if (s.ctx sig key).units.length + s.streamLoad sig key < 256 then
            s.issuePiece sig key ((s.ctx sig key).piecesOf (s.ctx sig key).current) p 0 else s)
        else
          match (s.ctx sig key).pieceData (s.ctx sig key).current p with
          | some data => s.issuePiece sig key ((s.ctx sig key).piecesOf (s.ctx sig key).current) p data
          | none => s := rfl
  rw [hnext, hpiece]
  dsimp only
  rcases hready with ⟨hloads, hahead⟩ | ⟨hloads, hdata⟩
  · rw [if_pos hloads, if_pos hahead]
    exact ⟨0, rfl⟩
  · obtain ⟨data, hdata⟩ := Option.isSome_iff_exists.1 hdata
    rw [hloads, hdata]
    exact ⟨data, rfl⟩

/-- A piece that is issued enters the list of requests, and its checks begin; a store marks its unit in the journal, and a watchpoint may be hit. -/
theorem State.issuePiece_eq (s : State) (sig key : Nat) (ps : List Piece) (p : Piece) (data : Nat) :
    ∃ debugger journal,
      let u : State := { s.setCtx sig key ((s.ctx sig key).stepPiece ps) with debugger, journal }
      let r : Request := { s.pieceRequest sig key (s.ctx sig key).current (s.ctx sig key).unit p data with id := s.nextRequest }
      s.issuePiece sig key ps p data = (u.entered sig r).startRequest r := by
  have hwatch (u : State) (va kind : Nat) := u.watch_eq (s.sig sig).vif sig va kind
  unfold State.issuePiece
  extract_lets u0 r0 r1 g c b r u v
  have hv : ∃ journal, v = { u with journal } := by
    cases hloads : b.loads
    · exact ⟨_, if_neg (by rw [hloads]; decide)⟩
    · exact ⟨_, if_pos hloads⟩
  obtain ⟨journal, hv⟩ := hv
  obtain ⟨debugger, hdebugger⟩ := hwatch v r.va.toNat r.op.watchKind
  refine ⟨debugger, journal, ?_⟩
  rw [hdebugger, hv]
  rfl

/-- The key of a slot that is captured again is the same (R93). -/
theorem State.keyUse_of_slot {s : State} {slot gen n g : Nat} {kw epoch : Bool} (h : s.keyUse slot gen kw = .slot n g epoch) :
    s.keyUse n g false = .slot n g epoch := by
  unfold State.keyUse at h
  split at h
  · cases h
  split at h
  · cases h
  · cases h
    rw [State.keyUse, if_neg Bool.false_ne_true, if_neg ‹_›]

theorem Request.sealAtPort_eq (r : Request) (k : Material) : ∃ op, r.sealAtPort k = { r with op } ∧ (r.op = .read → op = .read) := by
  unfold Request.sealAtPort
  split
  case h_1 data mask hop =>
    split
    · exact ⟨_, rfl, fun h => by rw [hop] at h; cases h⟩
    · exact ⟨_, rfl, fun h => h⟩
  case h_2 => exact ⟨_, rfl, fun h => h⟩

/-- A translated request whose key opens its unit goes on, to an unwrap or to its home. -/
theorem State.sendOn_of_material {s : State} {r : Request} {k : Material} (pa : Nat) (hmaterial : s.material r.vif r.key = some k)
    (hdomain : belowDomain k (r.sealVa.toNat / 64) = false) :
    ∃ op stage, s.sendOn r pa = s.updateRequest { r with pa, op, stage } ∧ (r.op = .read → op = .read)
      ∧ (stage = .key ∨ stage = .travel) := by
  obtain ⟨op, hseal, hread⟩ := Request.sealAtPort_eq { r with pa } k
  unfold State.sendOn
  dsimp only
  rw [hmaterial]
  dsimp only
  rw [hdomain, if_neg (by decide), hseal]
  refine ⟨op, _, rfl, hread, ?_⟩
  split
  · exact .inl rfl
  · exact .inr rfl

/-- The checks of a linear stream's request: its range, then its physical address (R75, R364). -/
theorem State.startRequest_of_direct {s : State} {r : Request} {sig key tag pa : Nat} (hsource : r.source = .stream sig key tag)
    (hkey : ∀ n gen epoch, r.key = .slot n gen epoch → s.keyUse n gen false = .slot n gen epoch)
    (hindexed : (Block.ofVec (s.ctx sig key).block).indexed = false)
    (hrange : (s.ctx sig key).rangeEntry.check r.va r.scale (Block.ofVec (s.ctx sig key).block).need = .ok ())
    (hphysical : s.checkPhysical ((s.ctx sig key).rangeEntry.linear r.sealVa) = .ok pa) :
    s.startRequest r = s.sendOn { r with entered := 0, bad := false } pa := by
  have hagain (q : Request) : (match r.key with | .slot n gen _ => { q with key := s.keyUse n gen false } | _ => { q with key := r.key })
      = { q with key := r.key } := by
    split
    case h_1 n gen epoch hslot =>
      rw [hslot]
      exact congrArg (fun key => { q with key }) (hkey n gen epoch hslot)
    case h_2 => rfl
  unfold State.startRequest
  extract_lets q q'
  have hq : q' = { r with entered := 0, bad := false } := hagain { r with entered := 0, bad := false }
  rw [hq]
  dsimp only
  rw [hsource]
  dsimp only
  rw [hrange]
  dsimp only
  rw [hindexed, if_neg (by decide), hphysical]

theorem State.checkPhysical_of_platform {s t : State} (hplatform : t.platform = s.platform) (pa : Nat) : t.checkPhysical pa = s.checkPhysical pa := by
  have hcarve : t.inCarveOut pa = s.inCarveOut pa := by
    rw [State.inCarveOut, State.inCarveOut, State.carveOuts, State.carveOuts, hplatform]
  rw [State.checkPhysical, State.checkPhysical, hplatform, hcarve]

/-- The key of an interface's request depends on the key slots and on the world key. -/
theorem State.material_of_keys {s t : State} (hslots : t.keySlots = s.keySlots) (hifaces : t.ifaces = s.ifaces) (vif : Nat) (key : KeyUse) :
    t.material vif key = s.material vif key := by
  unfold State.material State.keySlot State.iface
  rw [hslots, hifaces]

theorem State.keyUse_of_slots {s t : State} (hslots : t.keySlots = s.keySlots) (slot gen : Nat) (kw : Bool) :
    t.keyUse slot gen kw = s.keyUse slot gen kw := by
  unfold State.keyUse State.keySlot
  rw [hslots]

/-- A piece of the run in hand of a stream that is not indexed passes its checks, at a physical address and under a key (R75, R93, R364). -/
structure State.PieceChecked (s : State) (sig ctx : Nat) (p : Piece) (pa : Nat) (k : Material) : Prop where
  direct : (Block.ofVec (s.ctx sig ctx).block).indexed = false
  range : (s.ctx sig ctx).rangeEntry.check ((s.ctx sig ctx).programVa (s.ctx sig ctx).run p) p.scale (Block.ofVec (s.ctx sig ctx).block).need = .ok ()
  physical : s.checkPhysical ((s.ctx sig ctx).rangeEntry.linear p.va) = .ok pa
  material : s.material (s.sig sig).vif (s.keyUse (keyFields (Block.ofVec (s.ctx sig ctx).block).keysel).1
    (keyFields (Block.ofVec (s.ctx sig ctx).block).keysel).2.1 (keyFields (Block.ofVec (s.ctx sig ctx).block).keysel).2.2) = some k
  domain : belowDomain k (p.va.toNat / 64) = false

/-- A piece whose checks pass is issued: the context stands at the next piece, and the piece's request goes on, to an unwrap or to its home. -/
theorem State.PieceChecked.issuePiece {s : State} {sig ctx pa : Nat} {p : Piece} {k : Material} (h : s.PieceChecked sig ctx p pa k) (data : Nat) :
    let c := s.ctx sig ctx
    let t := s.issuePiece sig ctx (c.piecesOf c.run) p data
    t.memory = s.memory ∧ t.ctx sig ctx = c.stepPiece (c.piecesOf c.run)
      ∧ ∃ r ∈ t.requests, r.source = .stream sig ctx (pieceTag c.run c.unit) ∧ r.va = c.programVa c.run p ∧ r.sealVa = p.va ∧ r.pa = pa
        ∧ ((Block.ofVec c.block).loads = true → r.op = .read) ∧ (r.stage = .key ∨ r.stage = .travel) := by
  intro c t
  obtain ⟨debugger, journal, hissue⟩ := s.issuePiece_eq sig ctx (c.piecesOf c.run) p data
  rw [Ctx.current_of_direct h.direct] at hissue
  extract_lets _ u _ r at hissue
  obtain ⟨hblock, hrangeVec⟩ := c.stepPiece_captured (c.piecesOf c.run)
  have hctx : (u.entered sig r).ctx sig ctx = c.stepPiece (c.piecesOf c.run) := State.ctx_setCtx s sig ctx _
  have hstart : (u.entered sig r).startRequest r = (u.entered sig r).sendOn { r with entered := 0, bad := false } pa := by
    refine State.startRequest_of_direct (tag := pieceTag c.run c.unit) rfl ?key ?direct ?range ?physical
    case key => exact fun n gen epoch hslot => (State.keyUse_of_slots (s := s) rfl n gen false).trans (State.keyUse_of_slot hslot)
    case direct => rw [hctx, hblock]; exact h.direct
    case range => rw [hctx, Ctx.rangeEntry, hrangeVec, hblock]; exact h.range
    case physical =>
      rw [hctx, Ctx.rangeEntry, hrangeVec]
      exact (State.checkPhysical_of_platform (s := s) rfl _).trans h.physical
  obtain ⟨op, stage, hsend, hread, hstage⟩ := State.sendOn_of_material (s := u.entered sig r) (r := { r with entered := 0, bad := false }) pa
    ((State.material_of_keys (s := s) rfl rfl _ _).trans h.material) h.domain
  have ht : t = (u.entered sig r).updateRequest { r with entered := 0, bad := false, pa, op, stage } := hissue.trans (hstart.trans hsend)
  rw [ht]
  refine ⟨rfl, hctx, _, State.mem_updateRequest (u.mem_requests_entered sig r) rfl, rfl, rfl, rfl, rfl, fun hloads => hread ?_, hstage⟩
  exact if_pos hloads

/-- STREAM_REQUEST_ISSUE of a stream that is not indexed, whose next piece passes its checks (R81, R83, R93). -/
theorem exec_streamRequestIssue_spec {s : State} {sig ctx pa : Nat} {p : Piece} {k : Material} (hopen : s.IssueOpen sig ctx)
    (hpiece : ((s.ctx sig ctx).piecesOf (s.ctx sig ctx).run)[(s.ctx sig ctx).unit]? = some p)
    (hready : (Block.ofVec (s.ctx sig ctx).block).loads = true ∧ (s.ctx sig ctx).units.length + s.streamLoad sig ctx < 256
      ∨ (Block.ofVec (s.ctx sig ctx).block).loads = false ∧ ((s.ctx sig ctx).pieceData (s.ctx sig ctx).run p).isSome = true)
    (hchecked : s.PieceChecked sig ctx p pa k) :
    let c := s.ctx sig ctx
    ∃ t, exec (.streamRequestIssue sig ctx) s = .next t ∧ t.memory = s.memory
      ∧ ((t.ctx sig ctx).run, (t.ctx sig ctx).unit) = (if c.unit + 1 < (c.piecesOf c.run).length then (c.run, c.unit + 1) else (c.run + 1, 0))
      ∧ ∃ r ∈ t.requests, r.source = .stream sig ctx (pieceTag c.run c.unit) ∧ r.va = c.programVa c.run p ∧ r.sealVa = p.va ∧ r.pa = pa
        ∧ ((Block.ofVec c.block).loads = true → r.op = .read) ∧ (r.stage = .key ∨ r.stage = .travel) := by
  intro c
  have hcurrent : c.current = c.run := Ctx.current_of_direct hopen.direct
  obtain ⟨data, hnext⟩ := State.issueNext_of_ready (sig := sig) (key := ctx) (p := p) (hcurrent.symm ▸ hpiece) (hcurrent.symm ▸ hready)
  rw [show (s.ctx sig ctx).current = c.run from hcurrent] at hnext
  obtain ⟨hmemory, hctx, hrequest⟩ := hchecked.issuePiece data
  refine ⟨_, hopen.exec_streamRequestIssue.trans (congrArg _ hnext), hmemory, ?_, hrequest⟩
  rw [hctx]
  exact Ctx.stepPiece_next _ (Ctx.backRun_of_direct hopen.direct)

/-! ### Fills (R60, R63, R87) -/

/-- An event counts in the element's counters alone (R243). -/
theorem Element.count_eq (e : Element) (event n : Nat) : ∃ counters, e.count event n = { e with counters } := by
  refine List.foldlRecOn (motive := fun u : Element => ∃ counters, u = { e with counters }) [0, 1, 2, 3] _ ⟨_, rfl⟩ fun u hu c _ => ?_
  obtain ⟨counters, rfl⟩ := hu
  unfold Element.countIn
  dsimp only
  split
  · exact ⟨_, rfl⟩
  · exact ⟨_, rfl⟩

theorem Element.pad_count (e : Element) (event n : Nat) : (e.count event n).pad = e.pad := by
  obtain ⟨counters, h⟩ := e.count_eq event n
  rw [h]

theorem Element.b_count (e : Element) (event n : Nat) : (e.count event n).b = e.b := by
  obtain ⟨counters, h⟩ := e.count_eq event n
  rw [h]

theorem getLsbD_halfMask (upper : Bool) {j : Nat} (hj : j < 512) : (halfMask upper).getLsbD j = (decide (256 ≤ j) == upper) := by
  rw [halfMask, BitVec.getLsbD_ofNat, decide_eq_true hj, Bool.true_and]
  cases upper
  · rw [if_neg Bool.false_ne_true, Nat.mul_one, Nat.testBit_two_pow_sub_one]
    by_cases h : 256 ≤ j
    · simp [h, Nat.not_lt.2 h]
    · simp [h, Nat.not_le.1 h]
  · rw [if_pos rfl, Nat.testBit_mul_two_pow, Nat.testBit_two_pow_sub_one]
    by_cases h : 256 ≤ j
    · simp [h]; omega
    · simp [h]

/-- Half of a granule lands: the other half stays as a current granule has it, and is zero in a stale one (R63). -/
theorem Element.fillGranule_spec (e : Element) (gen : Gen) (g : Nat) (data : Vec) (upper whole : Bool) :
    let r := e.pad.get (Tagged.zero 512) g
    let q := (e.fillGranule gen g data upper whole).pad.get (Tagged.zero 512) g
    q.gen = gen ∧ ∀ j < 512, q.data.getLsbD j = if decide (256 ≤ j) = upper then data.getLsbD j else r.gen == gen && r.data.getLsbD j := by
  intro r q
  have hq : q = if whole then { r.write gen data (halfMask upper) with poison := false } else r.write gen data (halfMask upper) :=
    Tab.get_set_same ..
  have hgen : q.gen = gen := by rw [hq]; split <;> rfl
  have hdata : q.data = claimed (r.gen == gen) r.data data (halfMask upper) := by rw [hq]; split <;> rfl
  refine ⟨hgen, fun j hj => ?_⟩
  rw [hdata, getLsbD_claimed _ _ _ _ hj, getLsbD_halfMask upper hj]
  simp only [beq_iff_eq]

theorem Element.data_updateBuffer (e : Element) (gen : Gen) (i : Nat) (d : BufferDesc) :
    ((e.updateBuffer gen i d).b.get (Tagged.zero 64) i).data = d.toWord :=
  congrArg Tagged.data (Tab.get_set_same ..)

/-- The descriptor of a buffer, as its element holds it. -/
def Element.desc (e : Element) (buf : Nat) : BufferDesc := BufferDesc.ofWord (e.b.get (Tagged.zero 64) buf).data

/-- The descriptor of a buffer that a stream fills from now on (R60). -/
def BufferDesc.filling (d : BufferDesc) (fmt : BitVec 4) (scaled : Bool) : BufferDesc := if d.st = 0 then { d with st := 1, fmt, scaled } else d

/-- The descriptor of a buffer in which a half of one of its granules has landed: FILLING, or FULL once its last granule is whole (R60). -/
def BufferDesc.afterHalf (d : BufferDesc) (fmt : BitVec 4) (scaled whole : Bool) : BufferDesc :=
  { (if d.st = 0 then { d with fmt, scaled } else d) with
    fcnt := if whole then d.fcnt + 1 else d.fcnt
    st := if whole = true ∧ d.fcnt + 1 = d.cnt then 2 else 1 }

theorem BufferDesc.filling_base (d : BufferDesc) (fmt : BitVec 4) (scaled : Bool) : (d.filling fmt scaled).base = d.base := by
  unfold BufferDesc.filling
  split <;> rfl

theorem BufferDesc.filling_afterHalf (d : BufferDesc) (fmt : BitVec 4) (scaled whole : Bool) :
    let f := d.filling fmt scaled
    let fcnt := if whole then f.fcnt + 1 else f.fcnt
    { f with fcnt, st := if whole && fcnt = f.cnt then 2 else 1 } = d.afterHalf fmt scaled whole := by
  unfold BufferDesc.filling BufferDesc.afterHalf
  cases whole <;> by_cases hst : d.st = 0 <;> simp [hst]

theorem Element.meetHalf_eq (e : Element) (gen : Gen) (buf owner : Nat) (fmt : BitVec 4) (scaled : Bool) (j : Nat) (upper whole : Bool) (data : Vec) :
    e.meetHalf gen buf owner fmt scaled j upper whole data =
      if (e.b.get (Tagged.zero 64) buf).gen ≠ gen then .discarded 2
      else if (e.desc buf).cnt = 0 ∨ (e.desc buf).cnt ≤ j then .discarded 1
      else if (e.desc buf).st = 0 || ((e.desc buf).st = 1 && e.owner.get 0 buf = owner) then
        let d := (e.desc buf).filling fmt scaled
        let fcnt := if whole then d.fcnt + 1 else d.fcnt
        let full := whole && fcnt = d.cnt
        let q := ((e.fillGranule gen (d.base + j) data upper whole).updateBuffer gen buf { d with fcnt, st := if full then 2 else 1 }).count 6 1
        .lands { q with owner := q.owner.set 0 buf (if full then 0 else owner), landed := q.landed ++ [(d.base + j, upper)] }
      else .waits := rfl

theorem Element.pad_halfMet (e : Element) (gen : Gen) (buf event n : Nat) (d : BufferDesc) (owner : Tab Nat) (landed : List (Nat × Bool)) :
    ({ (e.updateBuffer gen buf d).count event n with owner, landed } : Element).pad = e.pad := by
  dsimp only
  rw [Element.pad_count, Element.updateBuffer]

theorem Element.data_halfMet (e : Element) (gen : Gen) (buf event n : Nat) (d : BufferDesc) (owner : Tab Nat) (landed : List (Nat × Bool)) :
    (({ (e.updateBuffer gen buf d).count event n with owner, landed } : Element).b.get (Tagged.zero 64) buf).data = d.toWord := by
  dsimp only
  rw [Element.b_count, Element.data_updateBuffer]

/-- A half of granule j lands in a current buffer that is EMPTY, or that the same stream fills. -/
theorem Element.meetHalf_lands {e : Element} {gen : Gen} {buf owner j : Nat} (fmt : BitVec 4) (scaled upper whole : Bool) (data : Vec)
    (hgen : (e.b.get (Tagged.zero 64) buf).gen = gen) (hj : j < (e.desc buf).cnt)
    (hst : (e.desc buf).st = 0 ∨ (e.desc buf).st = 1 ∧ e.owner.get 0 buf = owner) :
    ∃ q, e.meetHalf gen buf owner fmt scaled j upper whole data = .lands q
      ∧ q.pad = (e.fillGranule gen ((e.desc buf).base + j) data upper whole).pad
      ∧ (q.b.get (Tagged.zero 64) buf).data = ((e.desc buf).afterHalf fmt scaled whole).toWord := by
  have hroom : ¬((e.desc buf).cnt = 0 ∨ (e.desc buf).cnt ≤ j) := by omega
  have hmay : ((e.desc buf).st = 0 || ((e.desc buf).st = 1 && e.owner.get 0 buf = owner)) = true := by simpa using hst
  rw [Element.meetHalf_eq, if_neg (not_not.2 hgen), if_neg hroom, if_pos hmay]
  refine ⟨_, rfl, ?_, ?_⟩
  · rw [← BufferDesc.filling_base (e.desc buf) fmt scaled]
    exact Element.pad_halfMet ..
  · rw [← BufferDesc.filling_afterHalf]
    exact Element.data_halfMet ..

/-! ### A half that lands for a place (R82, R87) -/

theorem Ctx.landed_dropUsed (c : Ctx) (lane run g : Nat) : (c.dropUsed lane run g).landed = c.landed := by
  refine foldl_keeps _ Ctx.landed (fun c x _ => ?_) c
  split <;> rfl

theorem Ctx.landed_halfDone (c : Ctx) (lane n : Nat) : (c.halfDone lane n).landed = c.landed.set 0 lane (c.landed.get 0 lane + n) := by
  unfold Ctx.halfDone
  dsimp only
  split
  · exact Ctx.landed_dropUsed ..
  · rfl

/-- An element and a context of a signature after a change that the fill bus made; its activity counts (R87, R338). -/
def State.withFill (s : State) (sig key row col : Nat) (e : Element) (c : Ctx) : State :=
  (((s.setElementOf sig row col e).setCtx sig key c).count sig 6 32).spend (s.sig sig).vif fun a => { a with fill := a.fill + 32 }

theorem State.elementOf_count (s : State) (sig event n m row col : Nat) : (s.count sig event n).elementOf m row col = s.elementOf m row col := rfl

theorem State.elementOf_spend (s : State) (vif : Nat) (f : Activity → Activity) (m row col : Nat) :
    (s.spend vif f).elementOf m row col = s.elementOf m row col := rfl

theorem State.ctx_withFill (s : State) (sig key row col : Nat) (e : Element) (c : Ctx) : (s.withFill sig key row col e c).ctx sig key = c :=
  State.ctx_setCtx ..

theorem State.elementOf_withFill (s : State) (sig key row col : Nat) (e : Element) (c : Ctx) :
    (s.withFill sig key row col e c).elementOf sig row col = e := by
  rw [State.withFill, State.elementOf_spend, State.elementOf_count, State.elementOf_setCtx, State.elementOf_setElementOf_same]

/-- Where the halves of a place of a context go. -/
def State.lanePlace (s : State) (sig ctx l : Nat) : Nat × Nat := (s.ctx sig ctx).elementAt (s.sig sig).wd ctx l
/-- The element of a place of a context. -/
def State.laneElement (s : State) (sig ctx l : Nat) : Element := s.elementOf sig (s.lanePlace sig ctx l).1 (s.lanePlace sig ctx l).2
/-- The generation of the folio that holds the element of a place. -/
def State.laneGen (s : State) (sig ctx l : Nat) : Gen := (s.folioOf sig (s.lanePlace sig ctx l).1 (s.lanePlace sig ctx l).2).gen

/-- Whether both halves of the granule in hand of a place have landed with its next half. -/
def Ctx.completes (c : Ctx) (l : Nat) : Bool := c.landed.get 0 l % 2 == 1 && !c.dropped.contains (l, c.landed.get 0 l / 2)

/-- A half that its buffer takes lands, where the fill bus has room (R87). -/
theorem State.landHalf_of_lands {s : State} {sig ctx l : Nat} {q : Element} (hkept : (s.ctx sig ctx).nextLost l = false)
    (hgen : (s.ctx sig ctx).gen = s.genOf sig) (hfresh : l ∉ (s.ctx sig ctx).stale)
    (hmeet : (s.laneElement sig ctx l).meetHalf (s.laneGen sig ctx l) ((s.ctx sig ctx).target l).1 (ctx + 1) ((s.ctx sig ctx).target l).2.1
      ((s.ctx sig ctx).target l).2.2 ((s.ctx sig ctx).landed.get 0 l / 2) ((s.ctx sig ctx).landed.get 0 l % 2 == 1) ((s.ctx sig ctx).completes l)
      ((s.ctx sig ctx).granule l ((s.ctx sig ctx).granuleAt l ((s.ctx sig ctx).landed.get 0 l / 2)).1
        ((s.ctx sig ctx).granuleAt l ((s.ctx sig ctx).landed.get 0 l / 2)).2) = .lands q)
    (hfills : (s.busHalves sig ctx (s.lanePlace sig ctx l).1).1 < 4) (hrow : (s.busHalves sig ctx (s.lanePlace sig ctx l).1).2.2 = 0) :
    s.landHalf sig ctx l
      = some (s.withFill sig ctx (s.lanePlace sig ctx l).1 (s.lanePlace sig ctx l).2 q ((s.ctx sig ctx).halfDone l 1)) := by
  have hcurrent : (decide ((s.ctx sig ctx).gen ≠ s.genOf sig) || ((s.ctx sig ctx).landed.get 0 l % 2 == 1 && (s.ctx sig ctx).stale.contains l))
      = false := by
    simp [hgen, hfresh]
  unfold State.laneElement State.laneGen State.lanePlace Ctx.completes at hmeet
  unfold State.lanePlace at hfills hrow
  unfold State.landHalf
  dsimp only at hmeet ⊢
  rw [hkept, hcurrent, hmeet, if_neg Bool.false_ne_true, if_neg Bool.false_ne_true]
  dsimp only
  rw [if_neg (not_or.2 ⟨Nat.not_le.2 hfills, Nat.not_le.2 (Nat.lt_one_iff.2 hrow)⟩)]
  rfl

/-- What makes the next half of a place land: none of its pieces is lost, its buffer is current and takes it, and the fill bus has room
(R60, R64, R87). -/
structure State.HalfLands (s : State) (sig ctx l : Nat) : Prop where
  kept : (s.ctx sig ctx).nextLost l = false
  gen : (s.ctx sig ctx).gen = s.genOf sig
  fresh : l ∉ (s.ctx sig ctx).stale
  current : ((s.laneElement sig ctx l).b.get (Tagged.zero 64) ((s.ctx sig ctx).target l).1).gen = s.laneGen sig ctx l
  room : (s.ctx sig ctx).landed.get 0 l / 2 < ((s.laneElement sig ctx l).desc ((s.ctx sig ctx).target l).1).cnt
  takes : ((s.laneElement sig ctx l).desc ((s.ctx sig ctx).target l).1).st = 0
    ∨ ((s.laneElement sig ctx l).desc ((s.ctx sig ctx).target l).1).st = 1
      ∧ (s.laneElement sig ctx l).owner.get 0 ((s.ctx sig ctx).target l).1 = ctx + 1
  fills : (s.busHalves sig ctx (s.lanePlace sig ctx l).1).1 < 4
  row : (s.busHalves sig ctx (s.lanePlace sig ctx l).1).2.2 = 0

/-- The next half of a place lands in its granule, and the buffer's descriptor counts it. -/
theorem State.HalfLands.landHalf {s : State} {sig ctx l : Nat} (h : s.HalfLands sig ctx l) :
    let c := s.ctx sig ctx
    let e := s.laneElement sig ctx l
    let j := c.landed.get 0 l / 2
    let d := e.desc (c.target l).1
    ∃ q, s.landHalf sig ctx l = some (s.withFill sig ctx (s.lanePlace sig ctx l).1 (s.lanePlace sig ctx l).2 q (c.halfDone l 1))
      ∧ q.pad = (e.fillGranule (s.laneGen sig ctx l) (d.base + j) (c.granule l (c.granuleAt l j).1 (c.granuleAt l j).2)
          (c.landed.get 0 l % 2 == 1) (c.completes l)).pad
      ∧ q.desc (c.target l).1 = BufferDesc.ofWord (d.afterHalf (c.target l).2.1 (c.target l).2.2 (c.completes l)).toWord := by
  intro c e j d
  obtain ⟨q, hmeet, hpad, hdesc⟩ := Element.meetHalf_lands (c.target l).2.1 (c.target l).2.2 (c.landed.get 0 l % 2 == 1) (c.completes l)
    (c.granule l (c.granuleAt l j).1 (c.granuleAt l j).2) h.current h.room h.takes
  exact ⟨q, State.landHalf_of_lands h.kept h.gen h.fresh hmeet h.fills h.row, hpad, congrArg BufferDesc.ofWord hdesc⟩

theorem getElem?_mod_of_forall_eq {α : Type} {xs : List α} {a : α} (ha : a ∈ xs) (hall : ∀ x ∈ xs, x = a) (k : Nat) :
    xs[k % xs.length]? = some a := by
  have hk : k % xs.length < xs.length := Nat.mod_lt _ (List.length_pos_of_mem ha)
  rw [List.getElem?_eq_getElem hk, hall _ (List.getElem_mem hk)]

/-- Whether a sweep holds the halves of a signature back (R374). -/
def State.sweeping (s : State) (sig : Nat) : Bool := match (s.spineOf sig).phase with | .seam _ (_ + 1) => true | _ => false

theorem State.sweeping_eq_false {s : State} {sig : Nat} (h : ∀ n m, (s.spineOf sig).phase ≠ .seam n (m + 1)) : s.sweeping sig = false := by
  unfold State.sweeping
  split
  · exact absurd ‹_› (h _ _)
  · rfl

/-- The places of a context of which a half may land. -/
def State.openLanes (s : State) (sig ctx : Nat) : List Nat :=
  (s.ctx sig ctx).lanes.filter fun l => (s.ctx sig ctx).nextReady l && (s.landHalf sig ctx l).isSome

theorem exec_fillHalfLands_eq (s : State) (sig ctx : Nat) :
    exec (.fillHalfLands sig ctx) s =
      if (s.ctx sig ctx).kind != .stream || !(Block.ofVec (s.ctx sig ctx).block).loads
          || !((s.sig sig).status == .running || (s.sig sig).status == .draining) || (s.sig sig).cutOff || s.sweeping sig then .next s
      else
        match (s.openLanes sig ctx)[Config.choice s.free % (s.openLanes sig ctx).length]? with
        | none => .next s
        | some l => .next ({ s with free := s.free + 1 }.landHalf sig ctx l |>.getD s) := rfl

/-- Halves of a load stream may land, and one place alone has its next half ready (R82, R374). -/
structure State.OnlyReady (s : State) (sig ctx l : Nat) : Prop where
  kind : (s.ctx sig ctx).kind = .stream
  loads : (Block.ofVec (s.ctx sig ctx).block).loads = true
  status : (s.sig sig).status = .running ∨ (s.sig sig).status = .draining
  fault : (s.sig sig).byFault = false
  seam : ∀ n m, (s.spineOf sig).phase ≠ .seam n (m + 1)
  lane : l ∈ (s.ctx sig ctx).lanes
  ready : (s.ctx sig ctx).nextReady l = true
  others : ∀ x ∈ (s.ctx sig ctx).lanes, x ≠ l → (s.ctx sig ctx).nextReady x = false

/-- The only place of a stream that is ready takes its half. -/
theorem State.OnlyReady.exec_fillHalfLands {s : State} {sig ctx l : Nat} (h : s.OnlyReady sig ctx l)
    (hlands : (s.landHalf sig ctx l).isSome = true) :
    exec (.fillHalfLands sig ctx) s = .next (({ s with free := s.free + 1 } : State).landHalf sig ctx l |>.getD s) := by
  have hopen : l ∈ s.openLanes sig ctx := List.mem_filter.2 ⟨h.lane, by rw [h.ready, hlands]; rfl⟩
  have honly : ∀ x ∈ s.openLanes sig ctx, x = l := fun x hx => by
    obtain ⟨hx, hboth⟩ := List.mem_filter.1 hx
    by_contra hne
    rw [h.others x hx hne] at hboth
    cases hboth
  rw [exec_fillHalfLands_eq, h.kind, h.loads, Sig.running_or_draining h.status, Sig.cutOff_of_not_byFault h.fault,
    State.sweeping_eq_false h.seam, getElem?_mod_of_forall_eq hopen honly, if_neg (by decide)]

theorem State.busHalves_withFree (s : State) (free sig key row : Nat) :
    ({ s with free } : State).busHalves sig key row = s.busHalves sig key row := by
  unfold State.busHalves
  rfl

theorem State.lanePlace_withFree (s : State) (free sig ctx l : Nat) :
    ({ s with free } : State).lanePlace sig ctx l = s.lanePlace sig ctx l := rfl

theorem State.HalfLands.withFree {s : State} {sig ctx l : Nat} (h : s.HalfLands sig ctx l) (free : Nat) :
    ({ s with free } : State).HalfLands sig ctx l where
  kept := h.kept
  gen := h.gen
  fresh := h.fresh
  current := h.current
  room := h.room
  takes := h.takes
  fills := by
    rw [State.busHalves_withFree, State.lanePlace_withFree]
    exact h.fills
  row := by
    rw [State.busHalves_withFree, State.lanePlace_withFree]
    exact h.row

/-- FILL_HALF_LANDS with one place ready: half of its granule is in its element, whose descriptor counts it once it is whole (R60, R63, R87). -/
theorem exec_fillHalfLands_spec {s : State} {sig ctx l : Nat} (honly : s.OnlyReady sig ctx l) (h : s.HalfLands sig ctx l) :
    let c := s.ctx sig ctx
    let e := s.laneElement sig ctx l
    let j := c.landed.get 0 l / 2
    let d := e.desc (c.target l).1
    ∃ t q, exec (.fillHalfLands sig ctx) s = .next t ∧ q = t.elementOf sig (s.lanePlace sig ctx l).1 (s.lanePlace sig ctx l).2
      ∧ t.memory = s.memory
      ∧ q.pad = (e.fillGranule (s.laneGen sig ctx l) (d.base + j) (c.granule l (c.granuleAt l j).1 (c.granuleAt l j).2)
          (c.landed.get 0 l % 2 == 1) (c.completes l)).pad
      ∧ q.desc (c.target l).1 = BufferDesc.ofWord (d.afterHalf (c.target l).2.1 (c.target l).2.2 (c.completes l)).toWord
      ∧ (t.ctx sig ctx).landed.get 0 l = c.landed.get 0 l + 1 := by
  intro c e j d
  obtain ⟨_, hland, -⟩ := h.landHalf
  have hexec := honly.exec_fillHalfLands (Option.isSome_of_eq_some hland)
  obtain ⟨q, hlands, hpad, hdesc⟩ := (h.withFree (s.free + 1)).landHalf
  rw [hlands, Option.getD_some] at hexec
  refine ⟨_, q, hexec, (State.elementOf_withFill ..).symm, rfl, hpad, hdesc, ?_⟩
  rw [State.ctx_withFill, Ctx.landed_halfDone]
  exact Tab.get_set_same ..

/-! ### Discards that wait (R60, R371) -/

theorem Element.desc_voided (e : Element) (gen : Gen) (i : Nat) (d : BufferDesc) (owner : Tab Nat) :
    ({ e.updateBuffer gen i d with owner } : Element).desc i = BufferDesc.ofWord d.toWord := by
  rw [Element.desc]
  dsimp only
  rw [Element.data_updateBuffer]

/-- A discard voids a current buffer that is EMPTY. -/
theorem Element.voidBuffer_of_empty {e : Element} {gen : Gen} {buf : Nat} (owner : Nat) (fmt : BitVec 4) (scaled : Bool) (landed : Nat → Bool)
    (hgen : (e.b.get (Tagged.zero 64) buf).gen = gen) (hcnt : (e.desc buf).cnt ≠ 0) (hst : (e.desc buf).st = 0) :
    ∃ q, e.voidBuffer gen buf owner fmt scaled landed = some q
      ∧ q.desc buf = BufferDesc.ofWord ({ e.desc buf with fmt, scaled, st := 2, void := true } : BufferDesc).toWord := by
  have hcurrent : ¬((e.b.get (Tagged.zero 64) buf).gen ≠ gen ∨ (e.desc buf).cnt = 0) := by simp [hgen, hcnt]
  unfold Element.desc at hcurrent hst
  unfold Element.voidBuffer
  extract_lets r d mine e1 d1 e2
  have hd : d1 = { e.desc buf with fmt, scaled } := if_pos hst
  have hkept : (d.st = 2 && d.void && mine) = false := by rw [show d.st = 0 from hst]; rfl
  have htakes : (d.st = 0 || (d.st = 1 && mine)) = true := by rw [decide_eq_true hst]; rfl
  rw [if_neg hcurrent, hkept, htakes]
  refine ⟨_, rfl, ?_⟩
  rw [Element.desc_voided, hd]

theorem State.voidPlace_of_some {s : State} {sig ctx l : Nat} {q : Element} (hgen : (s.ctx sig ctx).gen = s.genOf sig)
    (hvoid : (s.laneElement sig ctx l).voidBuffer (s.laneGen sig ctx l) ((s.ctx sig ctx).target l).1 (ctx + 1) ((s.ctx sig ctx).target l).2.1
      ((s.ctx sig ctx).target l).2.2 ((s.ctx sig ctx).hasLanded l) = some q) :
    s.voidPlace sig ctx l
      = some ((s.setElementOf sig (s.lanePlace sig ctx l).1 (s.lanePlace sig ctx l).2 q).setCtx sig ctx ((s.ctx sig ctx).forget l)) := by
  unfold State.laneElement State.laneGen State.lanePlace at hvoid
  unfold State.voidPlace
  dsimp only at hvoid ⊢
  rw [if_neg (not_not.2 hgen), hvoid]
  rfl

/-- The only discard that waits at a port voids its buffer, and waits no more. -/
theorem exec_deferredVoid_of_singleton {s : State} {sig ctx l : Nat} {t : State} (hvoids : (s.ctx sig ctx).voids = [l])
    (hplace : s.voidPlace sig ctx l = some t) :
    exec (.deferredVoid sig ctx) s
      = .next (t.setCtx sig ctx { t.ctx sig ctx with voids := (t.ctx sig ctx).voids.filter (· ≠ l) }) := by
  have hexec : exec (.deferredVoid sig ctx) s = execDeferredVoid sig ctx s := rfl
  rw [hexec, execDeferredVoid, hvoids, List.foldl_cons, List.foldl_nil, hplace]

/-- A place of a signature's window, and its context, after a change of both. -/
def State.withLane (s : State) (sig ctx row col : Nat) (e : Element) (c : Ctx) : State := (s.setElementOf sig row col e).setCtx sig ctx c

theorem State.elementOf_withLane (s : State) (sig ctx row col : Nat) (e : Element) (c : Ctx) :
    (s.withLane sig ctx row col e c).elementOf sig row col = e := by
  rw [State.withLane, State.elementOf_setCtx, State.elementOf_setElementOf_same]

theorem State.ctx_withLane (s : State) (sig ctx row col : Nat) (e : Element) (c : Ctx) : (s.withLane sig ctx row col e c).ctx sig ctx = c :=
  State.ctx_setCtx ..

theorem State.setCtx_withLane (s : State) (sig ctx row col : Nat) (e : Element) (c d : Ctx) :
    (s.withLane sig ctx row col e c).setCtx sig ctx d = s.withLane sig ctx row col e d :=
  State.setCtx_setCtx ..

/-- DEFERRED_VOID with one discard that waits, whose buffer is EMPTY (R60, R371). -/
theorem exec_deferredVoid_spec {s : State} {sig ctx l : Nat} (hvoids : (s.ctx sig ctx).voids = [l]) (hgen : (s.ctx sig ctx).gen = s.genOf sig)
    (hcurrent : ((s.laneElement sig ctx l).b.get (Tagged.zero 64) ((s.ctx sig ctx).target l).1).gen = s.laneGen sig ctx l)
    (hcnt : ((s.laneElement sig ctx l).desc ((s.ctx sig ctx).target l).1).cnt ≠ 0)
    (hst : ((s.laneElement sig ctx l).desc ((s.ctx sig ctx).target l).1).st = 0) :
    ∃ t, exec (.deferredVoid sig ctx) s = .next t ∧ (t.ctx sig ctx).voids = [] ∧ t.memory = s.memory
      ∧ (t.elementOf sig (s.lanePlace sig ctx l).1 (s.lanePlace sig ctx l).2).desc ((s.ctx sig ctx).target l).1
        = BufferDesc.ofWord ({ (s.laneElement sig ctx l).desc ((s.ctx sig ctx).target l).1 with
            fmt := ((s.ctx sig ctx).target l).2.1, scaled := ((s.ctx sig ctx).target l).2.2, st := 2, void := true } : BufferDesc).toWord := by
  obtain ⟨q, hvoid, hdesc⟩ := Element.voidBuffer_of_empty (ctx + 1) ((s.ctx sig ctx).target l).2.1 ((s.ctx sig ctx).target l).2.2
    ((s.ctx sig ctx).hasLanded l) hcurrent hcnt hst
  have hexec := exec_deferredVoid_of_singleton hvoids (State.voidPlace_of_some hgen hvoid)
  rw [← State.withLane, State.ctx_withLane, State.setCtx_withLane] at hexec
  refine ⟨_, hexec, ?_, rfl, ?_⟩
  · rw [State.ctx_withLane]
    simp [Ctx.forget, hvoids]
  · rw [State.elementOf_withLane]
    exact hdesc

/-! ### Egress (R82, R87, R242) -/

theorem Element.egress_count (e : Element) (event n : Nat) : (e.count event n).egress = e.egress := by
  obtain ⟨counters, h⟩ := e.count_eq event n
  rw [h]

theorem BufferDesc.st_ofWord (x : Word) : (BufferDesc.ofWord x).st = x.toNat / 2 ^ 38 % 4 := by
  rw [BufferDesc.ofWord]
  dsimp only
  rw [BitVec.extractLsb'_toNat, Nat.shiftRight_eq_div_pow]

theorem BufferDesc.toNat_toWord (d : BufferDesc) :
    d.toWord.toNat = (d.base % 2 ^ 11 + d.cnt % 2 ^ 11 * 2 ^ 11 + d.fcnt % 2 ^ 11 * 2 ^ 22 + d.fmt.toNat * 2 ^ 33
      + (if d.scaled then 2 ^ 37 else 0) + d.st % 4 * 2 ^ 38 + (if d.void then 2 ^ 40 else 0)) % 2 ^ 64 := by
  rw [BufferDesc.toWord, BitVec.toNat_ofNat]

/-- The state of a buffer, read from the word of its descriptor. -/
theorem BufferDesc.st_ofWord_toWord (d : BufferDesc) : (BufferDesc.ofWord d.toWord).st = d.st % 4 := by
  have hfmt : d.fmt.toNat < 16 := d.fmt.isLt
  rw [BufferDesc.st_ofWord, BufferDesc.toNat_toWord]
  cases d.scaled <;> cases d.void <;> simp only [Bool.false_eq_true, if_true, if_false] <;> omega

/-- Egress goes on to the next granule of a buffer that has one. -/
theorem Element.pastGranule_of_more {e : Element} {gen : Gen} {x : Egress} {rest : List Egress} {d : Drain} (h : d.next + 1 < d.cnt) :
    e.pastGranule gen x rest d = { e with egress := { x with entry := .buffer { d with next := d.next + 1 } } :: rest } := by
  rw [Element.pastGranule]
  exact if_pos h

/-- The last granule of a buffer leaves it EMPTY, unless the descriptor has passed with its generation (R60, R242). -/
theorem Element.pastGranule_of_last {e : Element} {gen : Gen} {x : Egress} {rest : List Egress} {d : Drain} (h : d.cnt ≤ d.next + 1) :
    (e.pastGranule gen x rest d).egress = rest
      ∧ if d.gen = gen ∧ (e.b.get (Tagged.zero 64) d.b).gen = gen then ((e.pastGranule gen x rest d).desc d.b).st = 0
        else (e.pastGranule gen x rest d).b = e.b := by
  unfold Element.pastGranule
  dsimp only
  rw [if_neg (Nat.not_lt.2 h)]
  refine ⟨rfl, ?_⟩
  by_cases hcurrent : d.gen = gen ∧ (e.b.get (Tagged.zero 64) d.b).gen = gen
  · rw [if_pos hcurrent, if_pos hcurrent.symm, Element.desc]
    dsimp only
    rw [Element.data_updateBuffer, BufferDesc.st_ofWord_toWord]
    exact Nat.zero_mod 4
  · rw [if_neg hcurrent, if_neg (mt And.symm hcurrent)]

theorem Element.takeEgress_of_vector {e : Element} {gen : Gen} {trap : Bool} {x : Egress} {rest : List Egress} {v : Vec} (h : x.entry = .vector v) :
    e.takeEgress gen trap x rest = ({ e with egress := rest }, v, none) := by
  rw [Element.takeEgress, h]

theorem Element.takeEgress_of_stopped {e : Element} {gen : Gen} {trap : Bool} {x : Egress} {rest : List Egress} {d : Drain}
    (h : x.entry = .stopped d) : e.takeEgress gen trap x rest = (e.pastGranule gen x rest d, 0, none) := by
  rw [Element.takeEgress, h]

/-- A current granule is taken with its bytes. -/
theorem Element.takeEgress_of_current {e : Element} {gen : Gen} {trap : Bool} {x : Egress} {rest : List Egress} {d : Drain}
    (h : x.entry = .buffer d) (hgen : (e.pad.get (Tagged.zero 512) (d.base + d.next)).gen = gen)
    (hpoison : (e.pad.get (Tagged.zero 512) (d.base + d.next)).poison = false) :
    e.takeEgress gen trap x rest = (e.pastGranule gen x rest d, (e.pad.get (Tagged.zero 512) (d.base + d.next)).data, none) := by
  have hread : e.egressRead gen trap (d.base + d.next) = ((e.pad.get (Tagged.zero 512) (d.base + d.next)).data, e, none) := by
    unfold Element.egressRead
    dsimp only
    rw [if_pos hgen, hpoison]
    rfl
  rw [Element.takeEgress, h]
  dsimp only
  rw [hread]

/-- A stale granule stands at the head of the queue in mode T, and raises a stale read (R62, R373). -/
theorem Element.takeEgress_of_stale {e : Element} {gen : Gen} {x : Egress} {rest : List Egress} {d : Drain} (h : x.entry = .buffer d)
    (hgen : (e.pad.get (Tagged.zero 512) (d.base + d.next)).gen ≠ gen) :
    e.takeEgress gen true x rest = ({ e with egress := { x with entry := .stopped d } :: rest }, 0,
      some (0x10, (e.pad.get (Tagged.zero 512) (d.base + d.next)).gen.toNat + gen.toNat * 2 ^ 16)) := by
  have hread : e.egressRead gen true (d.base + d.next)
      = (0, e, some (0x10, (e.pad.get (Tagged.zero 512) (d.base + d.next)).gen.toNat + gen.toNat * 2 ^ 16)) := by
    unfold Element.egressRead
    dsimp only
    rw [if_neg hgen, if_pos rfl]
  rw [Element.takeEgress, h]
  dsimp only
  rw [hread]

/-- Whether the head of a queue waits for the end of a stop (R352). -/
def Egress.waits (x : Egress) (g : Sig) : Bool := match x.entry with | .stopped _ => g.stop.isSome | _ => false

theorem Egress.waits_eq_false {x : Egress} {g : Sig} (h : ∀ d, x.entry = .stopped d → g.stop = none) : x.waits g = false := by
  unfold Egress.waits
  split
  · rw [h _ ‹_›]
    rfl
  · rfl

/-- The head of an element's egress queue may be taken: a store stream's port takes it at a place of its window, and the row bus has room
(R82, R87). -/
structure State.EgressOpen (s : State) (sig ctx row col : Nat) (x : Egress) (rest : List Egress) (p : Nat) : Prop where
  key : ctx = ctxKey (s.sig sig).wd (row / 16) (col / 16) x.handle
  queue : (s.elementOf sig row col).egress = x :: rest
  place : (Block.ofVec (s.ctx sig ctx).block).placeOf (row % 16) (col % 16) = some p
  kind : (s.ctx sig ctx).kind = .stream
  stores : (Block.ofVec (s.ctx sig ctx).block).loads = false
  status : (s.sig sig).status = .running ∨ (s.sig sig).status = .draining
  fault : (s.sig sig).byFault = false
  ready : ∀ d, x.entry = .stopped d → (s.sig sig).stop = none
  halves : (s.busHalves sig ctx row).2.1 < 4
  row : (s.busHalves sig ctx row).2.2 = 0

theorem exec_egressGranuleTaken_of_open {s : State} {sig ctx row col p : Nat} {x : Egress} {rest : List Egress}
    (h : s.EgressOpen sig ctx row col x rest p) :
    let c := s.ctx sig ctx
    exec (.egressGranuleTaken sig row col) s =
      match (s.elementOf sig row col).takeEgress (s.folioOf sig row col).gen (s.sig sig).gmode x rest with
      | (q, v, none) =>
        .next (s.withLane sig ctx row col { q.count 7 1 with bus := 2 } { c with
          taken := c.taken.set 0 p (c.taken.get 0 p + 1)
          out := c.out.put (c.taken.get 0 p * (Block.ofVec c.block).places + p) v })
      | (q, _, some (code, aux)) =>
        .next ((s.setElementOf sig row col q).takeElementFault sig
          { code, aux := BitVec.ofNat 64 aux
            addr := BitVec.ofNat 64 (match x.entry with | .buffer d => 64 * (d.base + d.next) | _ => 0)
            slot := 3, offset := 0, row, col, time := (s.sig sig).time, more := 0, seen := s.ns }) := by
  intro c
  have hexec : exec (.egressGranuleTaken sig row col) s = execEgressGranuleTaken sig row col s := rfl
  have hwaits := Egress.waits_eq_false h.ready
  have hplace := h.place
  have hshut : (c.kind != .stream || (Block.ofVec c.block).loads || (s.sig sig).cutOff
      || !((s.sig sig).status == .running || (s.sig sig).status == .draining) || x.waits (s.sig sig)
      || decide (1 ≤ (s.busHalves sig ctx row).2.2) || decide (4 ≤ (s.busHalves sig ctx row).2.1))
      = false := by
    rw [h.kind, h.stores, Sig.cutOff_of_not_byFault h.fault, Sig.running_or_draining h.status, hwaits, h.row,
      decide_eq_false (Nat.not_le.2 h.halves)]
    rfl
  rw [hexec, execEgressGranuleTaken, h.queue]
  dsimp only
  rw [← h.key, hplace]
  dsimp only
  change (if (c.kind != .stream || (Block.ofVec c.block).loads || (s.sig sig).cutOff
      || !((s.sig sig).status == .running || (s.sig sig).status == .draining) || x.waits (s.sig sig)
      || decide (1 ≤ (s.busHalves sig ctx row).2.2) || decide (4 ≤ (s.busHalves sig ctx row).2.1))
      = true then _ else _) = _
  rw [hshut, if_neg Bool.false_ne_true]
  rfl

theorem Tab.look_put {α : Type} (t : Tab α) (k : Nat) (x : α) : (t.put k x).look k = some x := by
  have hnone : ∀ p ∈ Tab.erase k t, (p.1 == k) = false := fun p hp => beq_eq_false_iff_ne.2 (Tab.mem_erase hp).2
  unfold Tab.put Tab.look
  generalize Tab.erase k t = u at hnone
  induction u with
  | nil => simp [Tab.insert]
  | cons p rest ih =>
    obtain ⟨j, y⟩ := p
    unfold Tab.insert
    split
    · simp
    · rw [List.find?_cons, hnone (j, y) (List.mem_cons_self ..)]
      exact ih fun q hq => hnone q (List.mem_cons_of_mem _ hq)

theorem State.memory_withLane (s : State) (sig ctx row col : Nat) (e : Element) (c : Ctx) : (s.withLane sig ctx row col e c).memory = s.memory := rfl

/-- An element's fault of a running signature, where the element changes with it (R352). -/
theorem State.takeElementFault_setElementOf {s : State} {sig row col : Nat} (q : Element) (n : FaultNote) (hend : (s.sig sig).byFault = false)
    (hfrozen : (s.sig sig).frozen = false) (hstop : (s.sig sig).stop = none) :
    let t := (s.setElementOf sig row col q).takeElementFault sig n
    (t.sig sig).stop = some ⟨s.cycle + 12, [n], false, none⟩ ∧ t.elementOf sig row col = q ∧ t.memory = s.memory := by
  intro t
  have ht : t = (s.setElementOf sig row col q).setSig sig { s.sig sig with stop := some ⟨s.cycle + 12, [n], false, none⟩ } :=
    State.takeElementFault_of_running (s := s.setElementOf sig row col q) n hend hfrozen hstop
  rw [ht, State.sig_setSig, State.elementOf_setSig (by rfl) (by rfl), State.elementOf_setElementOf_same]
  exact ⟨rfl, rfl, rfl⟩

/-- The port has taken a granule of bytes v from an element, whose egress queue and descriptors are then those of q. -/
theorem exec_egressGranuleTaken_of_taken {s : State} {sig ctx row col p : Nat} {x : Egress} {rest : List Egress} {q : Element} {v : Vec}
    (h : s.EgressOpen sig ctx row col x rest p)
    (htake : (s.elementOf sig row col).takeEgress (s.folioOf sig row col).gen (s.sig sig).gmode x rest = (q, v, none)) :
    let c := s.ctx sig ctx
    ∃ t, exec (.egressGranuleTaken sig row col) s = .next t ∧ (t.elementOf sig row col).egress = q.egress
      ∧ (t.elementOf sig row col).b = q.b ∧ (t.ctx sig ctx).taken.get 0 p = c.taken.get 0 p + 1
      ∧ (t.ctx sig ctx).out.look (c.taken.get 0 p * (Block.ofVec c.block).places + p) = some v ∧ t.memory = s.memory := by
  intro c
  have hexec := exec_egressGranuleTaken_of_open h
  rw [htake] at hexec
  refine ⟨_, hexec, ?_, ?_, ?_, ?_, State.memory_withLane ..⟩
  · rw [State.elementOf_withLane]
    exact q.egress_count 7 1
  · rw [State.elementOf_withLane]
    exact q.b_count 7 1
  · rw [State.ctx_withLane]
    dsimp only
    rw [Tab.get_set_same]
  · rw [State.ctx_withLane]
    exact Tab.look_put ..

/-- A stale granule in mode T stops a running signature 12 cycles on, with the fault noted, and waits at the head of its queue (R352, R373). -/
theorem exec_egressGranuleTaken_of_stale {s : State} {sig ctx row col p : Nat} {x : Egress} {rest : List Egress} {d : Drain}
    (h : s.EgressOpen sig ctx row col x rest p) (hentry : x.entry = .buffer d) (htrap : (s.sig sig).gmode = true)
    (hgen : ((s.elementOf sig row col).pad.get (Tagged.zero 512) (d.base + d.next)).gen ≠ (s.folioOf sig row col).gen)
    (hfrozen : (s.sig sig).frozen = false) (hstop : (s.sig sig).stop = none) :
    let r := (s.elementOf sig row col).pad.get (Tagged.zero 512) (d.base + d.next)
    ∃ t st, exec (.egressGranuleTaken sig row col) s = .next t ∧ (t.sig sig).stop = some st ∧ st.from_ = s.cycle + 12
      ∧ st.notes = [{ code := 0x10, aux := BitVec.ofNat 64 (r.gen.toNat + (s.folioOf sig row col).gen.toNat * 65536)
                      addr := BitVec.ofNat 64 (64 * (d.base + d.next)), slot := 3, offset := 0, row, col, time := (s.sig sig).time, more := 0
                      seen := s.ns }]
      ∧ (t.elementOf sig row col).egress = { x with entry := .stopped d } :: rest ∧ t.memory = s.memory := by
  intro r
  have hexec := exec_egressGranuleTaken_of_open h
  rw [htrap, Element.takeEgress_of_stale hentry hgen] at hexec
  dsimp only at hexec
  rw [hentry] at hexec
  obtain ⟨hnoted, helement, hmemory⟩ := State.takeElementFault_setElementOf (row := row) (col := col)
    { s.elementOf sig row col with egress := { x with entry := .stopped d } :: rest }
    { code := 0x10, aux := BitVec.ofNat 64 (r.gen.toNat + (s.folioOf sig row col).gen.toNat * 2 ^ 16)
      addr := BitVec.ofNat 64 (64 * (d.base + d.next)), slot := 3, offset := 0, row, col, time := (s.sig sig).time, more := 0, seen := s.ns }
    h.fault hfrozen hstop
  exact ⟨_, _, hexec, hnoted, rfl, rfl, congrArg Element.egress helement, hmemory⟩

/-! ### Completion (R84) -/

theorem State.disown_eq (s : State) (sig ctx : Nat) : ∃ elements, s.disown sig ctx = { s with elements } := by
  refine List.foldlRecOn (motive := fun u : State => ∃ elements, u = { s with elements }) (s.ctx sig ctx).lanes _ ⟨_, rfl⟩ fun u hu l _ => ?_
  obtain ⟨elements, rfl⟩ := hu
  exact ⟨_, rfl⟩

/-- A state with other elements. -/
def State.withElements (s : State) (elements : Tab Element) : State := { s with elements }

theorem State.withElements_memory (s : State) (elements : Tab Element) : (s.withElements elements).memory = s.memory := rfl

theorem State.withElements_poisonedUnits (s : State) (elements : Tab Element) : (s.withElements elements).poisonedUnits = s.poisonedUnits := rfl

theorem State.walk_withElements (s : State) (elements : Tab Element) (vif va : Nat) : (s.withElements elements).walk vif va = s.walk vif va := by
  have hiface : (s.withElements elements).iface vif = s.iface vif := rfl
  have hplatform : (s.withElements elements).platform = s.platform := rfl
  rw [State.walk, State.walk, hiface, hplatform, State.withElements_memory, State.withElements_poisonedUnits]

theorem State.translatePages_withElements (s : State) (elements : Tab Element) (vif : Nat) (va : Word) (need : List Need) :
    (s.withElements elements).translatePages none vif va need = s.translatePages none vif va need := by
  have hleaf (l : Leaf) : (s.withElements elements).checkLeaf l va.toNat need = s.checkLeaf l va.toNat need := State.checkLeaf_of_platform rfl ..
  unfold State.translatePages
  rw [Option.bind_none, Option.bind_none, State.walk_withElements]
  cases s.walk vif va.toNat with
  | error e => dsimp only
  | ok l =>
    dsimp only
    rw [hleaf]

theorem State.readVirtual_withElements (s : State) (elements : Tab Element) (vif : Nat) (va : Word) (n : Nat) :
    (s.withElements elements).readVirtual vif va n = s.readVirtual vif va n := by
  have hworld : (s.withElements elements).worldMaterial vif = s.worldMaterial vif := rfl
  have hunit : (s.withElements elements).readUnit vif va = s.readUnit vif va := by
    rw [State.readUnit, State.readUnit, State.translatePages_withElements, hworld, State.withElements_poisonedUnits]
    rfl
  rw [State.readVirtual, State.readVirtual, hunit]

/-- A controller's store leaves memory the same whatever elements hold. -/
theorem State.writeVirtual_withElements {s u : State} (elements : Tab Element) {vif : Nat} {va : Word} {n data : Nat}
    (h : s.writeVirtual vif va n data = .ok u) :
    ∃ v, (s.withElements elements).writeVirtual vif va n data = .ok v ∧ v.memory = u.memory := by
  have hworld : (s.withElements elements).worldMaterial vif = s.worldMaterial vif := rfl
  unfold State.writeVirtual at h ⊢
  rw [State.translatePages_withElements, hworld, State.withElements_poisonedUnits]
  cases htranslate : s.translatePages none vif va [.wr] with
  | error e =>
    rw [htranslate] at h
    cases h
  | ok pa =>
    cases hkey : s.worldMaterial vif with
    | error e =>
      rw [htranslate, hkey] at h
      cases h
    | ok k =>
      rw [htranslate, hkey] at h
      dsimp only at h ⊢
      split at h
      · cases h
      · rw [if_neg ‹_›]
        obtain ⟨value, poisoned, hput⟩ := putUnit_eq k pa (va.toNat / 64) (BitVec.ofNat 512 (data * 2 ^ (8 * (va.toNat % 64))))
          (BitVec.ofNat 512 ((2 ^ (8 * n) - 1) * 2 ^ (8 * (va.toNat % 64))))
        cases h
        exact ⟨_, rfl, by rw [hput, hput, State.withElements_memory]⟩

theorem State.addOne_withElements {s u : State} (elements : Tab Element) {vif : Nat} {va : Word} (h : s.addOne vif va = .ok u) :
    ∃ v, (s.withElements elements).addOne vif va = .ok v ∧ v.memory = u.memory := by
  unfold State.addOne at h ⊢
  rw [State.readVirtual_withElements]
  cases hread : s.readVirtual vif va 8 with
  | error e =>
    rw [hread] at h
    cases h
  | ok old =>
    rw [hread] at h
    exact State.writeVirtual_withElements elements h

theorem State.ctx_contextDone (s : State) (sig ctx : Nat) (cdone : Word) : (s.contextDone sig ctx cdone).ctx sig ctx = Ctx.free :=
  State.ctx_setCtx ..

theorem State.contextDone_of_zero (s : State) (sig ctx : Nat) : s.contextDone sig ctx 0 = s.setCtx sig ctx Ctx.free := rfl

/-- A CDONE that takes its add is left with it, and the handle is free. -/
theorem State.contextDone_of_added {s u : State} {sig ctx : Nat} {cdone : Word} (hcdone : cdone ≠ 0) (h : s.addOne (s.sig sig).vif cdone = .ok u) :
    s.contextDone sig ctx cdone = u.setCtx sig ctx Ctx.free := by
  unfold State.contextDone
  dsimp only
  rw [if_neg hcdone, h]

theorem exec_streamComplete_of_done {s : State} {sig ctx : Nat} (hstatus : (s.sig sig).status = .running ∨ (s.sig sig).status = .draining)
    (hfault : (s.sig sig).byFault = false) (hdone : s.streamDone sig ctx = true) (hfork : s.forkOpen sig (s.ctx sig ctx).fork = false) :
    exec (.streamComplete sig ctx) s = .next ((s.disown sig ctx).contextDone sig ctx (Block.ofVec (s.ctx sig ctx).block).cdone) := by
  have hexec : exec (.streamComplete sig ctx) s = execStreamComplete sig ctx s := rfl
  rw [hexec, execStreamComplete, Sig.running_or_draining hstatus, Sig.cutOff_of_not_byFault hfault, hdone, hfork]
  rfl

/-- STREAM_COMPLETE of a stream that is done (R84). -/
theorem exec_streamComplete_spec {s : State} {sig ctx : Nat} (hstatus : (s.sig sig).status = .running ∨ (s.sig sig).status = .draining)
    (hfault : (s.sig sig).byFault = false) (hdone : s.streamDone sig ctx = true) (hfork : s.forkOpen sig (s.ctx sig ctx).fork = false) :
    let b := Block.ofVec (s.ctx sig ctx).block
    ∃ t, exec (.streamComplete sig ctx) s = .next t ∧ t.ctx sig ctx = Ctx.free ∧ (b.cdone = 0 → t.memory = s.memory)
      ∧ ∀ u, b.cdone ≠ 0 → s.addOne (s.sig sig).vif b.cdone = .ok u → t.memory = u.memory := by
  intro b
  obtain ⟨elements, hdisown⟩ := s.disown_eq sig ctx
  rw [← State.withElements] at hdisown
  refine ⟨_, exec_streamComplete_of_done hstatus hfault hdone hfork, State.ctx_contextDone .., fun hzero => ?_, fun u hcdone hadd => ?_⟩
  · rw [show (Block.ofVec (s.ctx sig ctx).block).cdone = 0 from hzero, State.contextDone_of_zero, hdisown]
    rfl
  · obtain ⟨v, hadded, hmemory⟩ := State.addOne_withElements elements hadd
    rw [hdisown, State.contextDone_of_added hcdone hadded]
    exact hmemory

/-- What egress takes of a buffer whose granule in hand is given, and what it leaves: the next granule, or the buffer EMPTY. -/
theorem exec_egressGranuleTaken_of_past {s : State} {sig ctx row col p : Nat} {x : Egress} {rest : List Egress} {d : Drain} {v : Vec}
    (h : s.EgressOpen sig ctx row col x rest p)
    (htake : (s.elementOf sig row col).takeEgress (s.folioOf sig row col).gen (s.sig sig).gmode x rest
      = ((s.elementOf sig row col).pastGranule (s.folioOf sig row col).gen x rest d, v, none)) :
    let c := s.ctx sig ctx
    let e := s.elementOf sig row col
    let takes (egress : List Egress) (t : State) : Prop :=
      exec (.egressGranuleTaken sig row col) s = .next t ∧ (t.elementOf sig row col).egress = egress
        ∧ (t.ctx sig ctx).taken.get 0 p = c.taken.get 0 p + 1
        ∧ (t.ctx sig ctx).out.look (c.taken.get 0 p * (Block.ofVec c.block).places + p) = some v ∧ t.memory = s.memory
    (d.next + 1 < d.cnt → ∃ t, takes ({ x with entry := .buffer { d with next := d.next + 1 } } :: rest) t)
    ∧ (d.cnt ≤ d.next + 1 → ∃ t, takes rest t
      ∧ if d.gen = (s.folioOf sig row col).gen ∧ (e.b.get (Tagged.zero 64) d.b).gen = (s.folioOf sig row col).gen then
          ((t.elementOf sig row col).desc d.b).st = 0
        else (t.elementOf sig row col).b = e.b) := by
  intro c e takes
  obtain ⟨t, hexec, hegress, hbuffers, htaken, hout, hmemory⟩ := exec_egressGranuleTaken_of_taken h htake
  refine ⟨fun hmore => ⟨t, hexec, hegress.trans ?_, htaken, hout, hmemory⟩, fun hlast => ?_⟩
  · rw [Element.pastGranule_of_more hmore]
  · obtain ⟨hrest, hempty⟩ := Element.pastGranule_of_last (e := e) (gen := (s.folioOf sig row col).gen) (x := x) (rest := rest) hlast
    refine ⟨t, ⟨hexec, hegress.trans hrest, htaken, hout, hmemory⟩, ?_⟩
    rw [Element.desc, hbuffers]
    exact hempty

/-! ### The obligation -/

/-- Settles O42: each event of a stream by its own specification. -/
theorem streams : Obligations.Streams := by
  unfold Obligations.Streams
  intro s sig ctx g c b placed desc hkind
  refine ⟨?issue, ?fill, ?void, ?egress, ?complete⟩
  case issue =>
    intro p pa k hports hload hreissues hrun hindexed hpiece hready va key hrange hphysical hmaterial hdomain
    exact exec_streamRequestIssue_spec ⟨hkind, hports, hload, hreissues, hindexed, hrun⟩ hpiece hready
      ⟨hindexed, hrange, hphysical, hmaterial, hdomain⟩
  case fill =>
    intro l h at_ place target e gen d upper whole i old full hplaced hloads hseam hl hready hothers hkept hgen hfresh hcurrent hroom htakes
      hfills hrow
    have hlane : place = s.lanePlace sig ctx l := rfl
    rw [hlane] at hfills hrow
    obtain ⟨t, q, hexec, hq, hmemory, hpad, hdesc, hlanded⟩ := exec_fillHalfLands_spec
      ⟨hkind, hloads, hplaced.1, hplaced.2, hseam, hl, hready, hothers⟩ ⟨hkept, hgen, hfresh, hcurrent, hroom, htakes, hfills, hrow⟩
    obtain ⟨hstamp, hbits⟩ := e.fillGranule_spec gen i (c.granule l at_.1 at_.2) upper (c.completes l)
    refine ⟨t, q, hexec, hq, hmemory, ?_, ?_, hdesc, hlanded⟩
    · rw [hpad]
      exact hstamp
    · rw [hpad]
      exact hbits
  case void =>
    intro l place target e gen d hvoids hgen hcurrent hcnt hst
    exact exec_deferredVoid_spec hvoids hgen hcurrent hcnt hst
  case egress =>
    intro row col x rest p e n gen hplaced hstores hqueue hkey hplace hhalves hrow takes emptied
    have hopen (hready : ∀ d, x.entry = .stopped d → g.stop = none) : s.EgressOpen sig ctx row col x rest p :=
      ⟨hkey, hqueue, hplace, hkind, hstores, hplaced.1, hplaced.2, hready, hhalves, hrow⟩
    refine ⟨fun v hentry => ?vector, fun d hentry hgen hpoison => ?current, fun d hentry htrap hgen hfrozen hstop => ?stale,
      fun d hentry hstop => ?stopped⟩
    case vector =>
      have hready := hopen fun d hstopped => by rw [hentry] at hstopped; cases hstopped
      obtain ⟨t, hexec, hegress, -, hrest⟩ := exec_egressGranuleTaken_of_taken hready (Element.takeEgress_of_vector hentry)
      exact ⟨t, hexec, hegress, hrest⟩
    case current =>
      have hready := hopen fun d hstopped => by rw [hentry] at hstopped; cases hstopped
      exact exec_egressGranuleTaken_of_past hready (Element.takeEgress_of_current hentry hgen hpoison)
    case stale =>
      have hready := hopen fun d hstopped => by rw [hentry] at hstopped; cases hstopped
      exact exec_egressGranuleTaken_of_stale hready hentry htrap hgen hfrozen hstop
    case stopped =>
      exact exec_egressGranuleTaken_of_past (hopen fun _ _ => hstop) (Element.takeEgress_of_stopped hentry)
  case complete =>
    intro hplaced hdone hfork
    exact exec_streamComplete_spec hplaced.1 hplaced.2 hdone hfork

end Sys2Proof.Machine

/-!
PROOFS. Memory accesses: what an invalidation of the edge TLB and the read-ahead's expiry remove (R73, R86).
-/

namespace Sys2Proof.Machine

/-! ### Invalidation of the edge TLB (R73) -/

theorem TlbEntry.overlaps_iff (e : TlbEntry) (addr : Nat) :
    e.overlaps addr = true ↔ addr % 2 ^ 56 / 2 ^ (16 + e.span) = e.page / 2 ^ e.span := by
  rw [TlbEntry.overlaps, beq_iff_eq, Nat.div_div_eq_div_mul, Nat.pow_add]

/-- A request that an entry which goes translated, and that has not completed, is waited for. -/
theorem State.mem_waiting_invalidate {s : State} {test : TlbEntry → Bool} {r : Request} {e : TlbEntry} (hr : r ∈ s.requests) (he : e ∈ s.tlb)
    (htest : test e = true) (huses : r.usesEntry e = true) :
    r.id ∈ (s.requests.filter fun r => (s.tlb.filter test).any fun e => r.usesEntry e).map (·.id) :=
  List.mem_map_of_mem (List.mem_filter.2 ⟨hr, List.any_eq_true.2 ⟨e, List.mem_filter.2 ⟨he, htest⟩, huses⟩⟩)

/-- An invalidation removes the entries that its test names, and waits for the requests that they translated. -/
theorem State.invalidate_spec (s : State) {test : TlbEntry → Bool} {names : TlbEntry → Prop} (h : ∀ e, test e = true ↔ names e) :
    let t := s.invalidate test
    (∀ e, e ∈ t.tlb ↔ e ∈ s.tlb ∧ ¬names e) ∧ t.memory = s.memory
      ∧ ∃ ids, t.tlbinv = some ids ∧ ∀ r ∈ s.requests, ∀ e ∈ s.tlb, names e → r.usesEntry e = true → r.id ∈ ids := by
  refine ⟨fun e => ?_, rfl, _, rfl, fun r hr e he hnames huses => ?_⟩
  · rw [← h, State.invalidate, List.mem_filter, Bool.not_eq_true']
    simp
  · exact List.mem_append_right _ (State.mem_waiting_invalidate hr he ((h e).2 hnames) huses)

theorem exec_tlbinvComplete_of_completed {s : State} {ids : List Nat} (hids : s.tlbinv = some ids) (hgone : ∀ i ∈ ids, s.request i = none) :
    exec .tlbinvComplete s = .next { s with tlbinv := none } := by
  have hexec : exec .tlbinvComplete s = execTlbinvComplete s := rfl
  have hleft (p : Request → Bool) : (ids.filter fun i => (s.request i).any p) = [] :=
    List.filter_eq_nil_iff.2 fun i hi => by rw [hgone i hi]; exact Bool.false_ne_true
  rw [hexec, execTlbinvComplete, hids]
  dsimp only
  rw [hleft]
  rfl

/-- READ_AHEAD_EXPIRY keeps the entries of the last 4,096 cycles. -/
theorem exec_readAheadExpiry_spec (s : State) (sig : Nat) :
    ∃ t, exec (.readAheadExpiry sig) s = .next t ∧ t.memory = s.memory
      ∧ ∀ e, e ∈ (t.spineOf sig).readAhead ↔ e ∈ (s.spineOf sig).readAhead ∧ s.cycle < e.fetched + 4096 := by
  refine ⟨_, rfl, rfl, fun e => ?_⟩
  rw [State.spineOf_setSpineOf, List.mem_filter, decide_eq_true_iff]

/-- Settles O41: each kind of invalidation by the test it makes of an entry, its end, and the expiry. -/
theorem invalidationAndExpiry : Obligations.InvalidationAndExpiry := by
  unfold Obligations.InvalidationAndExpiry
  intro s removes
  have hremoves {i : Instr} {test : TlbEntry → Bool} {names : TlbEntry → Prop} (hexec : exec i s = .next (s.invalidate test))
      (h : ∀ e, test e = true ↔ names e) : removes i names := ⟨_, hexec, s.invalidate_spec h⟩
  refine ⟨?all, fun vif => ?interface, fun vif addr => ?page, fun addr => ?pageAll,
    fun ids hids hgone => exec_tlbinvComplete_of_completed hids hgone, fun sig => exec_readAheadExpiry_spec s sig⟩
  case all => exact hremoves rfl fun _ => iff_of_true rfl trivial
  case interface => exact hremoves rfl fun _ => beq_iff_eq
  case page => exact hremoves rfl fun e => by rw [Bool.and_eq_true, beq_iff_eq, e.overlaps_iff]
  case pageAll => exact hremoves rfl fun e => e.overlaps_iff addr

end Sys2Proof.Machine

/-!
PROOFS. World keys (R91, R377) and uncorrectable errors (R365, R368, R369): what each place of an error takes.
-/

namespace Sys2Proof.Machine

/-! ### World keys (R91, R377) -/

theorem exec_worldKeyCreate_of_none {s : State} {vif : Nat} (hserved : s.keysServed = true) (hnone : (s.iface vif).worldKey = none) :
    exec (.worldKeyCreate vif) s
      = .next { s.setIface vif { s.iface vif with worldKey := some (drawKey s.free) } with free := s.free + 1 } := by
  have hexec : exec (.worldKeyCreate vif) s = execWorldKeyCreate vif s := rfl
  rw [hexec, execWorldKeyCreate, hserved, hnone]
  rfl

theorem exec_worldKeyDestroy (s : State) (vif : Nat) :
    exec (.worldKeyDestroy vif) s = .next (if s.worldInUse vif then s else s.setIface vif { s.iface vif with worldKey := none }) := rfl

/-! ### Registers, granules, memory units and wrapped keys (R368, R369) -/

theorem exec_uncorrectableError_vector (s : State) (row col : Nat) {i : Nat} (hi : i < 28) :
    exec (.uncorrectableError (.elementRegister row col 0 i)) s
      = .next (s.setElement row col ((s.element row col).poisonRegister 0 i)) := by
  have hregister : isRegister 0 i = true := by simp [isRegister, hi]
  have hexec : exec (.uncorrectableError (.elementRegister row col 0 i)) s
      = .next (if isRegister 0 i then s.setElement row col ((s.element row col).poisonRegister 0 i) else s) := rfl
  rw [hexec, if_pos hregister]

theorem exec_uncorrectableError_granule (s : State) (row col : Nat) {i : Nat} (hi : i < 1536) :
    exec (.uncorrectableError (.granule row col i)) s = .next (s.setElement row col ((s.element row col).poisonGranule i)) :=
  congrArg Host.Outcome.next (if_pos hi)

/-- The hit of a wrapped key changes its slot alone. -/
theorem State.strikeKey_eq (s : State) (n : Nat) : ∃ keySlots, s.strikeKey n = { s with keySlots } := by
  unfold State.strikeKey
  dsimp only
  split
  · exact ⟨_, rfl⟩
  · exact ⟨_, rfl⟩

/-- The hit of a place of the trace ring changes the platform alone. -/
theorem State.strikeRing_eq (s : State) (i : Nat) : ∃ platform, s.strikeRing i = { s with platform } := ⟨_, rfl⟩

theorem State.broken_strikeKey {s : State} {n : Nat} (hlive : (s.keySlot n).live = true) :
    (s.keySlot n).epoch ∈ ((s.strikeKey n).keySlot n).broken := by
  unfold State.strikeKey
  dsimp only
  rw [hlive, Bool.true_and]
  by_cases hbroken : (s.keySlot n).broken.contains (s.keySlot n).epoch = true
  · rw [hbroken]
    exact List.contains_iff_mem.1 hbroken
  · rw [if_pos (by simpa using hbroken), State.keySlot, State.setKeySlot, Tab.get_set_same]
    exact List.mem_append_right _ (List.mem_singleton_self _)

/-- A unit that is hit is poisoned, and memory stands as it was. -/
theorem State.strikeUnit_spec (s : State) {u : Nat} (hhome : homeOf (64 * u) ≠ none) :
    u ∈ (s.strikeUnit u).poisonedUnits ∧ (s.strikeUnit u).memory = s.memory := by
  unfold State.strikeUnit
  split
  case isTrue hclosed =>
    rw [Option.isNone_eq_false_iff.2 (Option.isSome_iff_ne_none.2 hhome), Bool.or_false] at hclosed
    exact ⟨List.contains_iff_mem.1 hclosed, rfl⟩
  case isFalse =>
    extract_lets v
    have hv : u ∈ v.poisonedUnits := List.mem_append_right _ (List.mem_singleton_self u)
    split
    · obtain ⟨keySlots, hstrike⟩ := v.strikeKey_eq ‹_›
      rw [hstrike]
      exact ⟨hv, rfl⟩
    · exact ⟨hv, rfl⟩
    · exact ⟨hv, rfl⟩

/-! ### What a signature runs on: planes, its logic, its image (R368, R386) -/

/-- A report changes neither signatures nor folios. -/
theorem State.report_keeps_places (s : State) (vif : Nat) (f : FaultInfo) :
    (s.report vif f).sigs = s.sigs ∧ (s.report vif f).folios = s.folios := by
  have hplaces : s.report vif f = (s.report vif f).withPlaces s.sigs s.folios :=
    congrArg Prod.fst (s.recordFault_withPlaces s.sigs s.folios vif f)
  exact ⟨(congrArg State.sigs hplaces).trans rfl, (congrArg State.folios hplaces).trans rfl⟩

theorem State.folio_report (s : State) (vif : Nat) (f : FaultInfo) (row col : Nat) : (s.report vif f).folio row col = s.folio row col := by
  rw [State.folio, (s.report_keeps_places vif f).2, ← State.folio]

theorem State.sig_report (s : State) (vif : Nat) (f : FaultInfo) (n : Nat) : (s.report vif f).sig n = s.sig n := by
  rw [State.sig, (s.report_keeps_places vif f).1, ← State.sig]

theorem State.loadEnded_of_idle {s : State} {row col : Nat} (h : (s.folio row col).placed = 0) : s.loadEnded row col = s := if_pos h

/-- A load that fails in a folio where nothing is placed leaves its plane INVALID. -/
theorem State.plane_loadFailed_of_idle {s : State} {folio : Nat} (plane : Nat) (h : (s.folio (folio / 24) (folio % 24)).placed = 0) :
    (((s.loadFailed folio plane).folio (folio / 24) (folio % 24)).plane plane).state = .invalid := by
  unfold State.loadFailed
  extract_lets row col f p invalid v w journal t g
  have hfolio : t.folio row col = f.setPlane plane { Plane.invalid with activated := p.activated } :=
    (State.folio_report ..).trans (State.folio_setFolio ..)
  have hplaced : f.placed = 0 := h
  have hidle : (t.folio row col).placed = 0 := by rw [hfolio, Folio.setPlane, hplaced]
  have hclosed : decide (f.placed ≠ 0) = false := decide_eq_false (not_not.2 hplaced)
  rw [hclosed, Bool.false_and, Bool.false_and, Bool.false_and, Bool.false_and, if_neg Bool.false_ne_true,
    State.loadEnded_of_idle hidle, hfolio, Folio.plane, Folio.setPlane, Tab.get_set_same]
  rfl

theorem State.sig_endByFault (s : State) (sig : Nat) :
    ((s.endByFault sig).sig sig).status = .draining ∧ ((s.endByFault sig).sig sig).byFault = true := by
  rw [State.endByFault, State.beginEnd, State.sig_setSig]
  exact ⟨rfl, rfl⟩

theorem State.sig_signatureError {s : State} {sig : Nat} (h : s.onFabric sig = true) :
    ((s.signatureError sig).sig sig).status = .draining ∧ ((s.signatureError sig).sig sig).byFault = true := by
  unfold State.signatureError
  rw [h, if_neg (by decide)]
  exact State.sig_endByFault _ sig

/-! ### A placement that is taken back (R386) -/

theorem State.foldl_setFolio_eq {α : Type} (s : State) (l : List α) (row col : α → Nat) (f : State → α → Folio) :
    ∃ folios, l.foldl (fun u x => u.setFolio (row x) (col x) (f u x)) s = { s with folios } :=
  List.foldlRecOn (motive := fun u : State => ∃ folios, u = { s with folios }) l _ ⟨_, rfl⟩ fun u hu x _ => by
    obtain ⟨folios, rfl⟩ := hu
    exact ⟨_, rfl⟩

theorem State.releaseStart_eq (s : State) (n : Nat) :
    ∃ folios, s.releaseStart n = ({ s with folios } : State).setSig n { s.sig n with status := .saved, sweep := 0 } := by
  obtain ⟨folios, h⟩ := s.foldl_setFolio_eq (s.sig n).folios Prod.fst Prod.snd
    fun u rc => { u.folio rc.1 rc.2 with placed := 0, idleFor := 0, swept := false }
  exact ⟨folios, by rw [State.releaseStart, h]⟩

theorem State.sig_eraseSig_other (s : State) {n m : Nat} (h : m ≠ n) :
    ({ s with sigs := s.sigs.filter fun x => x.1 != n } : State).sig m = s.sig m := by
  have herase : (s.sigs.filter fun x => x.1 != n) = Tab.erase n s.sigs := by
    rw [Tab.erase_eq_filter]
    exact List.filter_congr fun x _ => by rw [Bool.eq_iff_iff, bne_iff_ne, decide_eq_true_iff]
  rw [State.sig, herase, Tab.get_erase_other h, ← State.sig]

theorem State.unplaceOne_other (s : State) {n m : Nat} (h : m ≠ n) : (s.unplaceOne n).sig m = s.sig m ∧ (s.unplaceOne n).memory = s.memory := by
  obtain ⟨folios, hrelease⟩ := s.releaseStart_eq n
  have hsig (g : Sig) : (({ s with folios } : State).setSig n g).sig m = s.sig m := State.sig_setSig_other _ g h
  unfold State.unplaceOne
  dsimp only
  rw [hrelease]
  split
  · exact ⟨(State.sig_eraseSig_other _ h).trans (hsig _), rfl⟩
  · exact ⟨hsig _, rfl⟩

/-- A signature that is restored goes back to its image. -/
theorem State.unplaceOne_restored {s : State} {n : Nat} (h : (s.sig n).image ≠ []) :
    (s.unplaceOne n).sig n = { s.sig n with status := .saved, sweep := 0 } ∧ (s.unplaceOne n).memory = s.memory := by
  obtain ⟨folios, hrelease⟩ := s.releaseStart_eq n
  unfold State.unplaceOne
  dsimp only
  rw [hrelease, if_neg (mt List.isEmpty_iff.1 h)]
  exact ⟨State.sig_setSig .., rfl⟩

/-- Of the signatures that are taken back one after the other, one with an image keeps it, and is saved again. -/
theorem State.foldr_unplaceOne_spec {s : State} {sig : Nat} (himage : (s.sig sig).image ≠ []) (l : List Nat) :
    let t := l.foldr (fun n u => u.unplaceOne n) s
    (t.sig sig).image = (s.sig sig).image ∧ t.memory = s.memory ∧ (sig ∈ l → (t.sig sig).status = .saved) := by
  induction l with
  | nil => exact ⟨rfl, rfl, fun h => absurd h List.not_mem_nil⟩
  | cons n l ih =>
    obtain ⟨ihimage, ihmemory, ihstatus⟩ := ih
    rw [List.foldr_cons]
    generalize l.foldr (fun n u => u.unplaceOne n) s = u at ihimage ihmemory ihstatus ⊢
    by_cases hn : sig = n
    · subst hn
      obtain ⟨hsig, hmemory⟩ := State.unplaceOne_restored (s := u) (n := sig) (ihimage ▸ himage)
      dsimp only
      rw [hsig]
      exact ⟨ihimage, hmemory.trans ihmemory, fun _ => rfl⟩
    · obtain ⟨hsig, hmemory⟩ := u.unplaceOne_other hn
      dsimp only
      rw [hsig]
      exact ⟨ihimage, hmemory.trans ihmemory, fun h => ihstatus (List.mem_of_ne_of_mem hn h)⟩

/-- A table lists a number whose entry is not the default. -/
theorem Tab.mem_keys_of_get_ne {α : Type} {d : α} {t : Tab α} {k : Nat} (h : Tab.get d t k ≠ d) : k ∈ t.map (·.1) := by
  by_contra hk
  exact h (by rw [← Tab.erase_of_not_mem hk, Tab.get_erase_same])

theorem State.mem_startingGang {s : State} {sig : Nat} (h : (s.sig sig).status = .starting) : sig ∈ s.startingGang sig := by
  refine List.mem_filter.2 ⟨?_, beq_iff_eq.2 h⟩
  unfold State.gangOf
  split
  · exact List.mem_singleton_self sig
  · refine List.mem_filter.2 ⟨Tab.mem_keys_of_get_ne fun hunused : s.sig sig = Sig.unused => ?_, beq_self_eq_true _⟩
    rw [hunused] at h
    cases h

theorem State.unplace_spec {s : State} {sig : Nat} (hstatus : (s.sig sig).status = .starting) (himage : (s.sig sig).image ≠ []) :
    ((s.unplace sig).sig sig).status = .saved ∧ ((s.unplace sig).sig sig).image = (s.sig sig).image ∧ (s.unplace sig).memory = s.memory := by
  obtain ⟨hkept, hmemory, hsaved⟩ := State.foldr_unplaceOne_spec himage (s.startingGang sig)
  exact ⟨hsaved (State.mem_startingGang hstatus), hkept, hmemory⟩

theorem exec_uncorrectableError_savedImage {s : State} {sig : Nat} (hstatus : (s.sig sig).status = .starting) (himage : (s.sig sig).image ≠ []) :
    exec (.uncorrectableError (.savedImage sig)) s = .next (s.unplace sig) := by
  have hexec : exec (.uncorrectableError (.savedImage sig)) s
      = .next (if (s.sig sig).status == .starting && !(s.sig sig).image.isEmpty then s.unplace sig else s) := rfl
  rw [hexec, if_pos (by simpa [hstatus] using himage)]

/-! ### Caches (R368, class 9) -/

/-- Where no read-ahead holds a unit, the edge TLB and the key caches are what an error of class 9 can strike. -/
theorem State.cachedEntries_of_no_units {s : State}
    (h : ∀ n ∈ s.placedSigs, (s.spineOf n).readAhead = [] ∧ ∀ x ∈ (s.sig n).ctxs, x.2.kind = .stream → x.2.units = []) :
    s.cachedEntries = (List.range s.tlb.length).map .tlb ++ (List.range s.keyCache.length).map .key := by
  have hspine : (s.placedSigs.flatMap fun n => (s.spineOf n).readAhead.map fun e => CachedEntry.spine n e.unit) = [] :=
    List.flatMap_eq_nil_iff.2 fun n hn => by rw [(h n hn).1, List.map_nil]
  have hstream : (s.placedSigs.flatMap fun n =>
      ((s.sig n).ctxs.filter (·.2.kind = .stream)).flatMap fun x => x.2.units.map fun u => CachedEntry.stream n x.1 u.1) = [] :=
    List.flatMap_eq_nil_iff.2 fun n hn => List.flatMap_eq_nil_iff.2 fun x hx => by
      obtain ⟨hx, hkind⟩ := List.mem_filter.1 hx
      rw [(h n hn).2 x hx (of_decide_eq_true hkind), List.map_nil]
  rw [State.cachedEntries, hspine, hstream, List.append_nil, List.append_nil]

/-- A choice among the entries of a list that is not empty is one of them. -/
theorem getElem?_mod_max_length {α : Type} {l : List α} (k : Nat) (h : l ≠ []) : ∃ x, l[k % max 1 l.length]? = some x := by
  have hpos := List.length_pos_iff.2 h
  have hlt : k % max 1 l.length < l.length := by
    rw [max_eq_right hpos]
    exact Nat.mod_lt _ hpos
  exact ⟨_, List.getElem?_eq_getElem hlt⟩

theorem State.dropCached_spec {s : State} (hentries : s.cachedEntries = (List.range s.tlb.length).map .tlb ++ (List.range s.keyCache.length).map .key)
    (h : s.tlb ≠ [] ∨ s.keyCache ≠ []) :
    s.dropCached.tlb.length + s.dropCached.keyCache.length + 1 = s.tlb.length + s.keyCache.length ∧ s.dropCached.memory = s.memory := by
  have hne : s.cachedEntries ≠ [] := by
    rw [hentries]
    simpa [List.range_eq_nil, imp_iff_not_or] using h
  obtain ⟨x, hx⟩ := getElem?_mod_max_length (Config.choice s.free) hne
  unfold State.dropCached
  extract_lets all s'
  rw [show all[Config.choice s.free % max 1 all.length]? = some x from hx]
  have hmem : x ∈ s.cachedEntries := List.mem_of_getElem? hx
  rw [hentries, List.mem_append, List.mem_map, List.mem_map] at hmem
  rcases hmem with ⟨j, hj, rfl⟩ | ⟨j, hj, rfl⟩
  · refine ⟨?_, rfl⟩
    rw [Nat.add_right_comm]
    exact congrArg (· + s.keyCache.length) (List.length_eraseIdx_add_one (List.mem_range.1 hj))
  · refine ⟨?_, rfl⟩
    rw [Nat.add_assoc]
    exact congrArg (s.tlb.length + ·) (List.length_eraseIdx_add_one (List.mem_range.1 hj))

/-! ### Trace records (R315, R318, R368) -/

/-- The fields of a record below and above its SEQ do not change with it. -/
theorem traceEvent_withSeq (r : TraceRecord) (n : Nat) : traceEvent (withSeq r n) = traceEvent r := by
  refine congrArg BitVec.toNat (BitVec.eq_of_getElem_eq fun i hi => ?_)
  have hbelow : 64 + i < 176 := by omega
  have hin : 64 + i < 256 := by omega
  simp only [withSeq, BitVec.getElem_extractLsb', BitVec.getLsbD_or, BitVec.getLsbD_and, BitVec.getLsbD_not, BitVec.getLsbD_shiftLeft, hbelow]
  simp [hin]

theorem getLsbD_seqMask_above (i : Nat) : (0xFFFF#256).getLsbD (16 + i) = false := by
  rw [BitVec.getLsbD_ofNat, show 0xFFFF = 2 ^ 16 - 1 from rfl, Nat.testBit_two_pow_sub_one,
    decide_eq_false (show ¬16 + i < 16 by omega), Bool.and_false]

theorem getLsbD_seq_above (n i : Nat) : (BitVec.ofNat 256 (n % 2 ^ 16)).getLsbD (16 + i) = false := by
  rw [BitVec.getLsbD_ofNat, Nat.testBit_mod_two_pow, decide_eq_false (show ¬16 + i < 16 by omega), Bool.false_and, Bool.and_false]

theorem tracePayload_withSeq (r : TraceRecord) (n : Nat) : tracePayload (withSeq r n) = tracePayload r := by
  refine congrArg BitVec.toNat (BitVec.eq_of_getElem_eq fun i hi => ?_)
  have habove : 192 + i - 176 = 16 + i := by omega
  have hin : 192 + i < 256 := by omega
  simp only [withSeq, BitVec.getElem_extractLsb', BitVec.getLsbD_or, BitVec.getLsbD_and, BitVec.getLsbD_not, BitVec.getLsbD_shiftLeft, habove,
    getLsbD_seqMask_above, getLsbD_seq_above]
  simp [hin]

/-- A gap record as it is made: its regions are none. -/
theorem toNat_traceRecord_gap (ns place n : Nat) (unsync : Bool) :
    (traceRecord ns unsync 0 0 place [] 0xFF 3 n).toNat
      = ns % 2 ^ 64 + 0xFF * 2 ^ 64 + 3 * 2 ^ 80 + (if unsync then 2 ^ 82 else 0) + place % 2 ^ 16 * 2 ^ 112 + n % 2 ^ 64 * 2 ^ 192 := by
  simp only [traceRecord, List.getD_nil, BitVec.toNat_ofNat]
  cases unsync <;> simp <;> omega

theorem traceEvent_struckGap (r : TraceRecord) (place : Nat) (unsync : Bool) (seq : Nat) : traceEvent (struckGap r place unsync seq) = 0xFF := by
  rw [struckGap, traceEvent_withSeq, traceEvent, BitVec.extractLsb'_toNat, toNat_traceRecord_gap, Nat.shiftRight_eq_div_pow]
  cases unsync <;> simp <;> omega

theorem tracePayload_struckGap (r : TraceRecord) (place : Nat) (unsync : Bool) (seq : Nat) :
    tracePayload (struckGap r place unsync seq) = dropCount r % 2 ^ 64 := by
  rw [struckGap, tracePayload_withSeq, tracePayload, BitVec.extractLsb'_toNat, toNat_traceRecord_gap, Nat.shiftRight_eq_div_pow]
  cases unsync <;> simp <;> omega

/-- Where staging areas and ring are empty, the records of the die's buffer are what an error of class 10 can strike. -/
theorem State.traceRecords_of_buffered {s : State} {die : Nat} (hring : s.platform.ring = [])
    (hstaged : ∀ k < 32, (s.folio (dieFolio die k).1 (dieFolio die k).2).staging.records = []) :
    s.traceRecords die = (List.range (s.dieBuffers.get DieBuffer.zero die).area.records.length).map fun i => (32, i) := by
  unfold State.traceRecords
  extract_lets places
  have hfolios : ((List.range 32).flatMap fun k => places k (s.folio (dieFolio die k).1 (dieFolio die k).2).staging.records.length) = [] :=
    List.flatMap_eq_nil_iff.2 fun k hk => by rw [hstaged k (List.mem_range.1 hk)]; rfl
  rw [hfolios, hring]
  exact List.append_nil _

/-- Without a run, a record that is struck leaves a gap record behind the others. -/
theorem TraceArea.records_strike_of_no_gap {a : TraceArea} (i place : Nat) (unsync : Bool) (h : a.gap = none) :
    (a.strike i place unsync).records = a.records.eraseIdx i ++ [struckGap (a.records.getD i 0) place unsync a.inserted] := by
  have hrun : a.run place = none := by rw [TraceArea.run, h, Option.filter_none]
  unfold TraceArea.strike
  dsimp only
  rw [hrun]

/-- An error of class 10 in the buffer of a die. -/
theorem State.dropTrace_spec {s : State} {die : Nat} (hring : s.platform.ring = [])
    (hstaged : ∀ k < 32, (s.folio (dieFolio die k).1 (dieFolio die k).2).staging.records = [])
    (hrecords : (s.dieBuffers.get DieBuffer.zero die).area.records ≠ []) (hgap : (s.dieBuffers.get DieBuffer.zero die).area.gap = none) :
    let a := (s.dieBuffers.get DieBuffer.zero die).area
    ∃ i r g, a.records[i]? = some r
      ∧ ((s.dropTrace die).dieBuffers.get DieBuffer.zero die).area.records = a.records.eraseIdx i ++ [g] ∧ traceEvent g = 0xFF
      ∧ tracePayload g = dropCount r % 2 ^ 64 ∧ (s.dropTrace die).memory = s.memory := by
  intro a
  have hall : s.traceRecords die = (List.range a.records.length).map fun i => (32, i) := State.traceRecords_of_buffered hring hstaged
  have hne : s.traceRecords die ≠ [] := by
    rw [hall]
    simpa [List.range_eq_nil] using hrecords
  obtain ⟨x, hx⟩ := getElem?_mod_max_length (Config.choice s.free) hne
  obtain ⟨i, hi, rfl⟩ := List.mem_map.1 (hall ▸ List.mem_of_getElem? hx)
  have hlt := List.mem_range.1 hi
  have hdrop : s.dropTrace die = { s with
      free := s.free + 1
      dieBuffers := s.dieBuffers.set DieBuffer.zero die
        { s.dieBuffers.get DieBuffer.zero die with area := a.strike i 0xFFFF (!s.clock.synced) } } := by
    unfold State.dropTrace
    dsimp only
    rw [hx]
    rfl
  refine ⟨i, a.records[i], struckGap (a.records.getD i 0) 0xFFFF (!s.clock.synced) a.inserted, List.getElem?_eq_getElem hlt, ?_,
    traceEvent_struckGap .., ?_, by rw [hdrop]⟩
  · rw [hdrop, Tab.get_set_same]
    exact TraceArea.records_strike_of_no_gap i 0xFFFF (!s.clock.synced) hgap
  · rw [tracePayload_struckGap, List.getD_eq_getElem _ _ hlt]

/-! ### The obligation -/

/-- Settles O53: the world key's operations, and the errors place by place. -/
theorem keysAndErrors : Obligations.KeysAndErrors := by
  unfold Obligations.KeysAndErrors
  refine ⟨fun s vif => ⟨exec_worldKeyCreate_of_none, ?unused, ?used⟩,
    fun s => ⟨fun row col i => ⟨?register, ?granule⟩, ?unit, ?wrapped, ?plane, ?logic, ?cache, ?trace, ?image⟩⟩
  case unused =>
    intro hunused
    rw [exec_worldKeyDestroy, hunused]
    rfl
  case used =>
    intro hused
    rw [exec_worldKeyDestroy, hused]
    rfl
  case register =>
    intro hi
    refine ⟨_, exec_uncorrectableError_vector s row col hi, ?_, rfl⟩
    rw [State.element_setElement]
    exact Tab.get_set_same ..
  case granule =>
    intro hi
    refine ⟨_, exec_uncorrectableError_granule s row col hi, ?_, rfl⟩
    rw [State.element_setElement]
    exact Tab.get_set_same ..
  case unit => exact fun u hhome => ⟨_, rfl, s.strikeUnit_spec hhome⟩
  case wrapped =>
    intro n hlive
    obtain ⟨keySlots, hstrike⟩ := s.strikeKey_eq n
    exact ⟨_, rfl, State.broken_strikeKey hlive, by rw [hstrike]⟩
  case plane =>
    intro folio plane f hidle hloading
    exact ⟨_, congrArg Host.Outcome.next (if_pos (beq_iff_eq.2 hloading)), State.plane_loadFailed_of_idle plane hidle⟩
  case logic => exact fun sig hplaced => ⟨_, rfl, State.sig_signatureError hplaced⟩
  case cache => exact fun hunits hentries => ⟨_, rfl, State.dropCached_spec (State.cachedEntries_of_no_units hunits) hentries⟩
  case trace =>
    intro die a hrecords hgap hring hstaged
    obtain ⟨i, r, g, hdropped⟩ := State.dropTrace_spec hring hstaged hrecords hgap
    exact ⟨_, i, r, g, rfl, hdropped⟩
  case image =>
    intro sig hstatus himage
    exact ⟨_, exec_uncorrectableError_savedImage hstatus himage, State.unplace_spec hstatus himage⟩

end Sys2Proof.Machine

/-!
PROOFS. Requests: walks (R73), unwraps (R90), what each operation does at its home (R83, R89, R97, R181, R182) and replies (R86, R89).
-/

namespace Sys2Proof.Machine

/-! ### Memory units -/

theorem Memory.readNat_of_bytes {m : Memory} {a n data : Nat} (h : ∀ k < n, m.read (a + k) = BitVec.ofNat 8 (data / 256 ^ k)) :
    m.readNat a n = data % 256 ^ n := by
  induction n generalizing a data with
  | zero => rw [Memory.readNat, Nat.pow_zero, Nat.mod_one]
  | succ n ih =>
    have hhead : m.read a = BitVec.ofNat 8 data := by simpa using h 0 n.succ_pos
    have htail : m.readNat (a + 1) n = data / 256 % 256 ^ n := ih fun k hk => by
      rw [Nat.add_assoc, Nat.add_comm 1, h (k + 1) (by omega), Nat.div_div_eq_div_mul, Nat.pow_succ']
    rw [Memory.readNat, hhead, htail, BitVec.toNat_ofNat, show 256 ^ (n + 1) = 256 * 256 ^ n from Nat.pow_succ', Nat.mod_mul]

/-- A unit that was stored reads as it was stored. -/
theorem Memory.unit_setUnit {m : Memory} (u : Nat) (v : Vec) (h : m.wf = true) : (m.setUnit u v).unit u = v := by
  have hread : (m.setUnit u v).readNat (64 * u) 64 = v.toNat % (2 ^ 8) ^ 64 := Memory.readNat_of_bytes fun k hk => by
    rw [Memory.setUnit, Memory.read_writeNat_inside _ _ _ h hk, Nat.testBit_two_pow_sub_one, if_pos (decide_eq_true hk)]
  have hfits : v.toNat < (2 ^ 8) ^ 64 := by
    rw [← Nat.pow_mul, show 8 * 64 = 512 from rfl]
    exact v.isLt
  rw [Memory.unit, hread, Nat.mod_eq_of_lt hfits, BitVec.ofNat_toNat, BitVec.setWidth_eq]

/-- A store of a unit leaves the bytes of every other unit. -/
theorem Memory.read_setUnit_other (m : Memory) {u a : Nat} (v : Vec) (h : a / 64 ≠ u) : (m.setUnit u v).read a = m.read a :=
  Memory.read_writeNat_outside _ _ (by omega)

/-! ### A field of a unit's bytes -/

/-- The n bits of a unit from a byte on. -/
def unitField (x : Vec) (at_ n : Nat) : Nat := x.toNat / 2 ^ (8 * at_) % 2 ^ n

/-- The mask of these bits, as an atomic makes it. -/
def fieldMask (at_ n : Nat) : Vec := BitVec.ofNat 512 ((2 ^ n - 1) * 2 ^ (8 * at_))

/-- A unit is another one with the n bits from a byte on changed to a value. -/
def FieldChanged (old x : Vec) (at_ n value : Nat) : Prop :=
  unitField x at_ n = value ∧ ∀ i < 512, i < 8 * at_ ∨ 8 * at_ + n ≤ i → x.getLsbD i = old.getLsbD i

theorem getLsbD_fieldMask (at_ n i : Nat) :
    (fieldMask at_ n).getLsbD i = (decide (i < 512) && (decide (8 * at_ ≤ i) && decide (i - 8 * at_ < n))) := by
  rw [fieldMask, BitVec.getLsbD_ofNat, Nat.testBit_mul_two_pow, Nat.testBit_two_pow_sub_one]

theorem testBit_unitField (x : Vec) (at_ n j : Nat) : (unitField x at_ n).testBit j = (decide (j < n) && x.getLsbD (8 * at_ + j)) := by
  rw [unitField, Nat.testBit_mod_two_pow, Nat.testBit_div_two_pow, BitVec.testBit_toNat, Nat.add_comm j]

/-- Merging a field of x into a unit changes the field to that of x. -/
theorem fieldChanged_merge (old x : Vec) {at_ n : Nat} (h : 8 * at_ + n ≤ 512) :
    FieldChanged old ((old &&& ~~~fieldMask at_ n) ||| (x &&& fieldMask at_ n)) at_ n (unitField x at_ n) := by
  refine ⟨Nat.eq_of_testBit_eq fun j => ?_, fun i hi hout => ?_⟩
  · rw [testBit_unitField, testBit_unitField]
    by_cases hj : j < n
    · have hmask : (fieldMask at_ n).getLsbD (8 * at_ + j) = true := by
        rw [getLsbD_fieldMask]
        simp
        omega
      rw [BitVec.getLsbD_or, BitVec.getLsbD_and, BitVec.getLsbD_and, BitVec.getLsbD_not, hmask, Bool.not_true, Bool.and_false, Bool.and_false,
        Bool.false_or, Bool.and_true]
    · rw [decide_eq_false hj, Bool.false_and, Bool.false_and]
  · have hmask : (fieldMask at_ n).getLsbD i = false := by
      rw [getLsbD_fieldMask]
      simp
      omega
    rw [BitVec.getLsbD_or, BitVec.getLsbD_and, BitVec.getLsbD_and, BitVec.getLsbD_not, hmask, Bool.not_false, Bool.and_true, Bool.and_false,
      Bool.or_false, decide_eq_true hi, Bool.and_true]

/-- A value placed at its field. -/
theorem unitField_placed {value at_ n : Nat} (hvalue : value < 2 ^ n) (h : 8 * at_ + n ≤ 512) :
    unitField (BitVec.ofNat 512 (value * 2 ^ (8 * at_))) at_ n = value := by
  have hplaced : value * 2 ^ (8 * at_) < 2 ^ (n + 8 * at_) := by
    rw [Nat.pow_add]
    exact Nat.mul_lt_mul_of_pos_right hvalue (Nat.two_pow_pos _)
  have hfits := lt_of_lt_of_le hplaced (Nat.pow_le_pow_right Nat.two_pos (show n + 8 * at_ ≤ 512 by omega))
  rw [unitField, BitVec.toNat_ofNat, Nat.mod_eq_of_lt hfits, Nat.mul_div_cancel _ (Nat.two_pow_pos _), Nat.mod_eq_of_lt hvalue]

/-! ### Atomic results (R97) -/

theorem FloatFormat.pack_lt (F : FloatFormat) (neg : Bool) {mag : Nat} (h : mag < 2 ^ (F.ebits + F.mbits)) :
    F.pack neg mag < 2 ^ (F.ebits + F.mbits + 1 + F.low) := by
  have hsigned : (if neg then 2 ^ (F.ebits + F.mbits) else 0) + mag < 2 ^ (F.ebits + F.mbits + 1) := by
    rw [Nat.pow_succ]
    cases neg
    · rw [if_neg Bool.false_ne_true]
      omega
    · rw [if_pos rfl]
      omega
  rw [FloatFormat.pack, Nat.pow_add 2 _ F.low]
  exact Nat.mul_lt_mul_of_pos_right hsigned (Nat.two_pow_pos _)

section Ieee

variable {F : FloatFormat}

/-- A format with infinities has room above its largest number. -/
theorem FloatFormat.topExponent_lt : (2 ^ F.ebits - 1) * 2 ^ F.mbits < 2 ^ (F.ebits + F.mbits) := by
  rw [Nat.pow_add]
  exact Nat.mul_lt_mul_of_pos_right (Nat.sub_lt (Nat.two_pow_pos _) Nat.one_pos) (Nat.two_pow_pos _)

theorem FloatFormat.infinity_lt (neg : Bool) : F.infinity neg < 2 ^ (F.ebits + F.mbits + 1 + F.low) := F.pack_lt neg F.topExponent_lt

variable (hieee : F.kind = .ieee)

include hieee

theorem FloatFormat.largest_lt : F.largest < 2 ^ (F.ebits + F.mbits) := by
  rw [FloatFormat.largest, hieee]
  exact lt_of_le_of_lt (Nat.sub_le _ _) F.topExponent_lt

theorem FloatFormat.canonicalNan_lt (hmbits : 0 < F.mbits) : F.canonicalNan < 2 ^ (F.ebits + F.mbits + 1 + F.low) := by
  have hquiet : 2 ^ (F.mbits - 1) < 2 ^ F.mbits := Nat.pow_lt_pow_right Nat.one_lt_two (by omega)
  have hmag : (2 ^ F.ebits - 1) * 2 ^ F.mbits + 2 ^ (F.mbits - 1) < 2 ^ (F.ebits + F.mbits) := by
    rw [Nat.pow_add, Nat.sub_mul, Nat.one_mul]
    have := Nat.le_mul_of_pos_left (2 ^ F.mbits) (Nat.two_pow_pos F.ebits)
    omega
  have hnan : F.canonicalNan = F.pack false ((2 ^ F.ebits - 1) * 2 ^ F.mbits + 2 ^ (F.mbits - 1)) := by
    rw [FloatFormat.canonicalNan, hieee, FloatFormat.pack, if_neg Bool.false_ne_true, Nat.zero_add]
  rw [hnan]
  exact F.pack_lt false hmag

theorem FloatFormat.overflow_lt (r : Rounding) (neg : Bool) : F.overflow r neg < 2 ^ (F.ebits + F.mbits + 1 + F.low) := by
  rw [FloatFormat.overflow, hieee]
  dsimp only
  split
  · exact F.infinity_lt neg
  · exact F.pack_lt neg (FloatFormat.largest_lt hieee)

theorem FloatFormat.round_lt (r : Rounding) (neg : Bool) (m : Nat) (e : Int) : F.round r neg m e < 2 ^ (F.ebits + F.mbits + 1 + F.low) := by
  unfold FloatFormat.round
  split
  · exact F.pack_lt neg (Nat.two_pow_pos _)
  extract_lets q n mag
  split
  · exact FloatFormat.overflow_lt hieee r neg
  · exact F.pack_lt neg (lt_of_le_of_lt (Nat.not_lt.1 ‹_›) (FloatFormat.largest_lt hieee))

/-- A value converted to a format with infinities fits the lane. -/
theorem FloatFormat.convert_lt (hmbits : 0 < F.mbits) (r : Rounding) (x : FVal) : F.convert r x < 2 ^ (F.ebits + F.mbits + 1 + F.low) := by
  cases x with
  | nan => exact FloatFormat.canonicalNan_lt hieee hmbits
  | inf neg =>
    rw [FloatFormat.convert, FloatFormat.ofInf, hieee]
    exact F.infinity_lt neg
  | num neg m e => exact FloatFormat.round_lt hieee r neg m e

end Ieee

theorem atomicFloatAdd_fp32_lt (a b : Nat) : atomicFloatAdd fp32 a b < 2 ^ 32 := FloatFormat.convert_lt (F := floatFormat fp32) rfl (by decide) _ _

theorem atomicFloatAdd_bf16_lt (a b : Nat) : atomicFloatAdd bf16 a b < 2 ^ 16 := FloatFormat.convert_lt (F := floatFormat bf16) rfl (by decide) _ _

/-- The results of the atomic operations, listed by their codes. -/
theorem atomicResult_eq {aop : Nat} (h : aop < 12) (w old x cmp : Nat) : atomicResult aop w old x cmp = (atomicResults w old x cmp)[aop]! := by
  interval_cases aop <;> rfl

/-- The result of an atomic fits its width; the floating ones are of 32 bits. -/
theorem atomicResult_lt {aop w old x : Nat} (cmp : Nat) (haop : aop < 12) (hw : w = 32 ∨ aop < 10) (hold : old < 2 ^ w) (hx : x < 2 ^ w) :
    atomicResult aop w old x cmp < 2 ^ w := by
  have hsome (p : Prop) [Decidable p] {a b : Nat} (ha : a < 2 ^ w) (hb : b < 2 ^ w) : (if p then a else b) < 2 ^ w := by split <;> assumption
  match aop, haop with
  | 0, _ => exact Nat.mod_lt _ (Nat.two_pow_pos w)
  | 1, _ => exact Nat.and_lt_two_pow _ hx
  | 2, _ => exact Nat.or_lt_two_pow hold hx
  | 3, _ => exact Nat.xor_lt_two_pow hold hx
  | 4, _ => exact hsome _ hold hx
  | 5, _ => exact hsome _ hx hold
  | 6, _ => exact lt_of_le_of_lt (Nat.min_le_left _ _) hold
  | 7, _ => exact Nat.max_lt.2 ⟨hold, hx⟩
  | 8, _ => exact hx
  | 9, _ => exact hsome _ hx hold
  | 10, _ =>
    obtain rfl : w = 32 := hw.resolve_right (by omega)
    exact atomicFloatAdd_fp32_lt old x
  | 11, _ =>
    obtain rfl : w = 32 := hw.resolve_right (by omega)
    have hlow := atomicFloatAdd_bf16_lt (old % 2 ^ 16) (x % 2 ^ 16)
    have hhigh := atomicFloatAdd_bf16_lt (old / 2 ^ 16) (x / 2 ^ 16)
    change atomicFloatAdd bf16 (old % 2 ^ 16) (x % 2 ^ 16) + atomicFloatAdd bf16 (old / 2 ^ 16) (x / 2 ^ 16) * 2 ^ 16 < 2 ^ 32
    omega

/-- An atomic changes its word alone, to the result of its operation, and answers with the word as it was. -/
theorem atomicUnit_spec {aop off : Nat} {wide : Bool} (u : Vec) (x cmp : Word) (haop : aop < 12) (hwide : wide = false ∨ aop < 10) :
    let n := if wide then 64 else 32
    let old := unitField u off n
    8 * off + n ≤ 512 →
      FieldChanged u (atomicUnit u off aop wide x cmp).1 off n ((atomicResults n old (x.toNat % 2 ^ n) (cmp.toNat % 2 ^ n))[aop]!)
        ∧ (atomicUnit u off aop wide x cmp).2 = BitVec.ofNat 64 old := by
  intro n old hfits
  have hn : n = 32 ∨ aop < 10 := hwide.imp_left fun h => by rw [show n = if wide then 64 else 32 from rfl, h]; rfl
  have hresult : atomicResult aop n old (x.toNat % 2 ^ n) (cmp.toNat % 2 ^ n) < 2 ^ n :=
    atomicResult_lt _ haop hn (Nat.mod_lt _ (Nat.two_pow_pos n)) (Nat.mod_lt _ (Nat.two_pow_pos n))
  have hchanged := fieldChanged_merge u (BitVec.ofNat 512 (atomicResult aop n old (x.toNat % 2 ^ n) (cmp.toNat % 2 ^ n) * 2 ^ (8 * off))) hfits
  rw [unitField_placed hresult hfits] at hchanged
  rw [← atomicResult_eq haop]
  exact ⟨hchanged, rfl⟩

/-! ### An arrival (R182) -/

theorem toNat_arriveWord (n : BitVec 32) (old : Word) :
    (arriveWord n old).toNat =
      if n.toNat ≤ old.toNat % 2 ^ 32 + 1 then (old.toNat / 2 ^ 32 + 1) % 2 ^ 32 * 2 ^ 32
      else old.toNat / 2 ^ 32 * 2 ^ 32 + (old.toNat % 2 ^ 32 + 1) % 2 ^ 32 := by
  have happend (x y : BitVec 32) : (x ++ y).toNat = x.toNat * 2 ^ 32 + y.toNat := by
    rw [BitVec.toNat_append, ← Nat.shiftLeft_add_eq_or_of_lt y.isLt, Nat.shiftLeft_eq]
  have harrived : (old.extractLsb' 0 32).toNat = old.toNat % 2 ^ 32 := by rw [BitVec.extractLsb'_toNat, Nat.shiftRight_zero]
  have hphase : (old.extractLsb' 32 32).toNat = old.toNat / 2 ^ 32 := by
    rw [BitVec.extractLsb'_toNat, Nat.shiftRight_eq_div_pow]
    have := old.isLt
    omega
  unfold arriveWord
  dsimp only
  rw [harrived]
  split
  · rw [happend, BitVec.toNat_add, hphase, show (1 : BitVec 32).toNat = 1 from rfl, show (0 : BitVec 32).toNat = 0 from rfl, Nat.add_zero]
  · rw [happend, BitVec.toNat_add, hphase, harrived, show (1 : BitVec 32).toNat = 1 from rfl]

/-- The halves of a field of 64 bits. -/
theorem unitField_halves (x : Vec) (at_ : Nat) :
    unitField x at_ 64 % 2 ^ 32 = unitField x at_ 32 ∧ unitField x at_ 64 / 2 ^ 32 = unitField x (at_ + 4) 32 := by
  have hupper : x.toNat / 2 ^ (8 * (at_ + 4)) = x.toNat / 2 ^ (8 * at_) / 2 ^ 32 := by rw [Nat.div_div_eq_div_mul, ← Nat.pow_add, Nat.mul_add]
  rw [unitField, unitField, unitField, hupper]
  omega

theorem toNat_extractLsb'_field (x : Vec) (at_ n : Nat) : (x.extractLsb' (8 * at_) n).toNat = unitField x at_ n := by
  rw [BitVec.extractLsb'_toNat, Nat.shiftRight_eq_div_pow, unitField]

/-- A value placed at its field has no bits outside it. -/
theorem placed_and_fieldMask {value at_ n : Nat} (hvalue : value < 2 ^ n) :
    BitVec.ofNat 512 (value * 2 ^ (8 * at_)) &&& fieldMask at_ n = BitVec.ofNat 512 (value * 2 ^ (8 * at_)) := by
  refine BitVec.eq_of_getLsbD_eq fun i hi => ?_
  rw [BitVec.getLsbD_and, getLsbD_fieldMask, BitVec.getLsbD_ofNat, Nat.testBit_mul_two_pow]
  by_cases hn : i - 8 * at_ < n
  · rw [decide_eq_true hn, decide_eq_true hi, Bool.and_true, Bool.true_and, Bool.true_and, Bool.and_right_comm, Bool.and_self]
  · rw [Nat.testBit_lt_two_pow (lt_of_lt_of_le hvalue (Nat.pow_le_pow_right Nat.two_pos (Nat.not_lt.1 hn))), Bool.and_false, Bool.and_false,
      Bool.false_and]

theorem setWidth_shiftLeft_eq (w : Word) (at_ : Nat) : w.setWidth 512 <<< (8 * at_) = BitVec.ofNat 512 (w.toNat * 2 ^ (8 * at_)) := by
  refine BitVec.eq_of_toNat_eq ?_
  rw [BitVec.toNat_shiftLeft, BitVec.toNat_setWidth_of_le (by decide), Nat.shiftLeft_eq, BitVec.toNat_ofNat]

/-- An arrival changes its barrier object alone. -/
theorem fieldChanged_arrive (u : Vec) {off : Nat} (n : BitVec 32) (h : off + 8 ≤ 64) :
    FieldChanged u ((u &&& ~~~fieldMask off 64) ||| ((arriveWord n (u.extractLsb' (8 * off) 64)).setWidth 512 <<< (8 * off))) off 64
      (if n.toNat ≤ unitField u off 32 + 1 then (unitField u (off + 4) 32 + 1) % 2 ^ 32 * 2 ^ 32
       else unitField u (off + 4) 32 * 2 ^ 32 + (unitField u off 32 + 1) % 2 ^ 32) := by
  obtain ⟨harrived, hphase⟩ := unitField_halves u off
  have hnew := toNat_arriveWord n (u.extractLsb' (8 * off) 64)
  rw [toNat_extractLsb'_field, harrived, hphase] at hnew
  have hlt := (arriveWord n (u.extractLsb' (8 * off) 64)).isLt
  have hchanged := fieldChanged_merge u (BitVec.ofNat 512 ((arriveWord n (u.extractLsb' (8 * off) 64)).toNat * 2 ^ (8 * off)))
    (show 8 * off + 64 ≤ 512 by omega)
  rw [placed_and_fieldMask hlt, unitField_placed hlt (by omega), ← setWidth_shiftLeft_eq, hnew] at hchanged
  exact hchanged

/-! ### The list of requests -/

theorem State.request_updateRequest {s : State} {r q : Request} (h : s.request r.id = some r) (hid : q.id = r.id) :
    (s.updateRequest q).request r.id = some q := by
  have hsame : ((fun x : Request => decide (x.id = r.id)) ∘ fun x => if x.id = q.id then q else x) = fun x => decide (x.id = r.id) := by
    funext x
    rw [Function.comp_apply, hid]
    split
    · rw [hid, decide_eq_true rfl, decide_eq_true ‹x.id = r.id›]
    · rfl
  rw [State.request] at h
  rw [State.request, State.updateRequest, List.find?_map, hsame, h, Option.map_some, if_pos hid.symm]

theorem State.request_dropRequest (s : State) (id : Nat) : (s.dropRequest id).request id = none :=
  List.find?_eq_none.2 fun r hr => by simpa using (List.mem_filter.1 hr).2

theorem State.memory_updateRequest (s : State) (q : Request) : (s.updateRequest q).memory = s.memory := rfl

theorem State.memory_dropRequest (s : State) (id : Nat) : (s.dropRequest id).memory = s.memory := rfl

theorem State.request_spend (s : State) (vif : Nat) (f : Activity → Activity) (id : Nat) : (s.spend vif f).request id = s.request id := rfl

theorem State.memory_spend (s : State) (vif : Nat) (f : Activity → Activity) : (s.spend vif f).memory = s.memory := rfl

/-! ### A store at its home (R89) -/

/-- A unit holds x under its key, and every other byte is as it was. -/
def State.UnitStored (s t : State) (k : Material) (pa unitVa : Nat) (x : Vec) : Prop :=
  t.memory.unit (pa / 64) = sealWith k unitVa x ∧ ∀ a, a / 64 ≠ pa / 64 → t.memory.read a = s.memory.read a

theorem State.unitStored_of_memory {s t : State} {k : Material} {pa unitVa : Nat} {x : Vec} (hw : s.memory.wf = true)
    (h : t.memory = s.memory.setUnit (pa / 64) (sealWith k unitVa x)) : s.UnitStored t k pa unitVa x := by
  rw [State.UnitStored, h]
  exact ⟨Memory.unit_setUnit _ _ hw, fun a ha => Memory.read_setUnit_other _ _ ha⟩

theorem State.memory_putUnit (s : State) (k : Material) (pa unitVa : Nat) (data mask : Vec) :
    (s.putUnit k pa unitVa data mask).memory
      = s.memory.setUnit (pa / 64) (sealWith k unitVa ((openWith k unitVa (s.memory.unit (pa / 64)) &&& ~~~mask) ||| (data &&& mask))) := by
  by_cases h : mask = -1
  · subst h
    have hones : (-1 : Vec) = BitVec.allOnes 512 := BitVec.neg_one_eq_allOnes
    have hall : (openWith k unitVa (s.memory.unit (pa / 64)) &&& ~~~(-1 : Vec)) ||| (data &&& -1) = data := by
      rw [hones, BitVec.not_allOnes, BitVec.and_zero, BitVec.zero_or, BitVec.and_allOnes]
    rw [hall, State.putUnit, if_pos rfl]
  · rw [State.putUnit, if_neg h]

theorem State.memory_putUnit_whole (s : State) (k : Material) (pa unitVa : Nat) (data : Vec) :
    (s.putUnit k pa unitVa data (-1)).memory = s.memory.setUnit (pa / 64) (sealWith k unitVa data) := by rw [State.putUnit, if_pos rfl]

theorem State.request_putUnit (s : State) (k : Material) (pa unitVa : Nat) (data mask : Vec) (id : Nat) :
    (s.putUnit k pa unitVa data mask).request id = s.request id := by
  obtain ⟨value, poisoned, hput⟩ := putUnit_eq k pa unitVa data mask
  rw [State.request, State.request, hput]

/-! ### Requests at their homes (R83, R89, R97, R181, R182) -/

/-- A request that its home takes now: nothing holds it back, and its key opens its unit, which is not poisoned. -/
structure State.AtHome (s : State) (r : Request) (k : Material) : Prop where
  listed : s.request r.id = some r
  key : s.material r.vif r.key = some k
  stage : r.stage = .travel
  fork : s.forkHeld r = false
  first : ∀ a ∈ s.requests, a.blocks r = false
  sound : r.pa / 64 ∉ s.poisonedUnits
  canonical : s.memory.wf = true

section AtHome

variable {s : State} {r : Request} {k : Material}

theorem State.AtHome.exec_homeApplyRequest (h : s.AtHome r k) :
    exec (.homeApplyRequest r.id) s = .next ((s.applyRequest r).spend r.vif r.activity) := by
  have hexec : exec (.homeApplyRequest r.id) s = execHomeApplyRequest r.id s := rfl
  have hfirst : (s.requests.any fun a => a.blocks r) = false := List.any_eq_false.2 fun a ha => by rw [h.first a ha]; exact Bool.false_ne_true
  rw [hexec, execHomeApplyRequest, h.listed]
  dsimp only
  rw [h.stage, h.fork, hfirst, Bool.and_false]
  rfl

theorem State.AtHome.poisoned_eq_false (h : s.AtHome r k) : s.poisonedUnits.contains (r.pa / 64) = false :=
  Bool.eq_false_iff.2 fun hpoisoned => h.sound (List.contains_iff_mem.1 hpoisoned)

theorem State.AtHome.applyRequest_read (h : s.AtHome r k) (hop : r.op = .read) :
    s.applyRequest r = s.updateRequest { r with data := s.memory.unit (r.pa / 64), bad := false, stage := .reply } := by
  unfold State.applyRequest
  simp only [hop, h.poisoned_eq_false]

theorem State.AtHome.applyRequest_write {x mask : Vec} (h : s.AtHome r k) (hop : r.op = .write x mask) :
    s.applyRequest r = (s.putUnit k r.pa (r.sealVa.toNat / 64) x mask).dropRequest r.id := by
  unfold State.applyRequest
  simp only [hop, h.key, h.poisoned_eq_false, Bool.false_eq_true, if_false]

/-- The byte at which an atomic's word begins: the aligned one that holds its address. (log 45, DESIGN CHOICE) -/
def Request.atomicByte (r : Request) (wide : Bool) : Nat := r.va.toNat % 64 / (if wide then 8 else 4) * (if wide then 8 else 4)

theorem Request.atomicByte_eq (r : Request) (wide : Bool) :
    r.va.toNat % 64 / ((if wide then 64 else 32) / 8) * ((if wide then 64 else 32) / 8) = r.atomicByte wide := by
  have hbytes : (if wide then 64 else 32) / 8 = if wide then 8 else 4 := by cases wide <;> decide
  rw [hbytes, Request.atomicByte]

theorem Request.atomicByte_fits (r : Request) (wide : Bool) : 8 * r.atomicByte wide + (if wide then 64 else 32) ≤ 512 := by
  have hoff := Nat.mod_lt r.va.toNat (show 64 > 0 by decide)
  unfold Request.atomicByte
  split
  · omega
  · omega

theorem State.AtHome.applyRequest_atomic {aop : Nat} {wide : Bool} {x cmp : Word} (h : s.AtHome r k) (hop : r.op = .atomic aop wide x cmp) :
    let v := atomicUnit (s.getUnit k r.pa (r.sealVa.toNat / 64)) (r.atomicByte wide) aop wide x cmp
    let t := s.putUnit k r.pa (r.sealVa.toNat / 64) v.1 (-1)
    (s.applyRequest r).memory = t.memory
      ∧ ∀ sig, r.source = .spine sig → s.applyRequest r = t.updateRequest { r with data := v.2.setWidth 512, stage := .reply } := by
  intro v t
  unfold State.applyRequest
  simp only [hop, h.key, h.poisoned_eq_false, Bool.false_eq_true, if_false]
  refine ⟨?_, fun sig hsource => by rw [hsource]; rfl⟩
  split
  · exact State.memory_updateRequest ..
  · exact State.memory_dropRequest ..

theorem State.AtHome.applyRequest_add {x : Word} (h : s.AtHome r k) (hop : r.op = .add x) :
    s.applyRequest r = (s.putUnit k r.pa (r.sealVa.toNat / 64)
      (atomicUnit (s.getUnit k r.pa (r.sealVa.toNat / 64)) (r.va.toNat % 64) 0 true x 0).1 (-1)).dropRequest r.id := by
  unfold State.applyRequest
  simp only [hop, h.key, h.poisoned_eq_false, Bool.false_eq_true, if_false]

theorem State.AtHome.applyRequest_arrive {n : BitVec 32} (h : s.AtHome r k) (hop : r.op = .arrive n) :
    let u := s.getUnit k r.pa (r.sealVa.toNat / 64)
    let off := r.va.toNat % 64
    let old : Word := u.extractLsb' (8 * off) 64
    s.applyRequest r = (s.putUnit k r.pa (r.sealVa.toNat / 64)
      ((u &&& ~~~fieldMask off 64) ||| ((arriveWord n old).setWidth 512 <<< (8 * off))) (-1)).updateRequest
        { r with data := old.setWidth 512, stage := .reply } := by
  intro u off old
  unfold State.applyRequest
  simp only [hop, h.key, h.poisoned_eq_false, Bool.false_eq_true, if_false]
  rfl

/-- A read takes the stored bytes. -/
theorem State.AtHome.home_read (h : s.AtHome r k) (hop : r.op = .read) :
    ∃ t, exec (.homeApplyRequest r.id) s = .next t
      ∧ t.request r.id = some { r with data := s.memory.unit (r.pa / 64), bad := false, stage := .reply } ∧ t.memory = s.memory := by
  refine ⟨_, h.exec_homeApplyRequest, ?_, ?_⟩
  · rw [State.request_spend, h.applyRequest_read hop]
    exact State.request_updateRequest h.listed rfl
  · rw [State.memory_spend, h.applyRequest_read hop]
    rfl

/-- A unit that was sealed at its port is stored as it is. -/
theorem State.AtHome.home_sealed {x : Vec} (h : s.AtHome r k) (hop : r.op = .sealed x) :
    ∃ t, exec (.homeApplyRequest r.id) s = .next t ∧ t.memory.unit (r.pa / 64) = x ∧ t.request r.id = none := by
  have happly : s.applyRequest r = { s.dropRequest r.id with
      memory := s.memory.setUnit (r.pa / 64) x, poisonedUnits := s.poisonedUnits.filter (· ≠ r.pa / 64) } := by
    unfold State.applyRequest
    simp only [hop]
  refine ⟨_, h.exec_homeApplyRequest, ?_, ?_⟩
  · rw [State.memory_spend, happly]
    dsimp only
    exact Memory.unit_setUnit _ _ h.canonical
  · have hdropped := s.request_dropRequest r.id
    rw [State.request] at hdropped
    rw [State.request_spend, happly, State.request]
    exact hdropped

/-- A write merges its bytes under its key. -/
theorem State.AtHome.home_write {x mask : Vec} (h : s.AtHome r k) (hop : r.op = .write x mask) :
    let old := openWith k (r.sealVa.toNat / 64) (s.memory.unit (r.pa / 64))
    ∃ t, exec (.homeApplyRequest r.id) s = .next t ∧ s.UnitStored t k r.pa (r.sealVa.toNat / 64) ((old &&& ~~~mask) ||| (x &&& mask))
      ∧ t.request r.id = none := by
  intro old
  refine ⟨_, h.exec_homeApplyRequest, State.unitStored_of_memory h.canonical ?_, ?_⟩
  · rw [State.memory_spend, h.applyRequest_write hop, State.memory_dropRequest]
    exact s.memory_putUnit ..
  · rw [State.request_spend, h.applyRequest_write hop]
    exact State.request_dropRequest ..

theorem setWidth_ofNat_of_lt {n : Nat} (h : n < 2 ^ 64) : (BitVec.ofNat 64 n).setWidth 512 = BitVec.ofNat 512 n := by
  refine BitVec.eq_of_toNat_eq ?_
  rw [BitVec.toNat_setWidth_of_le (by decide), BitVec.toNat_ofNat, BitVec.toNat_ofNat, Nat.mod_eq_of_lt h,
    Nat.mod_eq_of_lt (h.trans (Nat.pow_lt_pow_right Nat.one_lt_two (show 64 < 512 by decide)))]

theorem unitField_lt (x : Vec) (at_ n : Nat) : unitField x at_ n < 2 ^ n := Nat.mod_lt _ (Nat.two_pow_pos n)

/-- An atomic changes its word, and answers a spine with the word as it was. -/
theorem State.AtHome.home_atomic {aop : Nat} {wide : Bool} {x cmp : Word} (h : s.AtHome r k) (hop : r.op = .atomic aop wide x cmp)
    (haop : aop < 12) (hwide : wide = false ∨ aop < 10) :
    let old := openWith k (r.sealVa.toNat / 64) (s.memory.unit (r.pa / 64))
    let n := if wide then 64 else 32
    let a := r.va.toNat % 64 / (n / 8) * (n / 8)
    ∃ t y, exec (.homeApplyRequest r.id) s = .next t ∧ s.UnitStored t k r.pa (r.sealVa.toNat / 64) y
      ∧ FieldChanged old y a n ((atomicResults n (unitField old a n) (x.toNat % 2 ^ n) (cmp.toNat % 2 ^ n))[aop]!)
      ∧ ∀ sig, r.source = .spine sig →
          t.request r.id = some { r with data := BitVec.ofNat 512 (unitField old a n), stage := .reply } := by
  intro old n a
  have hbyte : a = r.atomicByte wide := r.atomicByte_eq wide
  have hfits : 8 * a + n ≤ 512 := hbyte ▸ r.atomicByte_fits wide
  have hn : n ≤ 64 := show (if wide then 64 else 32) ≤ 64 by cases wide <;> decide
  obtain ⟨hmemory, hspine⟩ := h.applyRequest_atomic hop
  rw [← hbyte] at hmemory hspine
  obtain ⟨hchanged, hanswer⟩ := atomicUnit_spec old x cmp haop hwide hfits
  refine ⟨_, _, h.exec_homeApplyRequest, State.unitStored_of_memory h.canonical ?_, hchanged, fun sig hsource => ?_⟩
  · rw [State.memory_spend, hmemory]
    exact s.memory_putUnit_whole ..
  · rw [State.request_spend, hspine sig hsource,
      ← setWidth_ofNat_of_lt (lt_of_lt_of_le (unitField_lt old a n) (Nat.pow_le_pow_right Nat.two_pos hn)), ← hanswer]
    exact State.request_updateRequest ((State.request_putUnit ..).trans h.listed) rfl

theorem atomicResults_add (w old x cmp : Nat) : (atomicResults w old x cmp)[0]! = (old + x) % 2 ^ w := rfl

/-- An ADD changes its word, and returns nothing. -/
theorem State.AtHome.home_add {x : Word} (h : s.AtHome r k) (hop : r.op = .add x) (haligned : r.va.toNat % 64 % 8 = 0) :
    let old := openWith k (r.sealVa.toNat / 64) (s.memory.unit (r.pa / 64))
    let off := r.va.toNat % 64
    ∃ t y, exec (.homeApplyRequest r.id) s = .next t ∧ s.UnitStored t k r.pa (r.sealVa.toNat / 64) y
      ∧ FieldChanged old y off 64 ((unitField old off 64 + x.toNat) % 2 ^ 64) ∧ t.request r.id = none := by
  intro old off
  have hfits : 8 * off + 64 ≤ 512 := by
    have hoff : off < 64 := Nat.mod_lt _ (by decide)
    have : off % 8 = 0 := haligned
    omega
  obtain ⟨hchanged, -⟩ := atomicUnit_spec (aop := 0) (wide := true) old x 0 (by decide) (.inr (by decide)) hfits
  rw [if_pos rfl, atomicResults_add, Nat.add_mod_mod] at hchanged
  refine ⟨_, _, h.exec_homeApplyRequest, State.unitStored_of_memory h.canonical ?_, hchanged, ?_⟩
  · rw [State.memory_spend, h.applyRequest_add hop, State.memory_dropRequest]
    exact s.memory_putUnit_whole ..
  · rw [State.request_spend, h.applyRequest_add hop]
    exact State.request_dropRequest ..

/-- An arrival changes its barrier object, and answers with the object as it was. -/
theorem State.AtHome.home_arrive {n : BitVec 32} (h : s.AtHome r k) (hop : r.op = .arrive n) (haligned : r.va.toNat % 64 % 8 = 0) :
    let old := openWith k (r.sealVa.toNat / 64) (s.memory.unit (r.pa / 64))
    let off := r.va.toNat % 64
    let arrived := unitField old off 32
    let phase := unitField old (off + 4) 32
    ∃ t y, exec (.homeApplyRequest r.id) s = .next t ∧ s.UnitStored t k r.pa (r.sealVa.toNat / 64) y
      ∧ FieldChanged old y off 64
          (if n.toNat ≤ arrived + 1 then (phase + 1) % 2 ^ 32 * 2 ^ 32 else phase * 2 ^ 32 + (arrived + 1) % 2 ^ 32)
      ∧ t.request r.id = some { r with data := BitVec.ofNat 512 (unitField old off 64), stage := .reply } := by
  intro old off arrived phase
  have hfits : off + 8 ≤ 64 := by
    have hoff : off < 64 := Nat.mod_lt _ (by decide)
    have : off % 8 = 0 := haligned
    omega
  have hanswer : (old.extractLsb' (8 * off) 64).setWidth 512 = BitVec.ofNat 512 (unitField old off 64) := by
    rw [← setWidth_ofNat_of_lt (unitField_lt old off 64), ← toNat_extractLsb'_field, BitVec.ofNat_toNat, BitVec.setWidth_eq]
  refine ⟨_, _, h.exec_homeApplyRequest, State.unitStored_of_memory h.canonical ?_, fieldChanged_arrive old n hfits, ?_⟩
  · rw [State.memory_spend, h.applyRequest_arrive hop, State.memory_updateRequest]
    exact s.memory_putUnit_whole ..
  · rw [State.request_spend, h.applyRequest_arrive hop, ← hanswer]
    exact State.request_updateRequest ((State.request_putUnit ..).trans h.listed) rfl

end AtHome

/-! ### Walks and unwraps (R73, R90) -/

/-- The leaves that a walk finds stand at levels 0 to 2. -/
theorem walkEntry_leaf {m : Memory} {poisoned : List Nat} {hbm : Bool} {va table level : Nat} {l : Leaf}
    (h : walkEntry m poisoned hbm va table level = .ok (.inl l)) : l.level = level ∧ level ≠ 3 := by
  unfold walkEntry at h
  generalize levelBits level = bits at h
  obtain ⟨lo, n⟩ := bits
  dsimp only at h
  split at h
  · cases h
  split at h
  · cases h
  split at h
  · cases h
  split at h
  · split at h
    · cases h
    · rw [Except.ok.injEq, Sum.inl.injEq] at h
      exact ⟨h ▸ rfl, ‹_›⟩
  · rw [Except.ok.injEq] at h
    cases h

theorem walkFrom_level {m : Memory} {poisoned : List Nat} {hbm : Bool} {va table level : Nat} {l : Leaf}
    (h : walkFrom m poisoned hbm va table level = .ok l) (hlevel : level ≤ 3) : l.level ≤ 2 := by
  induction level generalizing table with
  | zero =>
    unfold walkFrom at h
    split at h
    · cases h
    · cases h
      rw [(walkEntry_leaf ‹_›).1]
      exact Nat.zero_le 2
    · cases h
  | succ level ih =>
    unfold walkFrom at h
    split at h
    · cases h
    · cases h
      obtain ⟨heq, hne⟩ := walkEntry_leaf ‹_›
      omega
    · exact ih h (by omega)

theorem State.walk_level {s : State} {vif va : Nat} {l : Leaf} (h : s.walk vif va = .ok l) : l.level ≤ 2 := walkFrom_level h (Nat.le_refl 3)

/-- The level of a leaf can be told from the span of its entry. -/
theorem level_of_levelSpan {level : Nat} (h : level ≤ 2) : (if levelSpan level = 0 then 0 else if levelSpan level = 5 then 1 else 2) = level := by
  interval_cases level <;> rfl

/-- A fill on a miss is found by the next access to its page. -/
theorem State.tlbHit_fillTlb {s : State} {die vif va : Nat} {l : Leaf} (hmiss : s.tlbHit die vif va = none) (hlevel : l.level ≤ 2) :
    (s.fillTlb die vif va l).tlbHit die vif va = some l := by
  have hnone : ∀ e ∈ s.tlb, ¬e.covers die vif va = true := List.find?_eq_none.1 (Option.map_eq_none_iff.1 hmiss)
  unfold State.fillTlb State.tlbHit
  extract_lets span e mine others kept
  have hkept : ∀ x ∈ others ++ kept, ¬x.covers die vif va = true := fun x hx => by
    refine hnone x ?_
    rcases List.mem_append.1 hx with hx | hx
    · exact (List.mem_filter.1 hx).1
    · refine (List.mem_filter (p := (·.die = die))).1 (?_ : x ∈ mine) |>.1
      change x ∈ (if mine.length < 4096 then mine else mine.eraseIdx (Config.choice s.free % 4096)) at hx
      split at hx
      · exact hx
      · exact List.mem_of_mem_eraseIdx hx
  have hcovers : e.covers die vif va = true := by
    rw [TlbEntry.covers, Bool.and_eq_true, Bool.and_eq_true, beq_iff_eq, beq_iff_eq, beq_iff_eq]
    exact ⟨⟨rfl, rfl⟩, (Nat.mul_div_cancel _ (Nat.two_pow_pos span)).symm⟩
  have hlast : [e].find? (fun e => e.covers die vif va) = some e := List.find?_cons_of_pos hcovers
  rw [List.find?_append, List.find?_eq_none.2 hkept, Option.none_or, hlast, Option.map_some]
  exact congrArg (fun level => some (Leaf.mk l.entry level)) (level_of_levelSpan hlevel)

/-- TLB_WALK_COMPLETE of a request whose checks pass. -/
theorem exec_tlbWalkComplete_spec {s : State} {r : Request} {k : Material} {l : Leaf} {pa : Nat} (hlisted : s.request r.id = some r)
    (hkey : s.material r.vif r.key = some k) (hstage : r.stage = .translate) (hhigh : r.va.extractLsb' 56 8 = 0)
    (hmiss : s.tlbHit r.die r.vif r.va.toNat = none) (hwalk : s.walk r.vif r.va.toNat = .ok l)
    (hleaf : s.checkLeaf l r.va.toNat [r.op.need] = .ok pa) (hdomain : belowDomain k (r.sealVa.toNat / 64) = false) :
    ∃ t q, exec (.tlbWalkComplete r.id) s = .next t ∧ t.tlbHit r.die r.vif r.va.toNat = some l ∧ t.request r.id = some q ∧ q.pa = pa
      ∧ (q.stage = .key ∨ q.stage = .travel) ∧ t.memory = s.memory := by
  have hfound := State.tlbHit_fillTlb hmiss (State.walk_level hwalk)
  obtain ⟨tlb, free, hfill⟩ := s.fillTlb_eq r.die r.vif r.va.toNat l
  have hexec : exec (.tlbWalkComplete r.id) s = .next ((s.fillTlb r.die r.vif r.va.toNat l).translateRequest r) := by
    have hexec : exec (.tlbWalkComplete r.id) s = execTlbWalkComplete r.id s := rfl
    rw [hexec, execTlbWalkComplete, hlisted]
    dsimp only
    rw [hstage, hmiss, hwalk]
    rfl
  rw [hfill] at hexec hfound
  obtain ⟨op, stage, hsend, -, hgoes⟩ := State.sendOn_of_material (s := { s with tlb, free }) (r := r) pa
    ((State.material_of_keys (s := s) rfl rfl _ _).trans hkey) hdomain
  have htranslate : ({ s with tlb, free } : State).translateRequest r = ({ s with tlb, free } : State).updateRequest { r with pa, op, stage } := by
    unfold State.translateRequest
    rw [if_neg (by rw [hhigh]; decide), hfound]
    dsimp only
    rw [State.checkLeaf_of_platform (s := s) (t := { s with tlb, free }) rfl, hleaf]
    exact hsend
  rw [htranslate] at hexec
  exact ⟨_, { r with pa, op, stage }, hexec, hfound, State.request_updateRequest (s := { s with tlb, free }) hlisted rfl, rfl, hgoes, rfl⟩

/-- KEY_CACHE_UNWRAP of a wrapped key that can be read. -/
theorem exec_keyCacheUnwrap_spec {s : State} {r : Request} {k : Material} {n gen : Nat} {epoch : Bool} (hlisted : s.request r.id = some r)
    (hmaterial : s.material r.vif r.key = some k) (hstage : r.stage = .key) (hkey : r.key = .slot n gen epoch)
    (hbroken : epoch ∉ (s.keySlot n).broken) :
    ∃ t, exec (.keyCacheUnwrap r.id) s = .next t ∧ ⟨r.cacheUnit (s.portOf r.source), n, gen, epoch⟩ ∈ t.keyCache
      ∧ t.request r.id = some { r with stage := .travel } ∧ t.memory = s.memory := by
  have hexec : exec (.keyCacheUnwrap r.id) s
      = .next ((s.cacheKey (r.cacheUnit (s.portOf r.source)) n gen epoch).updateRequest { r with stage := .travel }) := by
    have hexec : exec (.keyCacheUnwrap r.id) s = execKeyCacheUnwrap r.id s := rfl
    have hsound : (s.keySlot n).broken.contains epoch = false := Bool.eq_false_iff.2 fun h => hbroken (List.contains_iff_mem.1 h)
    rw [hexec, execKeyCacheUnwrap, hlisted]
    dsimp only
    rw [hstage, hmaterial, hkey]
    dsimp only
    rw [hsound]
    rfl
  exact ⟨_, hexec, List.mem_append_right _ (List.mem_singleton_self _),
    State.request_updateRequest (s := s.cacheKey (r.cacheUnit (s.portOf r.source)) n gen epoch) hlisted rfl, rfl⟩

/-! ### Replies (R86, R89) -/

theorem exec_requestReply_of_reply {s : State} {r : Request} (hlisted : s.request r.id = some r) (hstage : r.stage = .reply) :
    exec (.requestReply r.id) s = .next (s.deliverReply r) := by
  have hexec : exec (.requestReply r.id) s = execRequestReply r.id s := rfl
  rw [hexec, execRequestReply, hlisted]
  dsimp only
  rw [hstage]
  rfl

theorem State.request_answerSpine (s : State) (sig : Nat) (a : Answer) (id : Nat) : (s.answerSpine sig a).request id = s.request id := rfl

/-- A request that is gone is gone also once older prefetches are dropped. -/
theorem State.request_dropOlder_of_none {s : State} (sig unit older : Nat) {id : Nat} (h : s.request id = none) :
    (s.dropOlder sig unit older).request id = none :=
  List.find?_eq_none.2 fun x hx => List.find?_eq_none.1 h x (List.mem_filter.1 hx).1

theorem State.spineOf_dropOlder (s : State) (sig unit older : Nat) :
    (s.dropOlder sig unit older).spineOf sig
      = { s.spineOf sig with readAhead := (s.spineOf sig).readAhead.filter fun e => !(e.unit == unit && e.id < older) } :=
  s.spineOf_setSpineOf sig _

/-- A unit that the read-ahead does not hold enters it. -/
theorem Spine.mem_addReadAhead {p : Spine} {e : ReadAhead} (h : ∀ x ∈ p.readAhead, x.unit ≠ e.unit) : e ∈ (p.addReadAhead e).readAhead := by
  have hnew : (p.readAhead.any fun x => x.unit = e.unit && e.id < x.id) = false := List.any_eq_false.2 fun x hx => by simp [h x hx]
  unfold Spine.addReadAhead
  rw [hnew, if_neg Bool.false_ne_true]
  exact List.mem_append_right _ (List.mem_singleton_self e)

/-- The reply of a read has arrived: its key still opens its unit, which was not poisoned. -/
structure State.ReadReturns (s : State) (r : Request) (k : Material) : Prop where
  listed : s.request r.id = some r
  key : s.material r.vif r.key = some k
  stage : r.stage = .reply
  op : r.op = .read
  sound : r.bad = false

section ReadReturns

variable {s : State} {r : Request} {k : Material}

/-- The opened bytes answer the spine. -/
theorem State.ReadReturns.reply_spine {sig : Nat} (h : s.ReadReturns r k) (hsource : r.source = .spine sig) :
    ∃ t, exec (.requestReply r.id) s = .next t
      ∧ (t.spineOf sig).answer = some (.data (openWith k (r.sealVa.toNat / 64) r.data) s.cycle) ∧ t.request r.id = none
      ∧ t.memory = s.memory := by
  have hdeliver : s.deliverReply r = ((s.dropRequest r.id).dropOlder sig (r.va.toNat / 64) r.id).answerSpine sig
      (.data (openWith k (r.sealVa.toNat / 64) r.data) s.cycle) := by
    unfold State.deliverReply
    simp only [h.op, h.key, h.sound, hsource, Bool.false_eq_true, if_false]
    rfl
  refine ⟨_, exec_requestReply_of_reply h.listed h.stage, ?_, ?_, ?_⟩
  · rw [hdeliver, State.answerSpine, State.spineOf_setSpineOf]
  · rw [hdeliver, State.request_answerSpine]
    exact State.request_dropOlder_of_none _ _ _ (State.request_dropRequest ..)
  · rw [hdeliver]
    rfl

/-- The opened unit enters the read-ahead. -/
theorem State.ReadReturns.reply_readAhead {sig : Nat} (h : s.ReadReturns r k) (hsource : r.source = .readAhead sig)
    (hnew : ∀ e ∈ (s.spineOf sig).readAhead, e.unit ≠ r.va.toNat / 64) :
    ∃ t, exec (.requestReply r.id) s = .next t
      ∧ ⟨r.va.toNat / 64, openWith k (r.sealVa.toNat / 64) r.data, s.cycle, r.id⟩ ∈ (t.spineOf sig).readAhead ∧ t.memory = s.memory := by
  have hdeliver : s.deliverReply r =
      let u := (s.dropRequest r.id).dropOlder sig (r.va.toNat / 64) r.id
      u.setSpineOf sig ((u.spineOf sig).addReadAhead ⟨r.va.toNat / 64, openWith k (r.sealVa.toNat / 64) r.data, s.cycle, r.id⟩) := by
    unfold State.deliverReply
    simp only [h.op, h.key, h.sound, hsource, Bool.false_eq_true, if_false]
    rfl
  refine ⟨_, exec_requestReply_of_reply h.listed h.stage, ?_, ?_⟩
  · rw [hdeliver]
    extract_lets u
    rw [State.spineOf_setSpineOf, State.spineOf_dropOlder]
    exact Spine.mem_addReadAhead fun x hx => hnew x (List.mem_filter.1 hx).1
  · rw [hdeliver]
    rfl

/-- The opened unit of a stream's piece waits in its context. -/
theorem State.ReadReturns.reply_stream {sig key tag : Nat} (h : s.ReadReturns r k) (hsource : r.source = .stream sig key tag) :
    ∃ t, exec (.requestReply r.id) s = .next t
      ∧ Tab.look (t.ctx sig key).units tag = some (openWith k (r.sealVa.toNat / 64) r.data) ∧ t.memory = s.memory := by
  have hdeliver : s.deliverReply r = (s.dropRequest r.id).setCtx sig key { s.ctx sig key with
      units := (s.ctx sig key).units.put tag (openWith k (r.sealVa.toNat / 64) r.data) } := by
    unfold State.deliverReply
    simp only [h.op, h.key, h.sound, hsource, Bool.false_eq_true, if_false]
    rfl
  refine ⟨_, exec_requestReply_of_reply h.listed h.stage, ?_, ?_⟩
  · rw [hdeliver, State.ctx_setCtx]
    exact Tab.look_put ..
  · rw [hdeliver]
    rfl

/-- The index of a run waits in its context. -/
theorem State.ReadReturns.reply_index {sig key j : Nat} (h : s.ReadReturns r k) (hsource : r.source = .index sig key j) :
    ∃ t, exec (.requestReply r.id) s = .next t
      ∧ Tab.look (t.ctx sig key).index j = some (unitField (openWith k (r.sealVa.toNat / 64) r.data) (r.va.toNat % 64) 32)
      ∧ t.memory = s.memory := by
  have hdeliver : s.deliverReply r = (s.dropRequest r.id).setCtx sig key { s.ctx sig key with
      index := (s.ctx sig key).index.put j (unitField (openWith k (r.sealVa.toNat / 64) r.data) (r.va.toNat % 64) 32) } := by
    unfold State.deliverReply
    simp only [h.op, h.key, h.sound, hsource, Bool.false_eq_true, if_false]
    rfl
  refine ⟨_, exec_requestReply_of_reply h.listed h.stage, ?_, ?_⟩
  · rw [hdeliver, State.ctx_setCtx]
    exact Tab.look_put ..
  · rw [hdeliver]
    rfl

end ReadReturns

/-- The value of an atomic or an arrival answers the spine. -/
theorem exec_requestReply_value {s : State} {r : Request} {sig : Nat} (hlisted : s.request r.id = some r) (hstage : r.stage = .reply)
    (hop : r.op ≠ .read) (hsource : r.source = .spine sig) :
    ∃ t, exec (.requestReply r.id) s = .next t ∧ (t.spineOf sig).answer = some (.value (r.data.setWidth 64)) ∧ t.request r.id = none
      ∧ t.memory = s.memory := by
  have hdeliver : s.deliverReply r = (s.dropRequest r.id).answerSpine sig (.value (r.data.setWidth 64)) := by
    unfold State.deliverReply
    split
    · exact absurd ‹_› hop
    · rw [hsource]
  refine ⟨_, exec_requestReply_of_reply hlisted hstage, ?_, ?_, ?_⟩
  · rw [hdeliver, State.answerSpine, State.spineOf_setSpineOf]
  · rw [hdeliver, State.request_answerSpine]
    exact State.request_dropRequest ..
  · rw [hdeliver]
    rfl

/-! ### The obligation -/

/-- Settles O40: the walk and the unwrap, each operation at its home, and the reply to each kind of source. -/
theorem requestsAndHomes : Obligations.RequestsAndHomes := by
  unfold Obligations.RequestsAndHomes
  intro s r k u unitVa off old home reply stores word only hlisted hkey
  refine ⟨?walk, ?unwrap, fun hstage hfork hfirst hsound hcanonical => ?home, fun hstage => ⟨?data, ?value⟩⟩
  case walk => exact fun l pa hstage hhigh hmiss hwalk hleaf hdomain => exec_tlbWalkComplete_spec hlisted hkey hstage hhigh hmiss hwalk hleaf hdomain
  case unwrap => exact fun n gen epoch hstage hslot hbroken => exec_keyCacheUnwrap_spec hlisted hkey hstage hslot hbroken
  case home =>
    have h : s.AtHome r k := ⟨hlisted, hkey, hstage, hfork, hfirst, hsound, hcanonical⟩
    exact ⟨h.home_read, fun x hop => h.home_sealed hop, fun x mask hop => h.home_write hop,
      fun aop wide x cmp hop haop hwide => h.home_atomic hop haop hwide, fun x hop haligned => h.home_add hop haligned,
      fun n hop haligned => h.home_arrive hop haligned⟩
  case data =>
    intro hop hbad
    have h : s.ReadReturns r k := ⟨hlisted, hkey, hstage, hop, hbad⟩
    exact ⟨fun sig hsource => h.reply_spine hsource, fun sig hsource hnew => h.reply_readAhead hsource hnew,
      fun sig key tag hsource => h.reply_stream hsource, fun sig key j hsource => h.reply_index hsource⟩
  case value => exact fun sig hop hsource => exec_requestReply_value hlisted hstage hop hsource

end Sys2Proof.Machine

/-!
PROOFS. Schedule words (R123 to R137): every instruction is read back from its slot, a slot that decodes is the encoding of what it decodes to, and a
word is its header and its two slots.
-/

namespace Sys2Proof

/-! ### A slot put together again from its opcode and its fields (R130) -/

/-- Two neighbouring fields are one field. -/
theorem field_append_field {n : Nat} (x : BitVec n) {high low k l : Nat} (h : high = low + l) :
    x.extractLsb' high k ++ x.extractLsb' low l = x.extractLsb' low (k + l) := by
  subst h
  rw [BitVec.extractLsb'_append_extractLsb'_eq_extractLsb' rfl]

@[simp] theorem AV.toSlot_ofSlot {b : SlotBits} {op : BitVec 8} (h : (slotOp b).toNat = op.toNat) : (AV.ofSlot b).toSlot op = b := by
  rw [← BitVec.eq_of_toNat_eq h]
  simp only [AV.toSlot, AV.ofSlot, slotOp]
  repeat rw [field_append_field b (by rfl)]
  exact BitVec.extractLsb'_eq_self

@[simp] theorem AI.toSlot_ofSlot {b : SlotBits} {op : BitVec 8} (h : (slotOp b).toNat = op.toNat) : (AI.ofSlot b).toSlot op = b := by
  rw [← BitVec.eq_of_toNat_eq h]
  simp only [AI.toSlot, AI.ofSlot, slotOp]
  repeat rw [field_append_field b (by rfl)]
  exact BitVec.extractLsb'_eq_self

@[simp] theorem AM.toSlot_ofSlot {b : SlotBits} {op : BitVec 8} (h : (slotOp b).toNat = op.toNat) : (AM.ofSlot b).toSlot op = b := by
  rw [← BitVec.eq_of_toNat_eq h]
  simp only [AM.toSlot, AM.ofSlot, slotOp]
  repeat rw [field_append_field b (by rfl)]
  exact BitVec.extractLsb'_eq_self

@[simp] theorem AS.toSlot_ofSlot {b : SlotBits} {op : BitVec 8} (h : (slotOp b).toNat = op.toNat) : (AS.ofSlot b).toSlot op = b := by
  rw [← BitVec.eq_of_toNat_eq h]
  simp only [AS.toSlot, AS.ofSlot, slotOp]
  repeat rw [field_append_field b (by rfl)]
  exact BitVec.extractLsb'_eq_self

@[simp] theorem AK.toSlot_ofSlot {b : SlotBits} {op : BitVec 8} (h : (slotOp b).toNat = op.toNat) : (AK.ofSlot b).toSlot op = b := by
  rw [← BitVec.eq_of_toNat_eq h]
  simp only [AK.toSlot, AK.ofSlot, slotOp]
  repeat rw [field_append_field b (by rfl)]
  exact BitVec.extractLsb'_eq_self

@[simp] theorem BL.toSlot_ofSlot {b : SlotBits} {op : BitVec 8} (h : (slotOp b).toNat = op.toNat) : (BL.ofSlot b).toSlot op = b := by
  rw [← BitVec.eq_of_toNat_eq h]
  simp only [BL.toSlot, BL.ofSlot, slotOp]
  repeat rw [field_append_field b (by rfl)]
  exact BitVec.extractLsb'_eq_self

@[simp] theorem BT.toSlot_ofSlot {b : SlotBits} {op : BitVec 8} (h : (slotOp b).toNat = op.toNat) : (BT.ofSlot b).toSlot op = b := by
  rw [← BitVec.eq_of_toNat_eq h]
  simp only [BT.toSlot, BT.ofSlot, slotOp]
  repeat rw [field_append_field b (by rfl)]
  exact BitVec.extractLsb'_eq_self

@[simp] theorem BD.toSlot_ofSlot {b : SlotBits} {op : BitVec 8} (h : (slotOp b).toNat = op.toNat) : (BD.ofSlot b).toSlot op = b := by
  rw [← BitVec.eq_of_toNat_eq h]
  simp only [BD.toSlot, BD.ofSlot, slotOp]
  repeat rw [field_append_field b (by rfl)]
  exact BitVec.extractLsb'_eq_self

@[simp] theorem SG.toSlot_ofSlot {b : SlotBits} {op : BitVec 8} (h : (slotOp b).toNat = op.toNat) : (SG.ofSlot b).toSlot op = b := by
  rw [← BitVec.eq_of_toNat_eq h]
  simp only [SG.toSlot, SG.ofSlot, slotOp]
  repeat rw [field_append_field b (by rfl)]
  exact BitVec.extractLsb'_eq_self

@[simp] theorem SI.toSlot_ofSlot {b : SlotBits} {op : BitVec 8} (h : (slotOp b).toNat = op.toNat) : (SI.ofSlot b).toSlot op = b := by
  rw [← BitVec.eq_of_toNat_eq h]
  simp only [SI.toSlot, SI.ofSlot, slotOp]
  repeat rw [field_append_field b (by rfl)]
  exact BitVec.extractLsb'_eq_self

@[simp] theorem SB.toSlot_ofSlot {b : SlotBits} {op : BitVec 8} (h : (slotOp b).toNat = op.toNat) : (SB.ofSlot b).toSlot op = b := by
  rw [← BitVec.eq_of_toNat_eq h]
  simp only [SB.toSlot, SB.ofSlot, slotOp]
  repeat rw [field_append_field b (by rfl)]
  exact BitVec.extractLsb'_eq_self

@[simp] theorem SO.toSlot_ofSlot {b : SlotBits} {op : BitVec 8} (h : (slotOp b).toNat = op.toNat) : (SO.ofSlot b).toSlot op = b := by
  rw [← BitVec.eq_of_toNat_eq h]
  simp only [SO.toSlot, SO.ofSlot, slotOp]
  repeat rw [field_append_field b (by rfl)]
  exact BitVec.extractLsb'_eq_self

@[simp] theorem SM.toSlot_ofSlot {b : SlotBits} {op : BitVec 8} (h : (slotOp b).toNat = op.toNat) : (SM.ofSlot b).toSlot op = b := by
  rw [← BitVec.eq_of_toNat_eq h]
  simp only [SM.toSlot, SM.ofSlot, slotOp]
  repeat rw [field_append_field b (by rfl)]
  exact BitVec.extractLsb'_eq_self

@[simp] theorem SE.toSlot_ofSlot {b : SlotBits} {op : BitVec 8} (h : (slotOp b).toNat = op.toNat) : (SE.ofSlot b).toSlot op = b := by
  rw [← BitVec.eq_of_toNat_eq h]
  simp only [SE.toSlot, SE.ofSlot, slotOp]
  repeat rw [field_append_field b (by rfl)]
  exact BitVec.extractLsb'_eq_self

/-! ### What the three maps decode to is encoded in the slot (R134 to R136) -/

section

variable {b : SlotBits} {i : Instr}

theorem encode_decodeCntr (h : (slotOp b).toNat = 0x66) : encode (decodeCntr b) = some (.spine, b) := by
  unfold decodeCntr
  dsimp only
  split <;> simp [encode, h]

theorem encode_decodeBstate (h : (slotOp b).toNat = 0x11) : encode (decodeBstate b) = some (.fabricB, b) := by
  unfold decodeBstate
  dsimp only
  split <;> simp [encode, h]

theorem encode_decodeEgr (h : (slotOp b).toNat = 0x40) : encode (decodeEgr b) = some (.fabricB, b) := by
  unfold decodeEgr
  dsimp only
  split <;> simp [encode, h]

theorem encode_decodeCnt (h : (slotOp b).toNat = 0x50) : encode (decodeCnt b) = some (.fabricB, b) := by
  unfold decodeCnt
  dsimp only
  split <;> simp [encode, h]

theorem encode_of_decodeSpine (h : decodeSpine b = some i) : encode i = some (.spine, b) := by
  unfold decodeSpine at h
  split at h <;> cases h
  case h_71.refl hop => exact encode_decodeCntr hop
  all_goals simp [encode, *]

theorem encode_of_decodeFabricA (h : decodeFabricA b = some i) : encode i = some (.fabricA, b) := by
  unfold decodeFabricA at h
  split at h <;> cases h
  all_goals simp [encode, *]

theorem encode_of_decodeFabricB (h : decodeFabricB b = some i) : encode i = some (.fabricB, b) := by
  unfold decodeFabricB at h
  split at h <;> cases h
  case h_11.refl hop => exact encode_decodeBstate hop
  case h_18.refl hop => exact encode_decodeEgr hop
  case h_19.refl hop => exact encode_decodeCnt hop
  all_goals simp [encode, *]

theorem decodeMap_of_nop {m : SlotMap} (hop : slotOp b = 0) : decodeMap m b = some .nop := by
  unfold decodeMap
  rw [hop]
  rfl

/-- An opcode other than NOP's names an instruction of which the slot is the encoding. -/
theorem encode_of_decodeMap {m : SlotMap} (hop : slotOp b ≠ 0) (h : decodeMap m b = some i) : encode i = some (m, b) := by
  unfold decodeMap at h
  rw [if_neg (by simpa using hop)] at h
  cases m with
  | spine => exact encode_of_decodeSpine h
  | fabricA => exact encode_of_decodeFabricA h
  | fabricB => exact encode_of_decodeFabricB h

end

/-- The opcode maps read back every instruction from its slot. -/
theorem Laws.Encodes.all (i : Instr) : Encodes.Statement i := by
  cases i with
  | nop => exact nop
  | br f => exact br f | brc f => exact brc f | call f => exact call f | ret f => exact ret f | loop f => exact loop f | loopx f => exact loopx f
  | endLaunch f => exact endLaunch f | waitv f => exact waitv f | bri f => exact bri f | add f => exact add f | sub f => exact sub f
  | mul f => exact mul f | mulh f => exact mulh f | mulhu f => exact mulhu f | div f => exact div f | divu f => exact divu f | rem f => exact rem f
  | remu f => exact remu f | and f => exact and f | or f => exact or f | xor f => exact xor f | shl f => exact shl f | shr f => exact shr f
  | sra f => exact sra f | min f => exact min f | max f => exact max f | minu f => exact minu f | maxu f => exact maxu f | slt f => exact slt f
  | sltu f => exact sltu f | sel f => exact sel f | clz f => exact clz f | popc f => exact popc f | ext f => exact ext f | ins f => exact ins f
  | addi f => exact addi f | andi f => exact andi f | ori f => exact ori f | xori f => exact xori f | shli f => exact shli f
  | shri f => exact shri f | srai f => exact srai f | movi f => exact movi f | movhi f => exact movhi f | slti f => exact slti f
  | ldg f => exact ldg f | stg f => exact stg f | atom f => exact atom f | ldlit f => exact ldlit f | fence f => exact fence f
  | strm f => exact strm f | swait f => exact swait f | cpy f => exact cpy f | coll f => exact coll f | waitc f => exact waitc f
  | signal f => exact signal f | bar f => exact bar f | arrv f => exact arrv f | bwait f => exact bwait f | launch f => exact launch f
  | fbc f => exact fbc f | setm f => exact setm f | cfgld f => exact cfgld f | plsw f => exact plsw f | enter f => exact enter f
  | leave f => exact leave f | trace f => exact trace f | prog f => exact prog f | rdcyc f => exact rdcyc f | rdtime f => exact rdtime f
  | cntrCfg f => exact cntrCfg f | cntrStart f => exact cntrStart f | cntrStop f => exact cntrStop f | cntrRead f => exact cntrRead f
  | bkpt f => exact bkpt f | jsub f => exact jsub f | junsub f => exact junsub f | jpin f => exact jpin f | junpin f => exact junpin f
  | jprop f => exact jprop f | jload f => exact jload f | jread f => exact jread f | jwait f => exact jwait f | seqnew f => exact seqnew f
  | seqrot f => exact seqrot f | seqend f => exact seqend f | trap f => exact trap f | csrr f => exact csrr f | csrw f => exact csrw f
  | genadv f => exact genadv f | yield f => exact yield f | vadd f => exact vadd f | vsub f => exact vsub f | vmul f => exact vmul f
  | vmulh f => exact vmulh f | vmad f => exact vmad f | vand f => exact vand f | vor f => exact vor f | vxor f => exact vxor f
  | vshl f => exact vshl f | vshr f => exact vshr f | vsra f => exact vsra f | vmin f => exact vmin f | vmax f => exact vmax f
  | vabs f => exact vabs f | vcmp f => exact vcmp f | vsel f => exact vsel f | vclz f => exact vclz f | vpopc f => exact vpopc f
  | vaddi f => exact vaddi f | vmuli f => exact vmuli f | vandi f => exact vandi f | vshli f => exact vshli f | vshri f => exact vshri f
  | vmovi f => exact vmovi f | fadd f => exact fadd f | fsub f => exact fsub f | fmul f => exact fmul f | ffma f => exact ffma f
  | fmin f => exact fmin f | fmax f => exact fmax f | fabs f => exact fabs f | fneg f => exact fneg f | fcmp f => exact fcmp f
  | frcp f => exact frcp f | frsq f => exact frsq f | fexp2 f => exact fexp2 f | flog2 f => exact flog2 f | ftanh f => exact ftanh f
  | fcvt f => exact fcvt f | frndi f => exact frndi f | fscl f => exact fscl f | fmuli f => exact fmuli f | vred f => exact vred f
  | vshuf f => exact vshuf f | vrot f => exact vrot f | vbcst f => exact vbcst f | vins f => exact vins f | vext f => exact vext f
  | vscan f => exact vscan f | mma f => exact mma f | mmas f => exact mmas f | mzero f => exact mzero f | mdrn f => exact mdrn f
  | mdrq f => exact mdrq f | mldr f => exact mldr f | mtrn f => exact mtrn f | sadd f => exact sadd f | ssub f => exact ssub f
  | smul f => exact smul f | sand f => exact sand f | sor f => exact sor f | sxor f => exact sxor f | sshl f => exact sshl f
  | sshr f => exact sshr f | smovi f => exact smovi f | sslt f => exact sslt f | saddi f => exact saddi f | kand f => exact kand f
  | kor f => exact kor f | kxor f => exact kxor f | knot f => exact knot f | kmov f => exact kmov f | kpopc f => exact kpopc f
  | vote f => exact vote f | elid f => exact elid f | ld f => exact ld f | st f => exact st f | lds f => exact lds f | sts f => exact sts f
  | ldx f => exact ldx f | stx f => exact stx f | ldb f => exact ldb f | stb f => exact stb f | satom f => exact satom f | bdecl f => exact bdecl f
  | bstateFull f => exact bstateFull f | bstateEmpty f => exact bstateEmpty f | bqry f => exact bqry f | rt f => exact rt f | vmov f => exact vmov f
  | smov f => exact smov f | ringset f => exact ringset f | vfroms f => exact vfroms f | egrVector f => exact egrVector f
  | egrBuffer f => exact egrBuffer f | cntSel f => exact cntSel f | cntRdlo f => exact cntRdlo f | cntRdhi f => exact cntRdhi f
  | cntClr f => exact cntClr f | cntHlo f => exact cntHlo f | cntHhi f => exact cntHhi f
  | _ => exact ofEvent rfl

/-! ### Slots (R137) -/

/-- A slot decodes to an instruction exactly where it holds it. -/
theorem decodeSlot_eq_instr_iff {m : SlotMap} {b : SlotBits} {i : Instr} : decodeSlot m b = .instr i ↔ m.Holds i b := by
  constructor
  · intro h
    unfold decodeSlot at h
    split at h
    case h_1 => cases h
    case h_2 j hj =>
      split at h
      case isTrue => cases h
      case isFalse hzero =>
        split at h
        case h_1 => cases h
        case h_2 hitem =>
          cases h
          by_cases hop : slotOp b = 0
          · exact .inl ⟨Option.some.inj (hj.symm.trans (decodeMap_of_nop hop)), by simpa [hop] using hzero⟩
          · have hencode := encode_of_decodeMap hop hj
            refine .inr ⟨?_, hencode, by rw [Instr.wellFormed, hitem]; rfl⟩
            rintro rfl
            cases hencode
            exact hop rfl
  · rintro (⟨rfl, rfl⟩ | ⟨hi, hencode, hwf⟩)
    · cases m <;> rfl
    · have hitem : i.slotItem = none := by simpa [Instr.wellFormed] using hwf
      have hmap := Laws.Encodes.all i m b hencode hitem
      have hop : slotOp b ≠ 0 := fun hop => hi (Option.some.inj (hmap.symm.trans (decodeMap_of_nop hop)))
      unfold decodeSlot
      simp [hmap, hitem, show slotOp b ≠ 0#8 from hop]

/-! ### Words (R123, R124) -/

theorem ofBool_getLsbD {n : Nat} (x : BitVec n) (i : Nat) : BitVec.ofBool (x.getLsbD i) = x.extractLsb' i 1 := by
  ext j hj
  obtain rfl : j = 0 := by omega
  simp

/-- A word is its header and its two slots. -/
theorem encodeWord_slots (w : SchedWord) : encodeWord (SchedWord.header w) (SchedWord.slotA w) (SchedWord.slotB w) = w := by
  simp only [encodeWord, SchedWord.header, SchedWord.slotA, SchedWord.slotB, ofBool_getLsbD]
  repeat rw [field_append_field w (by rfl)]
  exact BitVec.extractLsb'_eq_self

theorem getLsbD_eq_of_field {n : Nat} {x : BitVec n} {i : Nat} {b : Bool} (h : x.extractLsb' i 1 = BitVec.ofBool b) : x.getLsbD i = b := by
  have := congrArg (·.getLsbD 0) h
  simpa using this

theorem header_encodeWord (h : Header) (a b : SlotBits) : SchedWord.header (encodeWord h a b) = h := by
  obtain ⟨spine, role, hold, le, gs, gk, seam, zero⟩ := h
  simp only [SchedWord.header, encodeWord, Header.mk.injEq]
  refine ⟨getLsbD_eq_of_field ?_, ?_, getLsbD_eq_of_field ?_, ?_, getLsbD_eq_of_field ?_, ?_, getLsbD_eq_of_field ?_, ?_⟩ <;>
    (change BitVec.extractLsb' (n := 1+4+1+3+1+3+1+2+56+56) _ _ _ = _
     repeat rw [field_above _ _ _ _ (by decide)])
  case refine_1 => exact BitVec.extractLsb'_eq_self
  all_goals exact field_lowest _ _

theorem slotA_encodeWord (h : Header) (a b : SlotBits) : SchedWord.slotA (encodeWord h a b) = a := by
  unfold SchedWord.slotA encodeWord
  change BitVec.extractLsb' (n := 1+4+1+3+1+3+1+2+56+56) _ _ _ = _
  rw [field_above _ _ _ _ (by decide)]
  exact field_lowest _ _

theorem slotB_encodeWord (h : Header) (a b : SlotBits) : SchedWord.slotB (encodeWord h a b) = b := by
  unfold SchedWord.slotB encodeWord
  change BitVec.extractLsb' (n := 1+4+1+3+1+3+1+2+56+56) _ _ _ = _
  exact field_lowest _ _

/-- A word whose header is all ones is a spine word of role 15, which item 3 excludes (R137, R139). -/
theorem header_of_ones {w : SchedWord} (h : w.extractLsb' 112 16 = 0xFFFF) : (SchedWord.header w).spine = true ∧ (SchedWord.header w).role = 15 := by
  constructor
  · have htop : (SchedWord.header w).spine = (w.extractLsb' 112 16).getLsbD 15 := by simp [SchedWord.header]
    rw [htop, h]
    rfl
  · have hrole : (SchedWord.header w).role = (w.extractLsb' 112 16).extractLsb' 11 4 := by
      ext k hk
      simp [SchedWord.header, show 11 + k < 16 by omega, ← Nat.add_assoc]
    rw [hrole, h]
    rfl

/-- A word decodes to what its slots decode to, once items 2 to 4 and 12 let it pass. -/
theorem decodeWord_of_slots {w : SchedWord} {i j : Instr} (hitem : (SchedWord.header w).item = none) (hones : w.extractLsb' 112 16 ≠ 0xFFFF)
    (hcontrol : controlInSlotA w = false) (ha : decodeSlot (slotMaps (SchedWord.header w).spine).1 (SchedWord.slotA w) = .instr i)
    (hb : decodeSlot (slotMaps (SchedWord.header w).spine).2 (SchedWord.slotB w) = .instr j) : decodeWord w = .word (SchedWord.header w) i j := by
  have hmarker : w ≠ SchedWord.marker := by
    rintro rfl
    exact hones (by decide)
  unfold decodeWord
  simp [hmarker, ha, hb, hitem, hcontrol, show w.extractLsb' 112 16 ≠ 65535#16 from hones, SlotDecode.item, lowerItem]

/-! ### The obligations -/

/-- Settles O3: the slots of a word that decodes hold its instructions, and the word is its header and its slots. -/
theorem wordsAreEncoded : Obligations.WordsAreEncoded := by
  unfold Obligations.WordsAreEncoded
  intro w h i j hw
  obtain ⟨rfl, ha, hb⟩ := Machine.decodeWord_slots hw
  exact ⟨_, _, decodeSlot_eq_instr_iff.1 ha, decodeSlot_eq_instr_iff.1 hb, (encodeWord_slots w).symm⟩

/-- Settles O2: slots that hold instructions decode to them, and a legal header is neither the marker's nor breaks an item. -/
theorem wordsRoundTrip : Obligations.WordsRoundTrip := by
  unfold Obligations.WordsRoundTrip
  intro h i j a b ha hb hzero hle hspine
  have hheader := header_encodeWord h a b
  have hword := decodeWord_of_slots (w := encodeWord h a b) (i := i) (j := j)
  rw [hheader, slotA_encodeWord, slotB_encodeWord] at hword
  refine hword ?item ?ones ?control (decodeSlot_eq_instr_iff.2 ha) (decodeSlot_eq_instr_iff.2 hb)
  case item =>
    rw [Header.item, firstBroken_eq_none]
    simp only [List.forall_mem_cons, List.not_mem_nil, false_imp_iff, implies_true, and_true]
    refine ⟨by simp [hzero, hle], ?_⟩
    cases hs : h.spine with
    | false => rfl
    | true =>
      obtain ⟨hrole, hhold, hgs, hgk, -⟩ := hspine hs
      simp [hrole, hhold, hgs, hgk]
  case ones =>
    intro hones
    obtain ⟨hs, hrole⟩ := header_of_ones hones
    rw [hheader] at hs hrole
    obtain ⟨hrole', -⟩ := hspine hs
    exact absurd (hrole.symm.trans hrole') (by decide)
  case control =>
    have htop : (encodeWord h a b).getLsbD 127 = h.spine := congrArg Header.spine hheader
    rw [controlInSlotA, htop, slotA_encodeWord]
    cases hs : h.spine with
    | false => rfl
    | true =>
      obtain ⟨-, -, -, -, hop⟩ := hspine hs
      simp only [Bool.true_and, Bool.and_eq_false_iff, decide_eq_false_iff_not]
      omega

/-- Settles O1: the words of the examples, decoded. -/
theorem sampleWordsDecode : Obligations.SampleWordsDecode := by
  unfold Obligations.SampleWordsDecode
  intro header spine
  refine ⟨?_, ?_, ?_, ?_, ?_, ?_, ?_⟩ <;> decide

end Sys2Proof

/-!
PROOFS. Slots of an element's word that are masked, and slots that fault (R62, R126, R352, R356).
-/

namespace Sys2Proof.Machine

/-! ### Reads of an element (R62): they answer, or fault, and change nothing but the event tally -/

/-- m answers x in element e whatever its event tally, and changes nothing but that. -/
def EM.Reads {α : Type} (m : EM α) (e : Element) (x : α) : Prop := ∀ tally, ∃ tally', m { e with tally } = .ok (x, { e with tally := tally' })

/-- m faults in element e whatever its event tally. -/
def EM.Faults {α : Type} (m : EM α) (e : Element) (f : ElemFault) : Prop := ∀ tally, m { e with tally } = .error f

section Reads

variable {α β : Type} {m : EM α} {k : α → EM β} {e : Element} {x : α} {f : ElemFault}

theorem EM.reads_pure (e : Element) (x : α) : (pure x : EM α).Reads e x := fun tally => ⟨tally, rfl⟩

theorem EM.Reads.bind {y : β} (h : m.Reads e x) (hk : (k x).Reads e y) : (m >>= k).Reads e y := by
  intro tally
  obtain ⟨_, hm⟩ := h tally
  rw [EM.bind_ok hm]
  exact hk _

theorem EM.Reads.bind_faults (h : m.Reads e x) (hk : (k x).Faults e f) : (m >>= k).Faults e f := by
  intro tally
  obtain ⟨_, hm⟩ := h tally
  rw [EM.bind_ok hm]
  exact hk _

theorem EM.Faults.bind (h : m.Faults e f) : (m >>= k).Faults e f := fun tally => EM.bind_error (h tally)

theorem EM.reads_get_bind {k : Element → EM β} {y : β} (h : ∀ tally, (k { e with tally }).Reads e y) :
    ((get : EM Element) >>= k).Reads e y :=
  fun tally => h tally tally

theorem EM.faults_get_bind {k : Element → EM β} (h : ∀ tally, (k { e with tally }).Faults e f) : ((get : EM Element) >>= k).Faults e f :=
  fun tally => h tally tally

theorem EM.reads_check {ok : Bool} (code aux addr : Nat) (h : ok = true) : (EM.check ok code aux addr).Reads e () := by
  rw [h]
  exact EM.reads_pure e ()

theorem EM.faults_check {ok : Bool} (code aux addr : Nat) (h : ok = false) : (EM.check ok code aux addr).Faults e ⟨code, aux, addr⟩ := by
  rw [h]
  exact fun _ => rfl

end Reads

section Operands

variable {s : State} {e : Element}

/-- A read that R62 answers: the value of a current item, and zeros for a stale one. -/
theorem readChecked_reads {α : Type} {gen : Gen} {poison : Bool} (cls addr : Nat) (h : s.mayRead gen poison = true) (x y : α) :
    (readChecked s.env gen poison cls addr >>= fun current => if current = true then pure x else pure y : EM α).Reads e
      (if gen = s.env.gen then x else y) := by
  unfold readChecked
  unfold State.mayRead at h
  by_cases hgen : gen = s.env.gen
  · rw [if_pos hgen, Bool.not_eq_true'] at h
    rw [if_pos hgen, if_pos hgen, h]
    exact EM.reads_pure e x
  · rw [if_neg hgen, Bool.not_eq_true'] at h
    rw [if_neg hgen, if_neg hgen, h]
    exact fun tally => ⟨_, rfl⟩

theorem readS_reads {i : Nat} (h : s.mayReadS i = true) : (readS s.env i).Reads s.elem (s.seenS i) :=
  EM.reads_get_bind fun _ => readChecked_reads 1 0 h _ _

theorem readB_reads {b : BitVec 3} (h : s.mayRead (s.bufferItem b).gen (s.bufferItem b).poison = true) :
    (readB s.env b.toNat).Reads s.elem (s.bufferWord b) :=
  EM.reads_get_bind fun _ => readChecked_reads 1 0 h _ _

theorem readV_reads {i : Nat} (h : s.mayReadV i = true) : (readV s.env i).Reads s.elem (s.seenV i) := by
  refine EM.reads_get_bind fun _ => ?_
  unfold State.seenV
  unfold State.mayReadV at h
  by_cases hport : 28 ≤ i
  · rw [if_pos hport, if_pos hport]
    exact EM.reads_pure _ _
  · rw [decide_eq_false hport, Bool.false_or] at h
    rw [if_neg hport, if_neg hport]
    exact readChecked_reads 1 0 h _ _

theorem readK_reads {i : Nat} (h : s.mayReadK i = true) : (readK s.env i).Reads s.elem (s.seenK i) := by
  unfold readK State.seenK
  unfold State.mayReadK at h
  by_cases hi : i = 0
  · rw [if_pos hi, if_pos hi]
    exact EM.reads_pure _ _
  · rw [decide_eq_false hi, Bool.false_or] at h
    rw [if_neg hi, if_neg hi]
    exact EM.reads_get_bind fun _ => readChecked_reads 1 0 h _ _

/-- A field that rx does not put under ring control names its own register. -/
theorem rename_reads_of_unringed {rx : BitVec 4} {dest : Bool} (h : ringed rx dest = false) (f : BitVec 5) :
    (rename s.env rx dest f).Reads e f.toNat := by
  unfold ringed at h
  unfold rename
  rw [h, if_neg Bool.false_ne_true]
  exact EM.reads_pure _ _

theorem sourceV_reads_of_unringed {rx : BitVec 4} {f : BitVec 5} (hrx : ringed rx false = false) (h : s.mayReadV f.toNat = true) :
    (sourceV s.env rx f).Reads s.elem (s.seenV f.toNat) :=
  (rename_reads_of_unringed hrx f).bind (readV_reads h)

/-- The address of a slot B access whose base may be read. -/
theorem padAddress_reads {f : BL} (h : s.mayPadAt f = true) : (padAddress s.env f).Reads s.elem (s.padAt f) := by
  unfold padAddress State.padAt
  unfold State.mayPadAt at h
  by_cases hbase : f.sub.getLsbD 0 = true
  · rw [if_pos hbase, if_pos hbase]
    exact EM.reads_pure _ _
  · rw [Bool.eq_false_iff.2 hbase, Bool.false_or] at h
    rw [if_neg hbase, if_neg hbase]
    exact (readS_reads h).bind (EM.reads_pure _ _)

/-- A stale item in mode T (R62). -/
theorem readChecked_faults_of_stale {gen : Gen} (poison : Bool) (cls addr : Nat) (hgen : gen ≠ s.env.gen) (htrap : s.env.trap = true) :
    (readChecked s.env gen poison cls addr).Faults e ⟨0x10, gen.toNat + s.env.gen.toNat * 2 ^ 16, addr⟩ := by
  unfold readChecked
  rw [if_neg hgen, htrap]
  exact fun _ => rfl

/-- A current item that is poisoned (R369). -/
theorem readChecked_faults_of_poison {gen : Gen} (cls addr : Nat) (hgen : gen = s.env.gen) :
    (readChecked s.env gen true cls addr).Faults e ⟨0x18, cls, addr⟩ := by
  unfold readChecked
  rw [if_pos hgen]
  exact fun _ => rfl

theorem readS_faults {i : Nat} {f : ElemFault}
    (h : (readChecked s.env (s.elem.s.get (Tagged.zero 32) i).gen (s.elem.s.get (Tagged.zero 32) i).poison 1 0).Faults s.elem f) :
    (readS s.env i).Faults s.elem f :=
  EM.faults_get_bind fun _ => h.bind

end Operands

/-! ### Instructions that take a fault (R352) -/

theorem State.perform_of_error {α : Type} {s : State} {m : ElemEnv → EM α} {answer : α → State → State} {f : ElemFault}
    (hs : s.focus.suppressed = false) (hm : m s.env s.elem = .error f) :
    s.perform m answer = s.elementFault f (slotCode s.focus.slotB) := by
  rw [State.elem] at hm
  rw [State.perform, hs, hm]
  rfl

theorem State.takesNote_of_faults {s : State} {i : Instr} {m : ElemEnv → EM Unit} {code aux addr : Nat} (hexec : exec i s = performSlot s m)
    (hs : s.focus.suppressed = false) (hm : (m s.env).Faults s.elem ⟨code, aux, addr⟩) : s.TakesNote i code aux addr :=
  State.takesNote_of_fault (hexec.trans (performSlot_of_error hs (hm s.elem.tally)))

theorem guardAny_of_guardZero {env : ElemEnv} {w : Nat} (hw : w ∈ [4, 8, 16, 32]) (h : guardZero env = true) : guardAny env w = true := by
  refine List.any_eq_true.2 ⟨0, List.mem_range.2 ?_, ?_⟩
  · fin_cases hw <;> decide
  · rwa [laneBit, Nat.zero_mul, Nat.zero_div]

theorem padLaneWidth_mem (sz : BitVec 3) : padLaneWidth sz ∈ [4, 8, 16, 32] := by
  unfold padLaneWidth
  split_ifs <;> decide

/-- A vector access out of line, or beyond the scratchpad (R235). -/
theorem vectorAddress_faults {e : Element} {a : Nat} :
    (a % 64 ≠ 0 → (vectorAddress a true).Faults e ⟨0x07, 64, a⟩) ∧ (0x18000 < a + 64 → (vectorAddress a false).Faults e ⟨0x16, 0, a⟩) := by
  refine ⟨fun h => ?_, fun h => ?_⟩
  · exact EM.Faults.bind (EM.faults_check _ _ _ (beq_eq_false_iff_ne.2 h))
  · exact EM.Reads.bind_faults (EM.reads_pure _ _) (EM.faults_check _ _ _ (decide_eq_false (by unfold padBytes; omega)))

/-- A scalar access out of line (R236). -/
theorem scalarAddress_faults {e : Element} {a size : Nat} (h : a % size ≠ 0) : (scalarAddress a size).Faults e ⟨0x07, size, a⟩ :=
  EM.Faults.bind (EM.faults_check _ _ _ (beq_eq_false_iff_ne.2 h))

section Faults

variable {s : State} (hacts : s.acts = true)
include hacts

theorem takesNote_saddi (f : AS) :
    let r := s.elem.s.get (Tagged.zero 32) f.sa.toNat
    (r.gen ≠ s.env.gen → s.env.trap = true → s.TakesNote (.saddi f) 0x10 (r.gen.toNat + s.env.gen.toNat * 2 ^ 16) 0)
      ∧ (r.gen = s.env.gen → r.poison = true → s.TakesNote (.saddi f) 0x18 1 0) := by
  intro r
  obtain ⟨hs, hguard⟩ := State.guardZero_of_acts hacts
  have hfaults {x : ElemFault} (h : (readChecked s.env r.gen r.poison 1 0).Faults s.elem x) : (elemSaddi f s.env).Faults s.elem x := by
    rw [elemSaddi, scalarOp, hguard]
    exact (readS_faults h).bind
  refine ⟨fun hgen htrap => ?_, fun hgen hpoison => ?_⟩ <;> refine State.takesNote_of_faults (m := elemSaddi f) rfl hs (hfaults ?_)
  · exact readChecked_faults_of_stale _ 1 0 hgen htrap
  · rw [hpoison]
    exact readChecked_faults_of_poison 1 0 hgen

theorem takesNote_bstateFull_of_stale {f : BD} (htrap : s.env.trap = false) (hgen : (s.bufferItem f.b).gen ≠ s.env.gen) :
    s.TakesNote (.bstateFull f) 0x14 f.b.toNat 0 := by
  obtain ⟨hs, hguard⟩ := State.guardZero_of_acts hacts
  refine State.takesNote_of_faults (m := elemBstateFull f) rfl hs ?_
  have hread : s.mayRead (s.bufferItem f.b).gen (s.bufferItem f.b).poison = true := by rw [State.mayRead, if_neg hgen, htrap]; rfl
  have hzero := readB_reads hread
  rw [State.bufferWord, if_neg hgen] at hzero
  rw [elemBstateFull, hguard]
  exact EM.Faults.bind (hzero.bind_faults (EM.Faults.bind (EM.faults_check _ _ _ rfl)))

theorem elemLoad_faults {f : BL} {aligned : Bool} {x : ElemFault} (hpad : s.mayPadAt f = true)
    (h : (vectorAddress (s.padAt f) aligned).Faults s.elem x) : (elemLoad aligned f s.env).Faults s.elem x := by
  rw [elemLoad, guardAny_of_guardZero (padLaneWidth_mem f.sz) (State.guardZero_of_acts hacts).2]
  exact (padAddress_reads hpad).bind_faults h.bind

theorem elemStore_faults {f : BL} {aligned : Bool} {x : ElemFault} (hpad : s.mayPadAt f = true)
    (h : (vectorAddress (s.padAt f) aligned).Faults s.elem x) : (elemStore aligned f s.env).Faults s.elem x := by
  rw [elemStore, guardAny_of_guardZero (padLaneWidth_mem f.sz) (State.guardZero_of_acts hacts).2]
  exact (padAddress_reads hpad).bind_faults h.bind

theorem takesNote_padAccess {f : BL} (hpad : s.mayPadAt f = true) :
    (s.padAt f % 64 ≠ 0 → s.TakesNote (.ld f) 0x07 64 (s.padAt f) ∧ s.TakesNote (.st f) 0x07 64 (s.padAt f))
      ∧ (0x18000 < s.padAt f + 64 → s.TakesNote (.ldx f) 0x16 0 (s.padAt f) ∧ s.TakesNote (.stx f) 0x16 0 (s.padAt f))
      ∧ (s.padAt f % 2 ^ f.sz.toNat ≠ 0 →
        s.TakesNote (.lds f) 0x07 (2 ^ f.sz.toNat) (s.padAt f) ∧ s.TakesNote (.sts f) 0x07 (2 ^ f.sz.toNat) (s.padAt f)) := by
  obtain ⟨hs, hguard⟩ := State.guardZero_of_acts hacts
  refine ⟨fun h => ⟨?_, ?_⟩, fun h => ⟨?_, ?_⟩, fun h => ⟨?_, ?_⟩⟩
  · exact State.takesNote_of_faults (m := elemLoad true f) rfl hs (elemLoad_faults hacts hpad (vectorAddress_faults.1 h))
  · exact State.takesNote_of_faults (m := elemStore true f) rfl hs (elemStore_faults hacts hpad (vectorAddress_faults.1 h))
  · exact State.takesNote_of_faults (m := elemLoad false f) rfl hs (elemLoad_faults hacts hpad (vectorAddress_faults.2 h))
  · exact State.takesNote_of_faults (m := elemStore false f) rfl hs (elemStore_faults hacts hpad (vectorAddress_faults.2 h))
  · refine State.takesNote_of_faults (m := elemLds f) rfl hs ?_
    rw [elemLds, hguard]
    exact (padAddress_reads hpad).bind_faults (scalarAddress_faults h).bind
  · refine State.takesNote_of_faults (m := elemSts f) rfl hs ?_
    rw [elemSts, hguard]
    exact (padAddress_reads hpad).bind_faults (scalarAddress_faults h).bind

/-- LDB of a declared buffer comes to the checks of R356 with its address and the buffer's descriptor. -/
theorem takesNote_ldb_of_checks {f : BL} {code aux addr : Nat} (hpad : s.mayPadAt f = true) (hrx : f.rx = 0) (hkp : f.kp = 0)
    (huse : s.mayUse f.bf = true)
    (h : ∀ load : Nat → EM Unit, (bufferGranule (s.buffer f.bf) (s.padAt f) >>= fun a =>
      checkBufferState (s.buffer f.bf) true ((s.buffer f.bf).st == 2) >>= fun _ => load a).Faults s.elem ⟨code, aux, addr⟩) :
    s.TakesNote (.ldb f) code aux addr := by
  obtain ⟨hs, hguard⟩ := State.guardZero_of_acts hacts
  obtain ⟨hgen, hpoison, hcnt⟩ := State.mayUse_iff.1 huse
  have hread : s.mayRead (s.bufferItem f.bf).gen (s.bufferItem f.bf).poison = true := by rw [State.mayRead, if_pos hgen, hpoison]; rfl
  have hdeclared : (declaredBuffer f.bf.toNat (s.bufferWord f.bf)).Reads s.elem (s.buffer f.bf) := by
    rw [State.buffer_of_current hgen] at hcnt ⊢
    rw [State.bufferWord, if_pos hgen]
    exact (EM.reads_check _ _ _ (bne_iff_ne.2 hcnt)).bind (EM.reads_pure _ _)
  have hmayK : s.mayReadK f.kp.toNat = true := by rw [hkp]; rfl
  obtain ⟨mask, hmask⟩ : ∃ mask, (padMask s.env f).Reads s.elem mask := ⟨_, (readK_reads hmayK).bind (EM.reads_pure _ _)⟩
  have hname : (rename s.env f.rx true f.vr).Reads s.elem f.vr.toNat := rename_reads_of_unringed (by rw [hrx]; rfl) f.vr
  refine State.takesNote_of_faults (m := elemLdb f) rfl hs ?_
  rw [elemLdb, guardAny_of_guardZero (padLaneWidth_mem f.sz) hguard]
  exact (padAddress_reads hpad).bind_faults ((readB_reads hread).bind_faults (hmask.bind_faults
    (hname.bind_faults (hdeclared.bind_faults (h fun a => _)))))

/-- LDB beyond a buffer, of a void one, and of one in another state than FULL, in this order (R237, R356; log 24). -/
theorem takesNote_ldb {f : BL} (hpad : s.mayPadAt f = true) (hrx : f.rx = 0) (hkp : f.kp = 0) (huse : s.mayUse f.bf = true) :
    let d := s.buffer f.bf
    (d.cnt ≤ s.padAt f → s.TakesNote (.ldb f) 0x15 d.toWord.toNat 0)
      ∧ (s.padAt f < d.cnt → d.void = true → s.TakesNote (.ldb f) 0x13 d.toWord.toNat 0)
      ∧ (s.padAt f < d.cnt → d.void = false → d.st ≠ 2 → s.TakesNote (.ldb f) 0x12 d.toWord.toNat 0) := by
  intro d
  have hgranule (h : s.padAt f < d.cnt) : (bufferGranule d (s.padAt f)).Reads s.elem (64 * (d.base + s.padAt f)) :=
    (EM.reads_check _ _ _ (decide_eq_true h)).bind (EM.reads_pure _ _)
  refine ⟨fun h => ?beyond, fun h hvoid => ?void, fun h hvoid hst => ?state⟩ <;> refine takesNote_ldb_of_checks hacts hpad hrx hkp huse fun load => ?_
  case beyond => exact EM.Faults.bind (EM.faults_check _ _ _ (decide_eq_false (Nat.not_lt.2 h))).bind
  case void => exact (hgranule h).bind_faults (EM.Faults.bind fun _ => checkBufferState_of_void _ _ hvoid)
  case state =>
    rw [beq_eq_false_iff_ne.2 hst]
    exact (hgranule h).bind_faults (EM.Faults.bind fun _ => checkBufferState_of_state _ (by rw [hvoid]; rfl))

/-- MMA of a source with another tag (R226). -/
theorem takesNote_mma {f : AM} (hrx : f.rx = 0) (hov : f.ov = 1) (ha : s.mayReadV f.va.toNat = true) (hb : s.mayReadV f.vb.toNat = true)
    (hfits : (s.seenV f.va.toNat).fits f.fa false = false) :
    s.TakesNote (.mma f) 0x11 ((s.seenV f.va.toNat).fmt.toNat + (if (s.seenV f.va.toNat).scaled then 16 else 0) + f.fa.toNat * 256) 0 := by
  obtain ⟨hs, hguard⟩ := State.guardZero_of_acts hacts
  have hunringed : ringed f.rx false = false := by rw [hrx]; rfl
  refine State.takesNote_of_faults (m := elemMma f) rfl hs ?_
  rw [elemMma, hguard, hov]
  refine (sourceV_reads_of_unringed hunringed ha).bind_faults ((sourceV_reads_of_unringed hunringed hb).bind_faults
    (EM.faults_get_bind fun _ => (EM.reads_pure _ false).bind_faults (EM.Faults.bind ?_)))
  exact EM.faults_check _ _ _ hfits

/-- A vector handed over where no stream takes it (R242). -/
theorem takesNote_egrVector {f : BD} (hv : s.mayReadV f.vr.toNat = true)
    (hkind : (s.ctx s.focus.sig (s.egressCtx (f.n.extractLsb' 0 4).toNat)).kind ≠ .stream) :
    s.TakesNote (.egrVector f) 0x17 ((f.n.extractLsb' 0 4).toNat + 16) 0 := by
  obtain ⟨hs, hguard⟩ := State.guardZero_of_acts hacts
  have hreason : s.egressReason (egressHandle f) 1 = 1 := if_pos hkind
  have hfaults : (elemEgrVector f (s.egressReason (egressHandle f)) s.env).Faults s.elem ⟨0x17, (f.n.extractLsb' 0 4).toNat + 16, 0⟩ := by
    rw [elemEgrVector, hguard]
    refine (readV_reads hv).bind_faults (EM.faults_get_bind fun _ => ?_)
    rw [hreason]
    exact EM.Faults.bind (EM.faults_check _ _ _ rfl)
  exact State.takesNote_of_fault (congrArg Host.Outcome.next (State.perform_of_error hs (hfaults.bind s.elem.tally)))

end Faults

/-! ### Lane instructions of which the guard enables no lane (R126) -/

/-- The step of c f performs an operation that does nothing where the guard enables no lane of ty. -/
def Masked (f : AV) (c : AV → Instr) : Prop :=
  ∃ act, (∀ s, exec (c f) s = performSlot s act) ∧ ∀ env, guardAny env (laneWidth f.ty) = false → act env = pure ()

theorem intLanes_of_masked {env : ElemEnv} {f : AV} (latency : Nat) (usesVb usesVc : Bool) (op : Nat → Nat → Nat → Nat)
    (h : guardAny env (laneWidth f.ty) = false) : intLanes env f latency usesVb usesVc op = pure () := by
  rw [intLanes, h]
  rfl

theorem floatLanes_of_masked {env : ElemEnv} {f : AV} (latency : Nat) (usesVc : Bool) (op : Nat → Nat → Nat → Nat → FVal)
    (h : guardAny env (laneWidth f.ty) = false) : floatLanes env f latency usesVc op = pure () := by
  rw [floatLanes, h]
  rfl

theorem permuteLanes_of_masked {env : ElemEnv} {f : AV} (latency : Nat) (usesVb usesVc : Bool) (op : Vec → Vec → Vec → Nat → Nat)
    (h : guardAny env (laneWidth f.ty) = false) : permuteLanes env f latency usesVb usesVc op = pure () := by
  rw [permuteLanes, h]
  rfl

theorem masked_integerLanes (f : AV) : ∀ x ∈ integerLanes f, Masked f x.1 := by
  simp only [integerLanes, List.forall_mem_cons, List.not_mem_nil, false_imp_iff, implies_true, and_true]
  and_intros
  all_goals refine ⟨_, fun _ => rfl, fun _ h => ?_⟩
  all_goals exact intLanes_of_masked _ _ _ _ h

theorem masked_exactFloatLanes (f : AV) : ∀ x ∈ exactFloatLanes f, Masked f x.1 := by
  simp only [exactFloatLanes, List.forall_mem_cons, List.not_mem_nil, false_imp_iff, implies_true, and_true]
  and_intros
  all_goals refine ⟨_, fun _ => rfl, fun env h => ?_⟩
  all_goals exact intLanes_of_masked _ _ _ _ h

theorem masked_roundedFloatLanes (f : AV) : ∀ x ∈ roundedFloatLanes f, Masked f x.1 := by
  simp only [roundedFloatLanes, List.forall_mem_cons, List.not_mem_nil, false_imp_iff, implies_true, and_true]
  and_intros
  all_goals refine ⟨_, fun _ => rfl, fun _ h => ?_⟩
  all_goals exact floatLanes_of_masked _ _ _ h

theorem masked_permutedLanes (f : AV) : ∀ x ∈ permutedLanes f, Masked f x.1 := by
  simp only [permutedLanes, List.forall_mem_cons, List.not_mem_nil, false_imp_iff, implies_true, and_true]
  refine ⟨⟨_, fun _ => rfl, fun _ h => ?_⟩, ⟨_, fun _ => rfl, fun _ h => ?_⟩, ⟨_, fun _ => rfl, fun _ h => ?_⟩, ⟨_, fun _ => rfl, fun _ h => ?_⟩,
    ⟨_, fun _ => rfl, fun _ h => ?_⟩⟩
  · unfold elemVshuf
    exact permuteLanes_of_masked _ _ _ _ h
  · unfold elemVrot
    exact permuteLanes_of_masked _ _ _ _ h
  · unfold elemVbcst
    exact permuteLanes_of_masked _ _ _ _ h
  · unfold elemVins
    exact permuteLanes_of_masked _ _ _ _ h
  · unfold elemVext
    exact permuteLanes_of_masked _ _ _ _ h

theorem State.perform_of_suppressed {α : Type} {s : State} (m : ElemEnv → EM α) (answer : α → State → State) (hs : s.focus.suppressed = true) :
    s.perform m answer = s := by
  rw [State.perform, hs]
  rfl

theorem Masked.exec_of_suppressed {f : AV} {c : AV → Instr} {s : State} (h : Masked f c) (hs : s.focus.suppressed = true) :
    exec (c f) s = .next s := by
  obtain ⟨act, hexec, -⟩ := h
  rw [hexec, performSlot, State.perform_of_suppressed _ _ hs]

theorem Masked.exec_of_guard {f : AV} {c : AV → Instr} {s : State} (h : Masked f c) (hs : s.focus.suppressed = false)
    (hguard : guardAny s.env (laneWidth f.ty) = false) : exec (c f) s = .next (s.withElem s.elem) := by
  obtain ⟨act, hexec, hmasked⟩ := h
  rw [hexec]
  exact performSlot_of_ok hs (congrFun (hmasked _ hguard) s.elem)

/-- Settles O22: a lane instruction that is masked or suppressed, and the faults of the element's operands. -/
theorem maskedAndFaultingSlots : Obligations.MaskedAndFaultingSlots := by
  unfold Obligations.MaskedAndFaultingSlots
  refine ⟨fun s f c hc => ?lanes, fun s hacts => ⟨takesNote_saddi hacts, fun f => ?pad, fun f => takesNote_bstateFull_of_stale hacts,
    fun f => takesNote_mma hacts, fun f => takesNote_egrVector hacts⟩⟩
  case lanes =>
    have hmasked : Masked f c := by
      rcases hc with ⟨l, op, src, h⟩ | ⟨l, op, src, h⟩ | ⟨op, src, h⟩ | ⟨l, op, src, h⟩
      · exact masked_integerLanes f _ h
      · exact masked_exactFloatLanes f _ h
      · exact masked_roundedFloatLanes f _ h
      · exact masked_permutedLanes f _ h
    exact ⟨hmasked.exec_of_suppressed, hmasked.exec_of_guard⟩
  case pad =>
    intro a d words hpad
    obtain ⟨hline, hrange, hscalar⟩ := takesNote_padAccess hacts hpad
    exact ⟨hline, hrange, hscalar, fun ⟨hrx, hkp, huse⟩ => (takesNote_ldb hacts hpad hrx hkp huse).1,
      fun ⟨hrx, hkp, huse⟩ => (takesNote_ldb hacts hpad hrx hkp huse).2.1, fun ⟨hrx, hkp, huse⟩ => (takesNote_ldb hacts hpad hrx hkp huse).2.2⟩

end Sys2Proof.Machine

/-!
PROOFS. What an instruction of the fabric maps leaves alone: everything but the element in focus (R126, R352).
-/

namespace Sys2Proof.Machine

/-! ### Recording a fault leaves the word in focus -/

theorem State.focus_of_writeVirtual {s t : State} {vif n data : Nat} {va : Word} (h : s.writeVirtual vif va n data = .ok t) :
    t.focus = s.focus := by
  unfold State.writeVirtual at h
  split at h
  · cases h
  · cases h
  · dsimp only at h
    split at h
    · cases h
    · cases h
      unfold State.putUnit
      split <;> rfl

theorem State.focus_writeFault (s : State) (vif : Nat) (f : FaultInfo) : (s.writeFault vif f).1.focus = s.focus := by
  unfold State.writeFault
  dsimp only
  split
  case isTrue => rfl
  case isFalse =>
    split
    case h_1 => rfl
    case h_2 =>
      split
      case isTrue =>
        rw [State.setIface_focus]
        cases h : s.writeVirtual vif ((s.iface vif).faultArea.1 + 0x10) 8 ((s.iface vif).lost + 1).toNat with
        | error => rfl
        | ok u => exact State.focus_of_writeVirtual h
      case isFalse =>
        split
        case h_1 => rfl
        case h_2 u hrecord =>
          split
          case h_1 => rfl
          case h_2 v hcount => exact (State.focus_of_writeVirtual hcount).trans (State.focus_of_writeVirtual hrecord)

theorem State.focus_interrupt (s : State) (vif count : Nat) (fault : Bool) : (s.interrupt vif count fault).focus = s.focus := by
  unfold State.interrupt
  dsimp only
  split <;> rfl

theorem State.focus_recordFault (s : State) (vif : Nat) (f : FaultInfo) : (s.recordFault vif f).1.focus = s.focus := by
  unfold State.recordFault
  dsimp only
  split
  · exact (State.focus_interrupt ..).trans (s.focus_writeFault vif f)
  · exact s.focus_writeFault vif f

theorem State.focus_mapElements (s : State) (sig : Nat) (f : Element → Element) : (s.mapElements sig f).focus = s.focus :=
  List.foldlRecOn (motive := fun u : State => u.focus = s.focus) _ _ rfl fun _ hu _ _ => hu

theorem State.focus_endByFault (s : State) (sig : Nat) : (s.endByFault sig).focus = s.focus := by
  have hbegin (u : State) : (u.beginEnd sig).focus = u.focus := rfl
  rw [State.endByFault, hbegin]
  split
  · exact s.focus_mapElements sig _
  · rfl

theorem State.focus_stopBegins (s : State) (sig : Nat) : (s.stopBegins sig).focus = s.focus := by
  obtain ⟨_, h⟩ := s.stopBegins_eq sig
  rw [h]

theorem State.focus_beginStop (s : State) (sig : Nat) (notes : List FaultNote) : (s.beginStop sig notes).focus = s.focus := by
  unfold State.beginStop
  extract_lets _ u
  rcases hnoted : List.foldl _ (u.stopBegins sig, true) notes with ⟨v, all⟩
  have hv : (v, all).1.focus = s.focus := by
    rw [← hnoted]
    exact List.foldlRecOn (motive := fun acc : State × Bool => acc.1.focus = s.focus) _ _ (u.focus_stopBegins sig)
      fun _ hacc _ _ => (State.focus_recordFault ..).trans hacc
  dsimp only
  split
  · exact hv
  · exact (State.focus_endByFault ..).trans hv

theorem State.focus_stopRecord (s : State) (sig : Nat) (n : FaultNote) : (s.stopRecord sig n).focus = s.focus := by
  unfold State.stopRecord
  dsimp only
  split
  case h_1 st _ =>
    split
    case isTrue =>
      have hrecord := s.focus_recordFault (s.sig sig).vif (n.info sig 2)
      split
      case h_1 h =>
        rw [h] at hrecord
        exact (State.focus_endByFault ..).trans hrecord
      case h_2 h =>
        rw [h] at hrecord
        exact hrecord
    case isFalse => exact s.focus_beginStop ..
  case h_2 => exact s.focus_beginStop ..

theorem State.focus_takeElementFault (s : State) (sig : Nat) (n : FaultNote) : (s.takeElementFault sig n).focus = s.focus := by
  unfold State.takeElementFault
  dsimp only
  split
  · rfl
  · split
    · exact s.focus_stopRecord sig n
    · rfl

/-- A word that has taken a fault performs nothing more (R126). -/
theorem State.suppressed_elementFault (s : State) (f : ElemFault) (slot : Nat) : (s.elementFault f slot).focus.suppressed = true := by
  unfold State.elementFault
  rw [State.focus_takeElementFault]

/-! ### What lies beyond the element in focus -/

/-- t is s but for the element in focus, the word in focus and the streams' books. -/
structure State.SparesOthers (s t : State) : Prop where
  memory : t.memory = s.memory
  folios : t.folios = s.folios
  ifaces : t.ifaces = s.ifaces
  requests : t.requests = s.requests
  journal : t.journal = s.journal
  elements : ∀ k, k ≠ (16 * (s.sig s.focus.sig).row0 + s.focus.row) * 384 + (16 * (s.sig s.focus.sig).col0 + s.focus.col) →
    t.elements.get Element.zero k = s.elements.get Element.zero k

theorem State.sparesOthers_withElem (s : State) (e : Element) : s.SparesOthers (s.withElem e) where
  memory := rfl
  folios := rfl
  ifaces := rfl
  requests := rfl
  journal := rfl
  elements := fun _ hk => Tab.get_set_other _ _ _ hk

/-- An instruction performed in an element changes that element, and otherwise does what its answer has it do, unless it faults. -/
theorem State.perform_unsuppressed {α : Type} {s : State} {m : ElemEnv → EM α} {answer : α → State → State}
    (h : (s.perform m answer).focus.suppressed = false) : ∃ x e, s.perform m answer = answer x (s.withElem e) := by
  unfold State.perform at h ⊢
  by_cases hs : s.focus.suppressed = true
  · rw [if_pos hs, hs] at h
    cases h
  · rw [if_neg hs] at h ⊢
    split at h
    · exact ⟨_, _, rfl⟩
    · rw [State.suppressed_elementFault] at h
      cases h

theorem State.sparesOthers_handOver (s : State) (e : Element) (h granules : Nat) : s.SparesOthers ((s.withElem e).handOver h granules) := by
  obtain ⟨hmemory, hfolios, hifaces, hrequests, hjournal, helements⟩ := s.sparesOthers_withElem e
  unfold State.handOver
  dsimp only
  split
  · exact ⟨hmemory, hfolios, hifaces, hrequests, hjournal, helements⟩
  · exact ⟨hmemory, hfolios, hifaces, hrequests, hjournal, helements⟩

/-- An instruction of the fabric maps performs an operation in the element in focus; VOTE and EGR have their answer go further. -/
theorem exec_fabric {i : Instr} {m : SlotMap} {b : SlotBits} (h : encode i = some (m, b)) (hm : m ≠ .spine) :
    (∃ act, ∀ s, exec i s = performSlot s act) ∨ (∃ f, i = .vote f) ∨ (∃ f, i = .egrVector f) ∨ ∃ f, i = .egrBuffer f := by
  cases i
  case vote f => exact .inr (.inl ⟨f, rfl⟩)
  case egrVector f => exact .inr (.inr (.inl ⟨f, rfl⟩))
  case egrBuffer f => exact .inr (.inr (.inr ⟨f, rfl⟩))
  all_goals cases h
  all_goals try exact absurd rfl hm
  all_goals exact .inl ⟨_, fun _ => rfl⟩

/-- Settles O38: an operation that does not fault sets the element in focus, and the answer of VOTE or EGR reaches the word in focus or a stream's
context besides. -/
theorem elementInstructionsTouchOneElement : Obligations.ElementInstructionsTouchOneElement := by
  unfold Obligations.ElementInstructionsTouchOneElement
  intro i m b s t hencode hm hexec hsuppressed
  have hspares : s.SparesOthers t := by
    rcases exec_fabric hencode hm with ⟨act, h⟩ | ⟨f, rfl⟩ | ⟨f, rfl⟩ | ⟨f, rfl⟩
    · rw [h] at hexec
      cases hexec
      obtain ⟨_, e, hperform⟩ := State.perform_unsuppressed hsuppressed
      rw [hperform]
      exact s.sparesOthers_withElem e
    · cases hexec
      obtain ⟨x, e, hperform⟩ := State.perform_unsuppressed hsuppressed
      rw [hperform]
      obtain ⟨hmemory, hfolios, hifaces, hrequests, hjournal, helements⟩ := s.sparesOthers_withElem e
      exact ⟨hmemory, hfolios, hifaces, hrequests, hjournal, helements⟩
    · cases hexec
      obtain ⟨done, e, hperform⟩ := State.perform_unsuppressed hsuppressed
      rw [hperform]
      cases done
      · exact s.sparesOthers_withElem e
      · exact s.sparesOthers_handOver e _ 1
    · cases hexec
      obtain ⟨n, e, hperform⟩ := State.perform_unsuppressed hsuppressed
      rw [hperform]
      exact s.sparesOthers_handOver e _ n
  exact ⟨fun a => by rw [hspares.memory], hspares.folios, hspares.ifaces, hspares.requests, hspares.journal, hspares.elements⟩

end Sys2Proof.Machine

/-!
PROOFS. Conversions (R107, R214): FRNDI of a zero under a σ that no register holds.
-/

namespace Sys2Proof.Machine

/-- Stochastic rounding with σ = 2³², one more than a 32-bit σ can be. -/
def oversizedSigma : Rounding := ⟨4, 2 ^ 32, false⟩

/-- RoundsTo takes a zero to 1 under that σ: it is the floor of 0 + σ / 2³². -/
theorem eq_one_of_roundsTo_zero {n : Nat} {e : Int} (h : RoundsTo oversizedSigma false ((0 : Nat) * 2 ^ e) n) : n = 1 := by
  obtain ⟨hle, hlt⟩ : (n : ℚ) ≤ (0 : Nat) * 2 ^ e + (2 ^ 32 : Nat) / 2 ^ 32 ∧ (0 : Nat) * 2 ^ e + ((2 ^ 32 : Nat) : ℚ) / 2 ^ 32 < n + 1 := h
  norm_num at hle hlt
  exact le_antisymm hle hlt

/-- FRNDI leaves +0 in FP32 as it is. -/
theorem readFormat_roundIntegral_zero : readFormat 9 (roundIntegral 9 oversizedSigma 0) = .num false 0 (-149) := by decide

theorem readFormat_largest : readFormat 9 (floatRow 9).largest = .num false (2 ^ 24 - 1) 104 := by decide

/-- Refutes O27: its last clause admits a Rounding of every σ, where σ has 32 bits. With σ = 2³² under SR the only integer that +0 rounds to by
RoundsTo is 1, and FRNDI gives +0. -/
theorem not_conversions : ¬ Obligations.Conversions := by
  unfold Obligations.Conversions
  rintro ⟨-, -, hfrndi⟩
  obtain ⟨-, -, hnum⟩ := hfrndi 9 oversizedSigma 0 (by decide) (by decide)
  obtain ⟨-, -, -, n, hrounds, hnumber⟩ := hnum false 0 (-149) (by decide)
  obtain rfl := eq_one_of_roundsTo_zero hrounds
  rw [readFormat_roundIntegral_zero, readFormat_largest] at hnumber
  norm_num [FVal.number] at hnumber

end Sys2Proof.Machine

/-!
PROOFS. Results of an element's instructions: operands under ring control (R54, R62), results that land later (R201), and what a run over the lanes
leaves in each of them (R100, R107, R126, R156).
-/

namespace Sys2Proof.Machine

/-! ### Operations that end without a fault -/

/-- m ends in element e' but for the event tally, from element e whatever its event tally. -/
def EM.Ends (m : EM Unit) (e e' : Element) : Prop := ∀ tally, ∃ tally', m { e with tally } = .ok ((), { e' with tally := tally' })

section Ends

variable {α : Type} {m : EM α} {e e' : Element} {x : α}

theorem EM.Reads.bind_ends {k : α → EM Unit} (h : m.Reads e x) (hk : (k x).Ends e e') : (m >>= k).Ends e e' := by
  intro tally
  obtain ⟨_, hm⟩ := h tally
  rw [EM.bind_ok hm]
  exact hk _

theorem EM.ends_get_bind {k : Element → EM Unit} (h : ∀ tally, (k { e with tally }).Ends e e') : ((get : EM Element) >>= k).Ends e e' :=
  fun tally => h tally tally

end Ends

/-- The element in focus with σ at a value and one more result to land (R201). -/
def State.queued (s : State) (latency : Nat) (slotB : Bool) (w : Write) (sigma : SWord) : Element :=
  { s.elem with sigma, pending := s.elem.pending ++ [⟨s.env.time + latency, s.env.n, slotB, s.env.gen, w⟩] }

theorem later_ends (s : State) (latency : Nat) (slotB : Bool) (w : Write) :
    (later s.env slotB latency w).Ends s.elem (s.queued latency slotB w s.elem.sigma) := fun tally => ⟨tally, rfl⟩

theorem setSigma_later_ends (s : State) (latency : Nat) (slotB : Bool) (w : Write) (sigma : SWord) :
    (modify (fun e : Element => { e with sigma }) >>= fun _ => later s.env slotB latency w : EM Unit).Ends s.elem
      (s.queued latency slotB w sigma) :=
  fun tally => ⟨tally, rfl⟩

/-- An instruction whose operation queues one result. -/
theorem State.queues_of_ends {s : State} {i : Instr} {m : ElemEnv → EM Unit} {latency : Nat} {slotB : Bool} {w : Write} {sigma : SWord}
    (hexec : exec i s = performSlot s m) (hs : s.focus.suppressed = false) (hm : (m s.env).Ends s.elem (s.queued latency slotB w sigma)) :
    s.Queues i latency slotB [w] sigma := by
  obtain ⟨tally, h⟩ := hm s.elem.tally
  exact ⟨tally, hexec.trans (performSlot_of_ok hs h)⟩

/-! ### Registers under ring control (R54, R55) -/

/-- The descriptor that puts a field under ring control. -/
def State.ringItem (s : State) (rx : BitVec 4) : Tagged 16 := s.elem.ring.get (Tagged.zero 16) (rx.extractLsb' 2 2).toNat

section Rings

variable {s : State} {rx : BitVec 4} {dest : Bool}

theorem State.mayRead_of_mayName (hring : ringed rx dest = true) (h : s.mayName rx dest = true) :
    s.mayRead (s.ringItem rx).gen (s.ringItem rx).poison = true := by
  rwa [State.mayName, hring, Bool.not_true, Bool.false_or] at h

theorem State.named_of_ringed (hring : ringed rx dest = true) (f : BitVec 5) :
    s.named rx dest f = if (s.ringItem rx).gen = s.env.gen then
      if 28 ≤ f.toNat then f.toNat else ringName (s.ringItem rx).data f.toNat else f.toNat := by
  rw [State.named, ← State.ringItem]
  by_cases hport : 28 ≤ f.toNat
  · simp [hport, Nat.not_lt.2 hport]
  · simp [hring, hport, Nat.not_le.1 hport]

theorem rename_reads (h : s.mayName rx dest = true) (f : BitVec 5) : (rename s.env rx dest f).Reads s.elem (s.named rx dest f) := by
  by_cases hring : ringed rx dest = true
  · rw [State.named_of_ringed hring, rename, if_pos (show (if dest then rx.getLsbD 0 else rx.getLsbD 1) = true from hring)]
    exact EM.reads_get_bind fun _ => readChecked_reads 1 0 (State.mayRead_of_mayName hring h) _ _
  · rw [State.named, if_neg fun hr => hring hr.1]
    exact rename_reads_of_unringed (Bool.eq_false_iff.2 hring) f

theorem sourceV_reads {f : BitVec 5} (h : s.maySource rx f = true) : (sourceV s.env rx f).Reads s.elem (s.source rx f) := by
  obtain ⟨hname, hread⟩ := Bool.and_eq_true_iff.1 h
  exact (rename_reads hname f).bind (readV_reads hread)

end Rings

/-! ### Numbers put together from lanes (R100) -/

/-- The number whose n lowest digits of w bits are given. -/
def laneSum (w : Nat) (digit : Nat → Nat) : Nat → Nat
  | 0 => 0
  | n + 1 => laneSum w digit n + digit n * 2 ^ (w * n)

section LaneSum

variable {w : Nat} {digit : Nat → Nat} (hdigit : ∀ i, digit i < 2 ^ w)

include hdigit

theorem laneSum_lt (n : Nat) : laneSum w digit n < 2 ^ (w * n) := by
  induction n with
  | zero => exact Nat.one_pos
  | succ n ih =>
    have htop : (digit n + 1) * 2 ^ (w * n) ≤ 2 ^ w * 2 ^ (w * n) := Nat.mul_le_mul_right _ (hdigit n)
    rw [laneSum, Nat.mul_succ, Nat.pow_add, Nat.mul_comm (2 ^ (w * n))]
    rw [Nat.add_mul, Nat.one_mul] at htop
    omega

theorem laneSum_digit {n j : Nat} (hj : j < n) : laneSum w digit n / 2 ^ (w * j) % 2 ^ w = digit j := by
  induction n with
  | zero => omega
  | succ n ih =>
    rw [laneSum]
    rcases Nat.lt_succ_iff_lt_or_eq.1 hj with hlow | rfl
    · have hsplit : digit n * 2 ^ (w * n) = 2 ^ (w * j) * (2 ^ w * (digit n * 2 ^ (w * (n - (j + 1))))) := by
        have hn : w * n = w * j + (w + w * (n - (j + 1))) := by
          obtain ⟨k, rfl⟩ := Nat.exists_eq_add_of_lt hlow
          rw [show j + k + 1 - (j + 1) = k by omega]
          ring
        rw [hn, Nat.pow_add, Nat.pow_add]
        ring
      rw [hsplit, Nat.add_mul_div_left _ _ (Nat.two_pow_pos _), Nat.add_mul_mod_self_left, ih hlow]
    · rw [Nat.add_mul_div_right _ _ (Nat.two_pow_pos _), Nat.div_eq_of_lt (laneSum_lt hdigit j), Nat.zero_add, Nat.mod_eq_of_lt (hdigit j)]

/-- Each lane of a vector that is put together from lanes. -/
theorem laneOf_laneSum {j : Nat} (hj : j < 512 / w) : laneOf (BitVec.ofNat 512 (laneSum w digit (512 / w))) j w = digit j := by
  have hfits := lt_of_lt_of_le (laneSum_lt hdigit (512 / w)) (Nat.pow_le_pow_right (j := 512) Nat.two_pos (Nat.mul_div_le 512 w))
  rw [laneOf, BitVec.toNat_ofNat, Nat.mod_eq_of_lt hfits, laneSum_digit hdigit hj]

end LaneSum

theorem laneOf_none (j w : Nat) : laneOf VSource.none.data j w = 0 := by
  rw [laneOf, show VSource.none.data = 0#512 from rfl, BitVec.toNat_zero, Nat.zero_div, Nat.zero_mod]

/-! ### A run over the lanes (R126, R156) -/

/-- Lane by lane from σ at `sigma 0`, an active lane i takes y i and leaves σ at `sigma (i + 1)`, and another leaves σ alone. -/
structure LaneRun (active : Nat → Bool) (op : Nat → SWord → Nat × SWord) (sigma : Nat → SWord) (y : Nat → Nat) : Prop where
  on : ∀ i, active i = true → op i (sigma i) = (y i, sigma (i + 1))
  off : ∀ i, active i = false → sigma (i + 1) = sigma i

section Run

variable {active : Nat → Bool} {op : Nat → SWord → Nat × SWord} {sigma : Nat → SWord} {y : Nat → Nat}

/-- The digits of a run: what its lanes hold, and which of them are written. -/
def laneDigit (w : Nat) (active : Nat → Bool) (y : Nat → Nat) (i : Nat) : Nat := if active i then y i % 2 ^ w else 0
def maskDigit (w : Nat) (active : Nat → Bool) (kz : Bool) (i : Nat) : Nat := if active i || kz then 2 ^ w - 1 else 0

theorem laneDigit_lt (w i : Nat) : laneDigit w active y i < 2 ^ w := by
  unfold laneDigit
  split
  · exact Nat.mod_lt _ (Nat.two_pow_pos w)
  · exact Nat.two_pow_pos w

theorem maskDigit_lt (w : Nat) (kz : Bool) (i : Nat) : maskDigit w active kz i < 2 ^ w := by
  have := Nat.two_pow_pos w
  unfold maskDigit
  split <;> omega

theorem runLanes_eq (h : LaneRun active op sigma y) (w count : Nat) (kz : Bool) :
    runLanes w 0 count active kz op (sigma 0)
      = ⟨laneSum w (laneDigit w active y) count, laneSum w (maskDigit w active kz) count, sigma count⟩ := by
  unfold runLanes
  induction count with
  | zero => rfl
  | succ n ih =>
    rw [List.range_succ, List.foldl_append, ih, List.foldl_cons, List.foldl_nil, laneStep, Nat.zero_add, laneSum, laneSum]
    unfold laneDigit maskDigit
    cases hactive : active n
    · rw [h.off n hactive]
      cases kz <;> simp
    · simp [h.on n hactive]

theorem lanes_laneSum (w : Nat) (active : Nat → Bool) (kz : Bool) (y : Nat → Nat) :
    Lanes w 0 (512 / w) active kz y (.ofNat 512 (laneSum w (laneDigit w active y) (512 / w)))
      (.ofNat 512 (laneSum w (maskDigit w active kz) (512 / w))) := by
  intro j hj
  rw [laneOf_laneSum (laneDigit_lt w) hj, laneOf_laneSum (maskDigit_lt w kz) hj, laneDigit, maskDigit]
  cases active j <;> simp [hj]

end Run

theorem Lanes.congr {w first count : Nat} {active : Nat → Bool} {kz : Bool} {y z : Nat → Nat} {data mask : Vec}
    (h : Lanes w first count active kz y data mask) (hyz : ∀ j, y j = z j) : Lanes w first count active kz z data mask := by
  rwa [← funext hyz]

/-- Lanes that round nothing leave σ. -/
theorem laneRun_exact (active : Nat → Bool) (y : Nat → Nat) (σ : SWord) : LaneRun active (fun i σ => (y i, σ)) (fun _ => σ) y :=
  ⟨fun _ _ => rfl, fun _ _ => rfl⟩

/-! ### Roundings in lane order (R107) -/

theorem stepSigmas_succ (n : Nat) (σ : SWord) : stepSigmas (n + 1) σ = stepSigma (stepSigmas n σ) := by
  induction n generalizing σ with
  | zero => rfl
  | succ n ih => exact ih (stepSigma σ)

theorem nextRounding_sigmaAfter (code : Nat) (ovf : Bool) (n : Nat) (σ : SWord) :
    nextRounding code ovf (sigmaAfter code n σ) = (nthRounding code ovf σ n, sigmaAfter code (n + 1) σ) := by
  unfold nextRounding sigmaAfter nthRounding
  split <;> simp [stepSigmas_succ]

theorem sigmaAfter_zero (code : Nat) (σ : SWord) : sigmaAfter code 0 σ = σ := by
  unfold sigmaAfter
  split <;> rfl

theorem activeBelow_succ (active : Nat → Bool) (j : Nat) : activeBelow active 0 (j + 1) = activeBelow active 0 j + if active j then 1 else 0 := by
  simp only [activeBelow, Nat.sub_zero, Nat.zero_add, List.range_succ, List.filter_append, List.length_append]
  cases h : active j <;> simp [h]

theorem activeBelow_all (j : Nat) : activeBelow (fun _ => true) 0 j = j := by simp [activeBelow]

/-- Lanes that round once each: an active lane takes the rounding of its rank among them. -/
theorem laneRun_rounded (active : Nat → Bool) (code : Nat) (ovf : Bool) (σ : SWord) (g : Nat → Rounding → Nat) :
    LaneRun active (fun i σ => (g i (nextRounding code ovf σ).1, (nextRounding code ovf σ).2))
      (fun j => sigmaAfter code (activeBelow active 0 j) σ) (fun j => g j (nthRounding code ovf σ (activeBelow active 0 j))) := by
  refine ⟨fun i hi => ?_, fun i hi => ?_⟩
  · simp only [nextRounding_sigmaAfter, activeBelow_succ, hi, if_true]
  · simp [activeBelow_succ, hi]

/-! ### Lane-wise instructions -/

section LaneWise

variable {s : State} {rx : BitVec 4} {kp : BitVec 3} {op : Nat → SWord → Nat × SWord} {sigma : Nat → SWord} {y : Nat → Nat}

/-- A lane-wise operation queues its lanes and leaves σ as its last active lane does. -/
theorem laneWise_ends (hname : s.mayName rx true = true) (hk : s.mayReadK kp.toNat = true) (w : Nat)
    (hsigma : sigma 0 = s.elem.sigma) (hrun : LaneRun (s.active kp w) op sigma y) (vd : BitVec 5) (kz : Bool) (fmt : BitVec 4)
    (latency : Nat) (scaled : Bool) :
    ∃ data mask, (laneWise s.env rx vd kp kz fmt w 0 (512 / w) latency scaled op).Ends s.elem
        (s.queued latency false (.v (s.named rx true vd) data mask fmt scaled) (sigma (512 / w)))
      ∧ Lanes w 0 (512 / w) (s.active kp w) kz y data mask := by
  have hends : (laneWise s.env rx vd kp kz fmt w 0 (512 / w) latency scaled op).Ends s.elem
      (s.queued latency false (.v (s.named rx true vd)
        (.ofNat 512 (runLanes w 0 (512 / w) (s.active kp w) kz op s.elem.sigma).data)
        (.ofNat 512 (runLanes w 0 (512 / w) (s.active kp w) kz op s.elem.sigma).mask) fmt scaled)
        (runLanes w 0 (512 / w) (s.active kp w) kz op s.elem.sigma).sigma) :=
    (rename_reads hname vd).bind_ends ((readK_reads hk).bind_ends (EM.ends_get_bind fun _ => setSigma_later_ends s latency false _ _))
  rw [← hsigma, runLanes_eq hrun w (512 / w) kz] at hends
  exact ⟨_, _, hends, lanes_laneSum w (s.active kp w) kz y⟩

end LaneWise

end Sys2Proof.Machine

/-!
PROOFS. Lane-wise instructions (R200), and the results of the integer ones (R202, R204).
-/

namespace Sys2Proof.Machine

/-! ### Instructions that write their lanes (R200) -/

theorem State.mayPerform_iff {s : State} {f : AV} {sources : List (BitVec 5)} :
    s.mayPerform f sources = true ↔ s.focus.suppressed = false ∧ guardAny s.env (laneWidth f.ty) = true
      ∧ (∀ v ∈ sources, s.maySource f.rx v = true) ∧ s.mayName f.rx true = true ∧ s.mayReadK f.kp.toNat = true := by
  simp [State.mayPerform, and_assoc]

/-- A vector source, where an instruction has it. -/
def State.sourceIf (s : State) (uses : Bool) (rx : BitVec 4) (v : BitVec 5) : VSource := if uses then s.source rx v else VSource.none

theorem sourceIf_bind_ends {s : State} {uses : Bool} {rx : BitVec 4} {v : BitVec 5} {k : VSource → EM Unit} {e : Element}
    (h : uses = true → s.maySource rx v = true) (hk : (k (s.sourceIf uses rx v)).Ends s.elem e) :
    (if uses then sourceV s.env rx v >>= k else pure VSource.none >>= k).Ends s.elem e := by
  cases uses
  · exact (EM.reads_pure _ _).bind_ends hk
  · exact (sourceV_reads (h rfl)).bind_ends hk

/-- The operation m writes vd lane by lane in the element in focus. -/
def State.LanesEnd (s : State) (m : EM Unit) (f : AV) (latency : Nat) (scaled : Bool) (sigma : SWord) (op : Nat → Nat) : Prop :=
  ∃ data mask, m.Ends s.elem (s.queued latency false (.v (s.named f.rx true f.vd) data mask f.ty scaled) sigma)
    ∧ Lanes (laneWidth f.ty) 0 (512 / laneWidth f.ty) (s.active f.kp (laneWidth f.ty)) (f.kz == 1) op data mask

theorem State.LanesEnd.writesLanes {s : State} {i : Instr} {m : ElemEnv → EM Unit} {f : AV} {latency : Nat} {scaled : Bool} {sigma : SWord}
    {op : Nat → Nat} (h : s.LanesEnd (m s.env) f latency scaled sigma op) (hexec : exec i s = performSlot s m)
    (hs : s.focus.suppressed = false) : s.WritesLanes i f latency scaled sigma op := by
  obtain ⟨data, mask, hends, hlanes⟩ := h
  exact ⟨data, mask, State.queues_of_ends hexec hs hends, hlanes⟩

section Shapes

variable {s : State} {f : AV} {sources : List (BitVec 5)} {usesVb usesVc : Bool}
  (hperform : s.mayPerform f sources = true) (hva : f.va ∈ sources) (hvb : usesVb = true → f.vb ∈ sources)
  (hvc : usesVc = true → f.vc ∈ sources)

include hperform hva hvb hvc

theorem intLanes_ends (latency : Nat) (op : Nat → Nat → Nat → Nat) :
    s.LanesEnd (intLanes s.env f latency usesVb usesVc op) f latency false s.elem.sigma fun j =>
      op (laneOf (s.source f.rx f.va).data j (laneWidth f.ty)) (laneOf (s.sourceIf usesVb f.rx f.vb).data j (laneWidth f.ty))
        (laneOf (s.sourceIf usesVc f.rx f.vc).data j (laneWidth f.ty)) := by
  obtain ⟨-, hguard, hsources, hname, hk⟩ := State.mayPerform_iff.1 hperform
  obtain ⟨data, mask, hends, hlanes⟩ := laneWise_ends hname hk (laneWidth f.ty) rfl (laneRun_exact (s.active f.kp (laneWidth f.ty)) _ s.elem.sigma)
    f.vd (f.kz == 1) f.ty latency false
  refine ⟨data, mask, ?_, hlanes⟩
  rw [intLanes, hguard]
  exact (sourceV_reads (hsources _ hva)).bind_ends (sourceIf_bind_ends (fun h => hsources _ (hvb h))
    (sourceIf_bind_ends (fun h => hsources _ (hvc h)) hends))

theorem permuteLanes_ends (latency : Nat) (op : Vec → Vec → Vec → Nat → Nat) :
    s.LanesEnd (permuteLanes s.env f latency usesVb usesVc op) f latency (s.source f.rx f.va).scaled s.elem.sigma
      (op (s.source f.rx f.va).data (s.sourceIf usesVb f.rx f.vb).data (s.sourceIf usesVc f.rx f.vc).data) := by
  obtain ⟨-, hguard, hsources, hname, hk⟩ := State.mayPerform_iff.1 hperform
  obtain ⟨data, mask, hends, hlanes⟩ := laneWise_ends hname hk (laneWidth f.ty) rfl (laneRun_exact (s.active f.kp (laneWidth f.ty)) _ s.elem.sigma)
    f.vd (f.kz == 1) f.ty latency (s.source f.rx f.va).scaled
  refine ⟨data, mask, ?_, hlanes⟩
  rw [permuteLanes, hguard]
  exact (sourceV_reads (hsources _ hva)).bind_ends (sourceIf_bind_ends (fun h => hsources _ (hvb h))
    (sourceIf_bind_ends (fun h => hsources _ (hvc h)) hends))

end Shapes

/-! ### Rows of the tables of lane-wise results -/

/-- Lane j of a source, or 0 for a register that is no source. -/
def State.laneIn (s : State) (f : AV) (sources : List (BitVec 5)) (v : BitVec 5) (j : Nat) : Nat :=
  if v ∈ sources then laneOf (s.source f.rx v).data j (laneWidth f.ty) else 0

/-- Wherever c f may be performed, it writes op of its source lanes to its active lanes. -/
def ComputesLanes (f : AV) (c : AV → Instr) (latency : Nat) (sources : List (BitVec 5)) (op : Nat → Nat → Nat → Nat) : Prop :=
  ∀ s : State, s.mayPerform f sources = true → s.WritesLanes (c f) f latency false s.elem.sigma fun j =>
    op (s.laneIn f sources f.va j) (s.laneIn f sources f.vb j) (s.laneIn f sources f.vc j)

section Rows

variable {f : AV} {c : AV → Instr} {latency : Nat}

theorem computesLanes_one {op g : Nat → Nat}
    (hexec : ∀ s, exec (c f) s = performSlot s fun env => intLanes env f latency false false fun a _ _ => g a) (h : ∀ a, g a = op a) :
    ComputesLanes f c latency [f.va] fun a _ _ => op a := by
  intro s hs
  have hends := intLanes_ends (usesVb := false) (usesVc := false) hs (by simp) nofun nofun latency fun a _ _ => g a
  obtain rfl : g = op := funext h
  simpa [State.laneIn, State.sourceIf] using hends.writesLanes (hexec s) (State.mayPerform_iff.1 hs).1

theorem computesLanes_two {op g : Nat → Nat → Nat}
    (hexec : ∀ s, exec (c f) s = performSlot s fun env => intLanes env f latency true false fun a b _ => g a b) (h : ∀ a b, g a b = op a b) :
    ComputesLanes f c latency [f.va, f.vb] fun a b _ => op a b := by
  intro s hs
  have hends := intLanes_ends (usesVb := true) (usesVc := false) hs (by simp) (by simp) nofun latency fun a b _ => g a b
  obtain rfl : g = op := funext₂ h
  simpa [State.laneIn, State.sourceIf] using hends.writesLanes (hexec s) (State.mayPerform_iff.1 hs).1

theorem computesLanes_three {op g : Nat → Nat → Nat → Nat}
    (hexec : ∀ s, exec (c f) s = performSlot s fun env => intLanes env f latency true true g) (h : ∀ a b c, g a b c = op a b c) :
    ComputesLanes f c latency [f.va, f.vb, f.vc] op := by
  intro s hs
  have hends := intLanes_ends (usesVb := true) (usesVc := true) hs (by simp) (by simp) (by simp) latency g
  obtain rfl : g = op := funext₃ h
  simpa [State.laneIn, State.sourceIf] using hends.writesLanes (hexec s) (State.mayPerform_iff.1 hs).1

end Rows

/-! ### Integer results (R202, R204) -/

theorem clampInt_eq {lo hi : Int} (h : lo ≤ hi) (x : Int) : clampInt x lo hi = max lo (min hi x) := by
  unfold clampInt
  split_ifs <;> omega

theorem intLo_le_intHi : ∀ f : BitVec 4, intLo f ≤ intHi f := by decide

theorem narrow_eq_fitted (f : AV) (x : Int) : narrow f.ty (f.md == 1) x = fitted f x := by
  simp [narrow, fitted, wrapInt, clampInt_eq (intLo_le_intHi f.ty)]

theorem roundHalf_eq_halfTerm (f : AV) (n : Nat) : (roundHalf (f.md == 1) n : Int) = halfTerm f n := by
  simp [roundHalf, halfTerm, Nat.one_le_iff_ne_zero, Nat.pos_iff_ne_zero]

theorem wrapInt_shiftDown (f : AV) (x : Int) (n w : Nat) :
    wrapInt (shiftDown (x + roundHalf (f.md == 1) n) n) w = ((x + halfTerm f n) / 2 ^ n % 2 ^ w).toNat := by
  rw [wrapInt, shiftDown, roundHalf_eq_halfTerm]
  push_cast
  rfl

theorem lanesVshr_eq (f : AV) (a b : Nat) :
    lanesVshr f.ty (f.md == 1) a b = (((a : Int) + halfTerm f b) / 2 ^ b % 2 ^ laneWidth f.ty).toNat := by
  rw [lanesVshr, ← roundHalf_eq_halfTerm]
  norm_cast

theorem lanesVshl_eq (f : AV) (a b : Nat) : lanesVshl f.ty (f.md == 1) a b = fitted f (intValue f.ty a * 2 ^ b) := by
  rw [lanesVshl, narrow_eq_fitted]
  push_cast
  rfl

theorem lanesVabs_eq (f : AV) (a : Nat) : lanesVabs f.ty (f.md == 1) a = fitted f |intValue f.ty a| := by
  rw [lanesVabs, narrow_eq_fitted, Int.natCast_natAbs]

theorem leadingZeros_eq (w a : Nat) : leadingZeros w a = w - a.size := by
  unfold leadingZeros
  split
  next h => simp [h]
  next h =>
    have hsize : a.size = Nat.log2 a + 1 := le_antisymm (Nat.size_le.2 Nat.lt_log2_self) (Nat.lt_size.2 (Nat.log2_self_le h))
    omega

theorem onesBelow_eq (w a : Nat) : onesBelow w a = ((Finset.range w).filter fun i => a.testBit i).card := by
  unfold onesBelow
  induction w with
  | zero => rfl
  | succ w ih =>
    rw [List.range_succ, List.foldl_append, ih, Finset.range_add_one, Finset.filter_insert]
    cases h : a.testBit w <;> simp [h]

theorem computesLanes_integer (f : AV) : ∀ x ∈ integerLanes f, ComputesLanes f x.1 x.2.1 x.2.2.1 x.2.2.2 := by
  simp only [integerLanes, List.forall_mem_cons, List.not_mem_nil, false_imp_iff, implies_true, and_true]
  refine ⟨computesLanes_two (fun _ => rfl) fun a b => narrow_eq_fitted f _, computesLanes_two (fun _ => rfl) fun a b => narrow_eq_fitted f _,
    computesLanes_two (fun _ => rfl) fun a b => narrow_eq_fitted f _, computesLanes_two (fun _ => rfl) fun a b => wrapInt_shiftDown f _ _ _,
    computesLanes_three (fun _ => rfl) fun a b c => narrow_eq_fitted f _, computesLanes_two (fun _ => rfl) fun a b => rfl,
    computesLanes_two (fun _ => rfl) fun a b => rfl, computesLanes_two (fun _ => rfl) fun a b => rfl,
    computesLanes_two (fun _ => rfl) fun a b => lanesVshl_eq f a b, computesLanes_two (fun _ => rfl) fun a b => lanesVshr_eq f a b,
    computesLanes_two (fun _ => rfl) fun a b => wrapInt_shiftDown f _ _ _, computesLanes_two (fun _ => rfl) fun a b => rfl,
    computesLanes_two (fun _ => rfl) fun a b => rfl, computesLanes_one (fun _ => rfl) fun a => lanesVabs_eq f a,
    computesLanes_one (fun _ => rfl) fun a => leadingZeros_eq _ a, computesLanes_one (fun _ => rfl) fun a => onesBelow_eq _ a⟩

end Sys2Proof.Machine

/-!
PROOFS. Immediate lanes (R133, R206, R209), float lanes that do not round by md (R210, R211), and permutations (R217 to R219).
-/

namespace Sys2Proof.Machine

/-! ### Immediate results (R133, R206, R209) -/

/-- Instruction i writes vd of an immediate instruction lane by lane. -/
def State.WritesImmediate (s : State) (i : Instr) (f : AI) (latency : Nat) (sigma : SWord) (op : Nat → Nat) : Prop :=
  ∃ data mask, s.Queues i latency false [.v f.vd.toNat data mask f.ty false] sigma
    ∧ Lanes (laneWidth f.ty) 0 (512 / laneWidth f.ty) (s.active f.kp (laneWidth f.ty)) (f.kz == 1) op data mask

section Immediate

variable {s : State} {f : AI} {i : Instr} {m : ElemEnv → EM Unit} {latency : Nat} {usesVa : Bool}
  (hexec : exec i s = performSlot s m)
  (hready : s.focus.suppressed = false ∧ guardAny s.env (laneWidth f.ty) = true ∧ s.mayReadK f.kp.toNat = true)
  (hva : usesVa = true → s.mayReadV f.va.toNat = true)

/-- The vector of an immediate instruction, where it reads one. -/
def State.immSource (s : State) (usesVa : Bool) (f : AI) : VSource := if usesVa then s.seenV f.va.toNat else VSource.none

include hexec hready hva

theorem writesImmediate_of_run {op : Nat → SWord → Nat × SWord} {sigma : Nat → SWord} {y : Nat → Nat} (hsigma : sigma 0 = s.elem.sigma)
    (hrun : LaneRun (s.active f.kp (laneWidth f.ty)) (fun j => op (laneOf (s.immSource usesVa f).data j (laneWidth f.ty))) sigma y)
    (hm : m s.env = immLanes s.env f latency usesVa op) : s.WritesImmediate i f latency (sigma (512 / laneWidth f.ty)) y := by
  obtain ⟨hs, hguard, hk⟩ := hready
  have hname : s.mayName 0 true = true := rfl
  have hnamed : s.named 0 true f.vd = f.vd.toNat := by simp [State.named, ringed]
  obtain ⟨data, mask, hends, hlanes⟩ := laneWise_ends hname hk (laneWidth f.ty) hsigma hrun f.vd (f.kz == 1) f.ty latency false
  rw [hnamed] at hends
  refine ⟨data, mask, State.queues_of_ends hexec hs ?_, hlanes⟩
  rw [hm, immLanes, hguard]
  cases usesVa
  · exact (EM.reads_pure _ _).bind_ends hends
  · exact (readV_reads (hva rfl)).bind_ends hends

end Immediate

/-- Where c f may read what it reads, it writes op of the lanes of va to its active lanes. -/
def State.ComputesImmediate (s : State) (f : AI) (c : AI → Instr) (latency : Nat) (reads : Bool) (op : Nat → Nat) : Prop :=
  (reads = true → s.mayReadV f.va.toNat = true) → s.WritesImmediate (c f) f latency s.elem.sigma fun j =>
    op (if reads then laneOf (s.seenV f.va.toNat).data j (laneWidth f.ty) else 0)

section ImmediateRows

variable {s : State} {f : AI} (hready : s.focus.suppressed = false ∧ guardAny s.env (laneWidth f.ty) = true ∧ s.mayReadK f.kp.toNat = true)

include hready

theorem computesImmediate_of_immLanes {c : AI → Instr} {latency : Nat} {reads : Bool} {op : Nat → Nat} {m : ElemEnv → EM Unit}
    (hexec : exec (c f) s = performSlot s m) (hm : m s.env = immLanes s.env f latency reads fun a σ => (op a, σ)) :
    s.ComputesImmediate f c latency reads op := by
  intro hva
  have hlanes := writesImmediate_of_run hexec hready hva (sigma := fun _ => s.elem.sigma) rfl (laneRun_exact _ _ _) hm
  cases reads <;> simpa [State.immSource, laneOf_none] using hlanes

theorem computesImmediate_immediateLanes :
    ∀ x ∈ immediateLanes f (capturedOvf s.env.mode), s.ComputesImmediate f x.1 x.2.1 x.2.2.1 x.2.2.2 := by
  have himm : immValue f = (f.imm.toInt % 2 ^ laneWidth f.ty).toNat := by
    rw [immValue, wrapInt]
    push_cast
    rfl
  simp only [immediateLanes, List.forall_mem_cons, List.not_mem_nil, false_imp_iff, implies_true, and_true, ← himm]
  exact ⟨computesImmediate_of_immLanes hready rfl rfl, computesImmediate_of_immLanes hready rfl rfl,
    computesImmediate_of_immLanes hready rfl rfl, computesImmediate_of_immLanes hready rfl rfl,
    computesImmediate_of_immLanes hready rfl rfl, computesImmediate_of_immLanes hready rfl rfl⟩

end ImmediateRows

theorem writesImmediate_fmuli {s : State} {f : AI}
    (hready : s.focus.suppressed = false ∧ guardAny s.env (laneWidth f.ty) = true ∧ s.mayReadK f.kp.toNat = true)
    (hva : s.mayReadV f.va.toNat = true) :
    let code := (s.env.mode.extractLsb' 4 3).toNat
    let rank := activeBelow (s.active f.kp (laneWidth f.ty)) 0
    s.WritesImmediate (.fmuli f) f 4 (sigmaAfter code (rank (512 / laneWidth f.ty)) s.elem.sigma) fun j =>
      convertTo f.ty (nthRounding code (capturedOvf s.env.mode) s.elem.sigma (rank j))
        ((readFormat f.ty (laneOf (s.seenV f.va.toNat).data j (laneWidth f.ty))).mul ((floatFormat fp32).read (f.imm.toNat * 4))) :=
  writesImmediate_of_run (usesVa := true) (m := elemFmuli f) rfl hready (fun _ => hva) (sigmaAfter_zero _ _)
    (laneRun_rounded _ _ _ _ fun j r => convertTo f.ty r ((readFormat f.ty (laneOf (s.seenV f.va.toNat).data j (laneWidth f.ty))).mul (f30 f.imm))) rfl

/-- Settles O23: every row of the two tables, and FMULI, whose lanes round in order. -/
theorem integerResults : Obligations.IntegerResults := by
  unfold Obligations.IntegerResults
  refine ⟨fun s f c latency sources op hrow => computesLanes_integer f _ hrow s, fun s f => ⟨?_, writesImmediate_fmuli⟩⟩
  intro c latency reads op hrow hready hva
  exact computesImmediate_immediateLanes hready _ hrow hva

/-! ### Float lanes without a rounding (R210, R211) -/

theorem computesLanes_exactFloat (f : AV) : ∀ x ∈ exactFloatLanes f, ComputesLanes f x.1 x.2.1 x.2.2.1 fun a b _ => x.2.2.2 a b := by
  simp only [exactFloatLanes, List.forall_mem_cons, List.not_mem_nil, false_imp_iff, implies_true, and_true]
  exact ⟨computesLanes_two (fun _ => rfl) fun _ _ => rfl, computesLanes_two (fun _ => rfl) fun _ _ => rfl,
    computesLanes_one (fun _ => rfl) fun _ => rfl, computesLanes_one (fun _ => rfl) fun _ => rfl, computesLanes_one (fun _ => rfl) fun _ => rfl,
    computesLanes_one (fun _ => rfl) fun _ => rfl, computesLanes_one (fun _ => rfl) fun _ => rfl, computesLanes_one (fun _ => rfl) fun _ => rfl,
    computesLanes_one (fun _ => rfl) fun _ => rfl⟩

/-! ### Permutations (R217 to R219) -/

/-- A vector source, or zeros for a register that is no source. -/
def State.vecIn (s : State) (f : AV) (sources : List (BitVec 5)) (v : BitVec 5) : Vec := if v ∈ sources then (s.source f.rx v).data else 0

/-- Wherever c f may be performed, it writes lane i of vd as op of its source vectors has it, scaled where va is. -/
def PermutesLanes (f : AV) (c : AV → Instr) (latency : Nat) (sources : List (BitVec 5)) (op : Vec → Vec → Vec → Nat → Nat) : Prop :=
  ∀ s : State, s.mayPerform f sources = true → s.WritesLanes (c f) f latency (s.source f.rx f.va).scaled s.elem.sigma
    (op (s.vecIn f sources f.va) (s.vecIn f sources f.vb) (s.vecIn f sources f.vc))

theorem State.sourceIf_data {s : State} {f : AV} {sources : List (BitVec 5)} {uses : Bool} {v : BitVec 5} (hv : uses = true → v ∈ sources) :
    (s.sourceIf uses f.rx v).data = if uses then s.vecIn f sources v else 0 := by
  cases uses
  · rfl
  · exact (if_pos (hv rfl)).symm

theorem permutesLanes_of_permuteLanes {f : AV} {c : AV → Instr} {latency : Nat} {sources : List (BitVec 5)} (usesVb usesVc : Bool)
    {op g : Vec → Vec → Vec → Nat → Nat} {m : ElemEnv → EM Unit} (hexec : ∀ s, exec (c f) s = performSlot s m)
    (hm : ∀ env, m env = permuteLanes env f latency usesVb usesVc g) (hva : f.va ∈ sources) (hvb : usesVb = true → f.vb ∈ sources) (hvc : usesVc = true → f.vc ∈ sources)
    (h : ∀ a b c, g a (if usesVb then b else 0) (if usesVc then c else 0) = op a b c) : PermutesLanes f c latency sources op := by
  intro s hs
  have hends := permuteLanes_ends hs hva hvb hvc latency g
  rw [← hm] at hends
  rw [State.sourceIf_data hvb, State.sourceIf_data hvc, h, ← if_pos (t := (s.source f.rx f.va).data) (e := 0) hva] at hends
  exact hends.writesLanes (hexec s) (State.mayPerform_iff.1 hs).1

section Permute

variable (f : AV) (env : ElemEnv)

/-- Lane t of the vector x, or of y for the lanes beyond x. -/
def laneFromTwo (w : Nat) (x y : Vec) (t : Nat) : Nat := if t < 512 / w then laneOf x t w else laneOf y (t - 512 / w) w

theorem elemVshuf_eq : elemVshuf f env = permuteLanes env f 2 true true fun a b c i =>
    if 128 ≤ laneOf b i 8 then 0 else laneFromTwo (laneWidth f.ty) a c (laneOf b i 8 % 128 % (2 * (512 / laneWidth f.ty))) := by
  unfold elemVshuf
  rfl

theorem elemVrot_eq : elemVrot f env = permuteLanes env f 1 false false fun a _ _ i =>
    laneOf a ((i + laneIndex f) % (512 / laneWidth f.ty)) (laneWidth f.ty) := by
  unfold elemVrot
  rfl

theorem elemVext_eq : elemVext f env = permuteLanes env f 1 true false fun a b _ i => laneFromTwo (laneWidth f.ty) a b (i + laneIndex f) := by
  unfold elemVext
  rfl

theorem elemVins_eq : elemVins f env = permuteLanes env f 1 true false fun a b _ i =>
    if i = laneIndex f then laneOf b 0 (laneWidth f.ty) else laneOf a i (laneWidth f.ty) := by
  unfold elemVins
  rfl

end Permute

theorem permutesLanes_permutedLanes (f : AV) : ∀ x ∈ permutedLanes f, PermutesLanes f x.1 x.2.1 x.2.2.1 x.2.2.2 := by
  simp only [permutedLanes, List.forall_mem_cons, List.not_mem_nil, false_imp_iff, implies_true, and_true]
  refine ⟨permutesLanes_of_permuteLanes true true (fun _ => rfl) (elemVshuf_eq f) (by simp) (by simp) (by simp) fun a b c => ?vshuf,
    permutesLanes_of_permuteLanes false false (fun _ => rfl) (elemVrot_eq f) (by simp) nofun nofun fun _ _ _ => rfl,
    permutesLanes_of_permuteLanes false false (fun _ => rfl) (fun _ => rfl) (by simp) nofun nofun fun _ _ _ => rfl,
    permutesLanes_of_permuteLanes true false (fun _ => rfl) (elemVins_eq f) (by simp) (by simp) nofun fun _ _ _ => rfl,
    permutesLanes_of_permuteLanes true false (fun _ => rfl) (elemVext_eq f) (by simp) (by simp) nofun fun _ _ _ => rfl⟩
  case vshuf =>
    funext i
    refine ite_congr rfl (fun _ => rfl) fun hlow => ?_
    simp only [if_true, Nat.mod_eq_of_lt (Nat.not_le.1 hlow)]
    rfl

/-- Settles O29: every row of the table of permutations. -/
theorem permutations : Obligations.Permutations := by
  unfold Obligations.Permutations
  exact fun s f c latency sources op hrow => permutesLanes_permutedLanes f _ hrow s

end Sys2Proof.Machine

/-!
PROOFS. Comparisons and selection (R207, R208, R213): predicates put together bit by bit, and the order of numbers.
-/

namespace Sys2Proof.Machine

/-! ### Predicates put together bit by bit -/

theorem getLsbD_or_one_shiftLeft (x : Word) {j k : Nat} (hk : k < 64) : (x ||| (1 : Word) <<< j).getLsbD k = (x.getLsbD k || decide (k = j)) := by
  have hone : (1 : Word).getLsbD (k - j) = decide (k - j = 0) := by simp [BitVec.getLsbD_one]
  rw [BitVec.getLsbD_or, BitVec.getLsbD_shiftLeft, hone, decide_eq_true hk, Bool.true_and]
  grind

/-- Each bit of a predicate made by a test of the byte number. -/
theorem getLsbD_bitsWhere (test : Nat → Bool) {k : Nat} (hk : k < 64) : (bitsWhere test).getLsbD k = test k := by
  have hfold (n : Nat) : ((List.range n).foldl (fun acc i => if test i then acc ||| ((1 : Word) <<< i) else acc) 0).getLsbD k
      = (decide (k < n) && test k) := by
    induction n with
    | zero => simp
    | succ n ih =>
      rw [List.range_succ, List.foldl_append, List.foldl_cons, List.foldl_nil]
      by_cases htest : test n = true
      · rw [if_pos htest, getLsbD_or_one_shiftLeft _ hk, ih]
        grind
      · rw [if_neg htest, ih]
        grind
  rw [bitsWhere, hfold, decide_eq_true hk, Bool.true_and]

/-- What one byte adds to the predicate of a comparison. -/
def compareByte (on kz truth : Bool) (acc : PredAcc) (j : Nat) : PredAcc :=
  if on then ⟨if truth then acc.data ||| (1 : Word) <<< j else acc.data, acc.mask ||| (1 : Word) <<< j⟩
  else if kz then { acc with mask := acc.mask ||| (1 : Word) <<< j }
  else acc

theorem getLsbD_compareByte (on kz truth : Bool) (acc : PredAcc) (j : Nat) {k : Nat} (hk : k < 64) :
    (compareByte on kz truth acc j).mask.getLsbD k = (acc.mask.getLsbD k || (decide (k = j) && (on || kz)))
      ∧ (compareByte on kz truth acc j).data.getLsbD k = (acc.data.getLsbD k || (decide (k = j) && (on && truth))) := by
  have hset (x : Word) : (x ||| (1 : Word) <<< j).getLsbD k = (x.getLsbD k || decide (k = j)) := getLsbD_or_one_shiftLeft x hk
  cases on
  · rw [compareByte, if_neg Bool.false_ne_true]
    cases kz
    · simp
    · rw [if_pos rfl, hset]
      simp
  · rw [compareByte, if_pos rfl, hset]
    cases truth
    · simp
    · rw [if_pos rfl, hset]
      simp

/-- The truth of a comparison for byte k: for 4-bit lanes that of both lanes of the byte (R207). -/
def byteTruth (w : Nat) (truth : Nat → Bool) (k : Nat) : Bool :=
  if w = 4 then truth (k * 8 / w) && truth (k * 8 / w + 1) else truth (k * 8 / w)

/-- Each bit of a comparison's predicate and of its mask (R207). -/
theorem getLsbD_comparePredicate (w : Nat) (active : Nat → Bool) (kz : Bool) (truth : Nat → Bool) {k : Nat} (hk : k < 64) :
    (comparePredicate w active kz truth).mask.getLsbD k = (active (k * 8 / w) || kz)
      ∧ (comparePredicate w active kz truth).data.getLsbD k = (active (k * 8 / w) && byteTruth w truth k) := by
  have hfold (n : Nat) :
      let acc := (List.range n).foldl (fun acc j => compareByte (active (j * 8 / w)) kz (byteTruth w truth j) acc j) ⟨0, 0⟩
      acc.mask.getLsbD k = (decide (k < n) && (active (k * 8 / w) || kz))
        ∧ acc.data.getLsbD k = (decide (k < n) && (active (k * 8 / w) && byteTruth w truth k)) := by
    induction n with
    | zero => simp
    | succ n ih =>
      obtain ⟨hmask, hdata⟩ := ih
      simp only [List.range_succ, List.foldl_append, List.foldl_cons, List.foldl_nil]
      rw [(getLsbD_compareByte _ _ _ _ _ hk).1, (getLsbD_compareByte _ _ _ _ _ hk).2, hmask, hdata]
      by_cases hn : k = n
      · subst hn
        simp
      · have hlt : k < n + 1 ↔ k < n := by omega
        simp [hn, hlt]
  have h := hfold 64
  rw [decide_eq_true hk, Bool.true_and, Bool.true_and] at h
  exact h

/-! ### Comparisons of numbers (R207, R213) -/

/-- The sign of a difference, as a comparison answers it. -/
theorem sign_spec (d : Int) :
    ((if d < 0 then -1 else if d = 0 then 0 else 1 : Int) < 0 ↔ d < 0) ∧ ((if d < 0 then -1 else if d = 0 then 0 else 1 : Int) = 0 ↔ d = 0)
      ∧ (0 < (if d < 0 then -1 else if d = 0 then 0 else 1 : Int) ↔ 0 < d) := by
  split_ifs <;> grind

theorem intCondition_eq (f : AV) {code : Nat} (hcode : code < 6) (a b : Nat) : intCondition f.ty code a b = (integerConditions f a b)[code]! := by
  simp only [intCondition, integerConditions]
  generalize intValue f.ty a = x
  generalize intValue f.ty b = y
  have hsign : (if x < y then -1 else if x = y then 0 else 1 : Int) = if x - y < 0 then -1 else if x - y = 0 then 0 else 1 := by
    simp only [sub_neg, sub_eq_zero]
  obtain ⟨hlt, heq, hgt⟩ := sign_spec (x - y)
  rw [← hsign] at hlt heq hgt
  generalize (if x < y then -1 else if x = y then 0 else 1 : Int) = c at hlt heq hgt
  have hsame {p q : Prop} [Decidable p] [Decidable q] (h : p ↔ q) : decide p = decide q := decide_eq_decide.2 h
  match code, hcode with
  | 0, _ => exact (beq_eq_decide c 0).trans (hsame (by omega))
  | 1, _ => exact ((congrArg not (beq_eq_decide c 0)).trans (decide_not.symm.trans (hsame (by omega))))
  | 2, _ => exact hsame (by omega)
  | 3, _ => exact hsame (by omega)
  | 4, _ => exact hsame (by omega)
  | 5, _ => exact hsame (by omega)

/-- A finite value is its aligned integer in units of the exponent it is aligned to. -/
theorem FVal.number_eq_aligned (neg : Bool) (m : Nat) {e base : Int} (h : base ≤ e) :
    (FVal.num neg m e).number = ((FVal.num neg m e).aligned base : ℚ) * 2 ^ base := by
  have hpow : (2 : ℚ) ^ e = 2 ^ (e - base).toNat * 2 ^ base := by
    rw [← zpow_natCast, ← zpow_add₀ two_ne_zero, Int.toNat_of_nonneg (by omega)]
    congr 1
    omega
  simp only [FVal.number, FVal.aligned, hpow]
  cases neg <;> push_cast <;> ring

theorem FVal.compare_num (n k : Bool) (m m' : Nat) (e e' : Int) :
    let x := FVal.num n m e
    let y := FVal.num k m' e'
    (x.compare y < 0 ↔ x.number < y.number) ∧ (x.compare y = 0 ↔ x.number = y.number) ∧ (0 < x.compare y ↔ y.number < x.number) := by
  intro x y
  have hx : x.number = (x.aligned (min e e') : ℚ) * 2 ^ min e e' := FVal.number_eq_aligned n m (min_le_left e e')
  have hy : y.number = (y.aligned (min e e') : ℚ) * 2 ^ min e e' := FVal.number_eq_aligned k m' (min_le_right e e')
  have hunit : (0 : ℚ) < 2 ^ min e e' := zpow_pos two_pos _
  obtain ⟨hlt, heq, hgt⟩ := sign_spec (x.aligned (min e e') - y.aligned (min e e'))
  rw [hx, hy, mul_lt_mul_iff_left₀ hunit, mul_lt_mul_iff_left₀ hunit, mul_left_inj' hunit.ne']
  norm_cast
  exact ⟨hlt.trans sub_neg, heq.trans sub_eq_zero, hgt.trans sub_pos⟩

/-- Of two values that are not NaN the comparison tells the smaller, with −0 as +0. -/
theorem FVal.compare_spec {x y : FVal} (hx : x.isNan = false) (hy : y.isNan = false) :
    (x.compare y < 0 ↔ x.Lt y) ∧ (x.compare y = 0 ↔ x.Same y) ∧ (0 < x.compare y ↔ y.Lt x) := by
  match x, y, hx, hy with
  | .inf n, .inf k, _, _ => cases n <;> cases k <;> simp [FVal.compare, FVal.Lt, FVal.Same]
  | .inf n, .num .., _, _ => cases n <;> simp [FVal.compare, FVal.Lt, FVal.Same]
  | .num .., .inf k, _, _ => cases k <;> simp [FVal.compare, FVal.Lt, FVal.Same]
  | .num n m e, .num k m' e', _, _ => exact FVal.compare_num n k m m' e e'

/-- A NaN is neither less than another value nor the same. -/
theorem FVal.unordered {x y : FVal} (h : x.isNan = true ∨ y.isNan = true) : ¬x.Lt y ∧ ¬x.Same y := by
  match x, y, h with
  | .nan, _, _ => exact ⟨id, id⟩
  | .inf _, .nan, _ => exact ⟨id, id⟩
  | .num .., .nan, _ => exact ⟨id, id⟩

/-- The comparisons of FCMP by their codes (R213). -/
theorem floatCondition_iff {f : BitVec 4} {a b code : Nat} {x y : FVal} (hx : readFormat f a = x) (hy : readFormat f b = y) (hcode : code < 8) :
    floatCondition f code a b = true ↔
      ([x.Same y, ¬x.Same y, x.Lt y, x.Lt y ∨ x.Same y, y.Lt x, y.Lt x ∨ x.Same y, x.isNan = true ∨ y.isNan = true,
        ¬(x.isNan = true ∨ y.isNan = true)] : List Prop).getD code False := by
  unfold floatCondition
  dsimp only
  rw [hx, hy, ← Bool.or_eq_true_iff]
  cases hun : x.isNan || y.isNan
  case true =>
    obtain ⟨hlt, hsame⟩ := FVal.unordered (Bool.or_eq_true_iff.1 hun)
    obtain ⟨hgt, -⟩ := FVal.unordered (Bool.or_eq_true_iff.1 hun).symm
    interval_cases code <;> simp [hlt, hsame, hgt]
  case false =>
    obtain ⟨hx, hy⟩ := Bool.or_eq_false_iff.1 hun
    obtain ⟨hlt, heq, hgt⟩ := FVal.compare_spec hx hy
    rw [← hlt, ← heq, ← hgt]
    interval_cases code <;> simp [orderCondition] <;> omega

/-! ### The comparing instructions and VSEL (R207, R208, R213) -/

/-- The lane that VSEL selects (R208). -/
def State.selectedLane (s : State) (f : AV) (j : Nat) : Nat :=
  if laneBit (s.seenK f.kp.toNat) j (laneWidth f.ty) then laneOf (s.source f.rx f.va).data j (laneWidth f.ty)
  else laneOf (s.source f.rx f.vb).data j (laneWidth f.ty)

/-- The run of VSEL over the lanes that the guard enables. -/
def State.selection (s : State) (f : AV) : LaneAcc :=
  runLanes (laneWidth f.ty) 0 (512 / laneWidth f.ty) (fun j => laneBit s.env.lanes j (laneWidth f.ty)) false
    (fun j σ => (s.selectedLane f j, σ)) 0

section Compare

variable {s : State} {f : AV} (hguard : guardAny s.env (laneWidth f.ty) = true) (hva : s.maySource f.rx f.va = true)
  (hvb : s.maySource f.rx f.vb = true) (hk : s.mayReadK f.kp.toNat = true)

include hguard hva hvb hk

theorem elemCompare_ends (truth : Nat → Nat → Bool) :
    let acc := comparePredicate (laneWidth f.ty) (s.active f.kp (laneWidth f.ty)) (f.kz == 1) fun j =>
      truth (laneOf (s.source f.rx f.va).data j (laneWidth f.ty)) (laneOf (s.source f.rx f.vb).data j (laneWidth f.ty))
    (elemCompare f s.env truth).Ends s.elem (s.queued 1 false (.k f.vd.toNat acc.data acc.mask) s.elem.sigma) := by
  rw [elemCompare, hguard]
  exact (sourceV_reads hva).bind_ends ((sourceV_reads hvb).bind_ends ((readK_reads hk).bind_ends (later_ends s 1 false _)))

/-- A comparing instruction writes the truth of each byte of its active lanes. -/
theorem queues_compare {i : Instr} {truth : Nat → Nat → Bool} {m : ElemEnv → EM Unit} (hexec : exec i s = performSlot s m)
    (hm : m s.env = elemCompare f s.env truth) (hs : s.focus.suppressed = false) {t : Nat → Bool}
    (ht : ∀ j, truth (laneOf (s.source f.rx f.va).data j (laneWidth f.ty)) (laneOf (s.source f.rx f.vb).data j (laneWidth f.ty)) = t j) :
    ∃ data mask, s.Queues i 1 false [.k f.vd.toNat data mask] s.elem.sigma
      ∧ ∀ k < 64,
        mask.getLsbD k = (s.active f.kp (laneWidth f.ty) (k * 8 / laneWidth f.ty) || f.kz == 1)
        ∧ data.getLsbD k = (s.active f.kp (laneWidth f.ty) (k * 8 / laneWidth f.ty) && byteTruth (laneWidth f.ty) t k) := by
  have hends := elemCompare_ends hguard hva hvb hk truth
  rw [← hm, funext ht] at hends
  exact ⟨_, _, State.queues_of_ends hexec hs hends, fun k hlt => getLsbD_comparePredicate _ _ _ _ hlt⟩

theorem queues_vsel (hs : s.focus.suppressed = false) (hname : s.mayName f.rx true = true) :
    ∃ data mask, s.Queues (.vsel f) 1 false [.v (s.named f.rx true f.vd) data mask f.ty false] s.elem.sigma
      ∧ Lanes (laneWidth f.ty) 0 (512 / laneWidth f.ty) (fun j => laneBit s.env.lanes j (laneWidth f.ty)) false (s.selectedLane f) data mask := by
  have hends : (elemVsel f s.env).Ends s.elem (s.queued 1 false (.v (s.named f.rx true f.vd)
      (.ofNat 512 (s.selection f).data) (.ofNat 512 (s.selection f).mask) f.ty false) s.elem.sigma) := by
    rw [elemVsel, hguard]
    exact (sourceV_reads hva).bind_ends ((sourceV_reads hvb).bind_ends ((readK_reads hk).bind_ends ((rename_reads hname f.vd).bind_ends
      (later_ends s 1 false _))))
  rw [State.selection, runLanes_eq (laneRun_exact _ (s.selectedLane f) 0)] at hends
  exact ⟨_, _, State.queues_of_ends (m := elemVsel f) rfl hs hends, lanes_laneSum _ _ _ _⟩

end Compare

theorem Instr.wellFormed_eq_false {i : Instr} {items : List (Nat × Bool)} (hitem : i.slotItem = firstBroken items)
    (hbroken : ∃ p ∈ items, p.2 = true) : i.wellFormed = false := by
  obtain ⟨p, hp, hbroken⟩ := hbroken
  rw [Instr.wellFormed, hitem, beq_eq_false_iff_ne, Ne, firstBroken_eq_none]
  intro h
  rw [h p hp] at hbroken
  cases hbroken

theorem vcmp_illegal {f : AV} (h : 6 ≤ f.md.toNat ∨ 8 ≤ f.vd.toNat ∨ isIntFormat f.ty = false) : (Instr.vcmp f).wellFormed = false := by
  refine Instr.wellFormed_eq_false (i := .vcmp f) rfl ?_
  rcases h with h | h | h <;> simp [h]

theorem fcmp_illegal {f : AV} (h : 8 ≤ f.vd.toNat ∨ isIntFormat f.ty = true) : (Instr.fcmp f).wellFormed = false := by
  refine Instr.wellFormed_eq_false (i := .fcmp f) rfl ?_
  rcases h with h | h <;> simp [h]

theorem vsel_illegal {f : AV} (h : f.kz = 1) : (Instr.vsel f).wellFormed = false := by
  refine Instr.wellFormed_eq_false (i := .vsel f) rfl ?_
  simp [h]

/-- Settles O26: the two comparisons byte by byte, VSEL, the order of float values, k0, and the items that a slot breaks. -/
theorem compareAndSelect : Obligations.CompareAndSelect := by
  unfold Obligations.CompareAndSelect
  refine ⟨fun s f => ?_, fun f a b _ => fun c hc => floatCondition_iff rfl rfl hc, fun e gen data mask => e.land_k_zero gen data mask,
    fun f => ⟨vcmp_illegal, fcmp_illegal, vsel_illegal⟩⟩
  refine ⟨fun ⟨hs, hguard, hva, hvb, hk⟩ hmd => ?_, fun ⟨hs, hguard, hva, hvb, hk⟩ => ?_, fun ⟨hs, hguard, hva, hvb, hk⟩ hname => ?_⟩
  · exact queues_compare hguard hva hvb hk (m := elemVcmp f) rfl rfl hs fun j => intCondition_eq f hmd _ _
  · exact queues_compare hguard hva hvb hk (m := elemFcmp f) rfl rfl hs fun j => rfl
  · exact queues_vsel hguard hva hvb hk hs hname

end Sys2Proof.Machine

/-!
PROOFS. Element scalars and predicates (R220 to R223).
-/

namespace Sys2Proof.Machine

/-! ### Scalar instructions (R220, R221) -/

/-- Where c f may read what it reads, it writes x to S[sd]. -/
def State.ComputesScalar (s : State) (f : AS) (c : AS → Instr) (latency : Nat) (readsA readsB : Bool) (x : SWord) : Prop :=
  (readsA = true → s.mayReadS f.sa.toNat = true) → (readsB = true → s.mayReadS f.sb.toNat = true) →
    s.Queues (c f) latency false [.s f.sd.toNat x] s.elem.sigma

/-- The coordinates that ELID names, listed by their codes (R221). -/
theorem coordinate_eq (e : ElemEnv) {sel : Nat} (h : sel < 6) :
    coordinate e sel = [e.row, e.col, e.row * e.width + e.col, e.role.toNat, e.row % 16, e.col % 16][sel]! := by
  interval_cases sel <;> rfl

/-! ### Words of w bits, as numbers -/

section Words

variable {w : Nat} (a b : BitVec w)

theorem add_eq_ofNat : a + b = .ofNat w (a.toNat + b.toNat) := BitVec.eq_of_toNat_eq (by simp)

theorem mul_eq_ofNat : a * b = .ofNat w (a.toNat * b.toNat) := BitVec.eq_of_toNat_eq (by simp)

theorem sub_eq_ofInt : a - b = .ofInt w (a.toNat - b.toNat : Int) := by
  apply BitVec.eq_of_toInt_eq
  rw [BitVec.toInt_sub, BitVec.toInt_ofInt, BitVec.toInt_eq_toNat_bmod, BitVec.toInt_eq_toNat_bmod, Int.bmod_sub_bmod, Int.sub_bmod_bmod]

theorem and_eq_ofNat : a &&& b = .ofNat w (a.toNat &&& b.toNat) := by rw [← BitVec.toNat_and, BitVec.ofNat_toNat, BitVec.setWidth_eq]

theorem or_eq_ofNat : a ||| b = .ofNat w (a.toNat ||| b.toNat) := by rw [← BitVec.toNat_or, BitVec.ofNat_toNat, BitVec.setWidth_eq]

theorem xor_eq_ofNat : a ^^^ b = .ofNat w (a.toNat ^^^ b.toNat) := by rw [← BitVec.toNat_xor, BitVec.ofNat_toNat, BitVec.setWidth_eq]

theorem shiftLeft_eq_ofNat (n : Nat) : a <<< n = .ofNat w (a.toNat * 2 ^ n) := BitVec.eq_of_toNat_eq (by simp [Nat.shiftLeft_eq])

theorem ushiftRight_eq_ofNat (n : Nat) : a >>> n = .ofNat w (a.toNat / 2 ^ n) := by
  rw [← Nat.shiftRight_eq_div_pow, ← BitVec.toNat_ushiftRight, BitVec.ofNat_toNat, BitVec.setWidth_eq]

theorem sshiftRight_eq_ofInt (n : Nat) : a.sshiftRight n = .ofInt w (a.toInt / 2 ^ n) := by
  rw [BitVec.sshiftRight, Int.shiftRight_eq_div_pow]
  norm_cast

end Words

section Scalars

variable {s : State} {f : AS} {c : AS → Instr} {latency : Nat} {x : SWord} {m : ElemEnv → EM Unit} (hacts : s.acts = true)

include hacts

theorem computesScalar_two {op : SWord → SWord → SWord} (hexec : exec (c f) s = performSlot s m)
    (hm : m s.env = scalarOp s.env f latency true op) (hx : op (s.seenS f.sa.toNat) (s.seenS f.sb.toNat) = x) :
    s.ComputesScalar f c latency true true x := by
  intro ha hb
  obtain ⟨hs, hguard⟩ := State.guardZero_of_acts hacts
  refine State.queues_of_ends hexec hs ?_
  rw [hm, scalarOp, hguard, ← hx]
  exact (readS_reads (ha rfl)).bind_ends ((readS_reads (hb rfl)).bind_ends (later_ends s latency false _))

theorem computesScalar_one {op : SWord → SWord → SWord} (hexec : exec (c f) s = performSlot s m)
    (hm : m s.env = scalarOp s.env f latency false op) (hx : op (s.seenS f.sa.toNat) 0 = x) : s.ComputesScalar f c latency true false x := by
  intro ha _
  obtain ⟨hs, hguard⟩ := State.guardZero_of_acts hacts
  refine State.queues_of_ends hexec hs ?_
  rw [hm, scalarOp, hguard, ← hx]
  exact (readS_reads (ha rfl)).bind_ends ((EM.reads_pure _ _).bind_ends (later_ends s latency false _))

theorem queues_smovi : s.ComputesScalar f .smovi 1 false false f.imm := by
  intro _ _
  obtain ⟨hs, hguard⟩ := State.guardZero_of_acts hacts
  refine State.queues_of_ends (m := elemSmovi f) rfl hs ?_
  rw [elemSmovi, hguard]
  exact later_ends s 1 false _

theorem queues_elid (hsub : f.sub.toNat < 6) :
    let e := s.env
    s.Queues (.elid f) 1 false [.s f.sd.toNat (.ofNat 32
      [e.row, e.col, e.row * e.width + e.col, e.role.toNat, e.row % 16, e.col % 16][f.sub.toNat]!)] s.elem.sigma := by
  obtain ⟨hs, hguard⟩ := State.guardZero_of_acts hacts
  refine State.queues_of_ends (m := elemElid f) rfl hs ?_
  rw [elemElid, hguard, ← coordinate_eq s.env hsub]
  exact later_ends s 1 false _

theorem computesScalar_scalarResults : ∀ x ∈ scalarResults f (s.seenS f.sa.toNat) (s.seenS f.sb.toNat),
    s.ComputesScalar f x.1 x.2.1 x.2.2.1 x.2.2.2.1 x.2.2.2.2 := by
  simp only [scalarResults, List.forall_mem_cons, List.not_mem_nil, false_imp_iff, implies_true, and_true]
  refine ⟨computesScalar_two hacts (m := elemSadd f) rfl rfl ?sadd, computesScalar_two hacts (m := elemSsub f) rfl rfl ?ssub,
    computesScalar_two hacts (m := elemSmul f) rfl rfl ?smul, computesScalar_two hacts (m := elemSand f) rfl rfl ?sand,
    computesScalar_two hacts (m := elemSor f) rfl rfl ?sor, computesScalar_two hacts (m := elemSxor f) rfl rfl ?sxor,
    computesScalar_two hacts (m := elemSshl f) rfl rfl ?sshl, computesScalar_two hacts (m := elemSshr f) rfl rfl ?sshr,
    computesScalar_two hacts (m := elemSslt f) rfl rfl rfl, computesScalar_one hacts (m := elemSaddi f) rfl rfl ?saddi,
    queues_smovi hacts⟩
  case sadd => exact add_eq_ofNat _ _
  case ssub => exact sub_eq_ofInt _ _
  case smul => exact mul_eq_ofNat _ _
  case sand => exact and_eq_ofNat _ _
  case sor => exact or_eq_ofNat _ _
  case sxor => exact xor_eq_ofNat _ _
  case sshl => exact shiftLeft_eq_ofNat _ _
  case sshr => exact ite_congr rfl (fun _ => sshiftRight_eq_ofInt _ _) fun _ => ushiftRight_eq_ofNat _ _
  case saddi => exact add_eq_ofNat _ _

end Scalars

/-! ### Predicate instructions (R222, R223) -/

/-- The one bits of a predicate, as KPOPC counts them and as a set. -/
theorem onesBelow_toNat (a : Word) : onesBelow 64 a.toNat = (Finset.univ.filter fun i : Fin 64 => a.getLsbD i).card := by
  rw [onesBelow_eq, Finset.card_filter, Finset.card_filter, Finset.sum_range]
  rfl

/-- Instruction i writes all bits of K[kd]. -/
def State.WritesPredicate (s : State) (f : AK) (i : Instr) (bit : Nat → Bool) : Prop :=
  ∃ x, s.Queues i 1 false [.k f.kd.toNat x (-1)] s.elem.sigma ∧ ∀ j < 64, x.getLsbD j = bit j

section Predicates

variable {s : State} {f : AK} (hacts : s.acts = true)

include hacts

theorem writesPredicate_two {i : Instr} {m : ElemEnv → EM Unit} {op : Word → Word → Word} {bit : Bool → Bool → Bool}
    (hexec : exec i s = performSlot s m) (hm : m s.env = predicateOp s.env f true op)
    (hbit : ∀ a b : Word, ∀ j < 64, (op a b).getLsbD j = bit (a.getLsbD j) (b.getLsbD j))
    (ha : s.mayReadK f.ka.toNat = true) (hb : s.mayReadK f.kb.toNat = true) :
    s.WritesPredicate f i fun j => bit ((s.seenK f.ka.toNat).getLsbD j) ((s.seenK f.kb.toNat).getLsbD j) := by
  obtain ⟨hs, hguard⟩ := State.guardZero_of_acts hacts
  refine ⟨_, State.queues_of_ends hexec hs ?_, hbit _ _⟩
  rw [hm, predicateOp, hguard]
  exact (readK_reads ha).bind_ends ((readK_reads hb).bind_ends (later_ends s 1 false _))

theorem writesPredicate_knot (ha : s.mayReadK f.ka.toNat = true) :
    s.WritesPredicate f (.knot f) fun j => !(s.seenK f.ka.toNat).getLsbD j := by
  obtain ⟨hs, hguard⟩ := State.guardZero_of_acts hacts
  refine ⟨~~~s.seenK f.ka.toNat, State.queues_of_ends (m := elemKnot f) rfl hs ?_, fun j hj => ?_⟩
  · rw [elemKnot, predicateOp, hguard]
    exact (readK_reads ha).bind_ends ((EM.reads_pure _ _).bind_ends (later_ends s 1 false _))
  · rw [BitVec.getLsbD_not, decide_eq_true hj, Bool.true_and]

theorem writesPredicate_kmov (sub : Nat) (hsub : (f.sub.extractLsb' 0 2).toNat = sub) :
    (sub = 0 → s.mayReadK f.ka.toNat = true → s.WritesPredicate f (.kmov f) (s.seenK f.ka.toNat).getLsbD)
      ∧ (sub = 1 → s.mayReadV f.va.toNat = true →
        s.WritesPredicate f (.kmov f) fun j => decide (laneOf (s.seenV f.va.toNat).data j 8 ≠ 0))
      ∧ (sub = 2 → s.mayReadS f.sa.toNat = true → s.WritesPredicate f (.kmov f) (s.seenS f.sa.toNat).getLsbD)
      ∧ (sub = 3 → s.mayReadS f.sa.toNat = true → s.WritesPredicate f (.kmov f) fun j => decide (j < (s.seenS f.sa.toNat).toNat)) := by
  obtain ⟨hs, hguard⟩ := State.guardZero_of_acts hacts
  have hwrites {x : Word} {bit : Nat → Bool} (hends : (elemKmov f s.env).Ends s.elem (s.queued 1 false (.k f.kd.toNat x (-1)) s.elem.sigma))
      (hbit : ∀ j < 64, x.getLsbD j = bit j) : s.WritesPredicate f (.kmov f) bit :=
    ⟨x, State.queues_of_ends (m := elemKmov f) rfl hs hends, hbit⟩
  refine ⟨?_, ?_, ?_, ?_⟩ <;> rintro rfl hread
  · refine hwrites ?_ fun _ _ => rfl
    rw [elemKmov, hguard, hsub]
    exact (readK_reads hread).bind_ends (later_ends s 1 false _)
  · refine hwrites ?_ fun j hj => (getLsbD_bitsWhere _ hj).trans ((congrArg not (beq_eq_decide _ _)).trans decide_not.symm)
    rw [elemKmov, hguard, hsub]
    exact (readV_reads hread).bind_ends ((EM.reads_pure _ _).bind_ends (later_ends s 1 false _))
  · refine hwrites ?_ fun j hj => (BitVec.getLsbD_setWidth ..).trans (by rw [decide_eq_true hj, Bool.true_and])
    rw [elemKmov, hguard, hsub]
    exact (readS_reads hread).bind_ends ((EM.reads_pure _ _).bind_ends (later_ends s 1 false _))
  · refine hwrites ?_ fun j hj => getLsbD_bitsWhere _ hj
    rw [elemKmov, hguard, hsub]
    exact (readS_reads hread).bind_ends ((EM.reads_pure _ _).bind_ends (later_ends s 1 false _))

theorem queues_kpopc (ha : s.mayReadK f.ka.toNat = true) :
    s.Queues (.kpopc f) 1 false [.s f.sa.toNat (.ofNat 32 (Finset.univ.filter fun i : Fin 64 => (s.seenK f.ka.toNat).getLsbD i).card)]
      s.elem.sigma := by
  obtain ⟨hs, hguard⟩ := State.guardZero_of_acts hacts
  refine State.queues_of_ends (m := elemKpopc f) rfl hs ?_
  rw [elemKpopc, hguard, ← onesBelow_toNat]
  exact (readK_reads ha).bind_ends (later_ends s 1 false _)

theorem exec_vote (ha : s.mayReadK f.ka.toNat = true) :
    ∃ tally, exec (.vote f) s = .next { s.withElem { s.elem with tally } with focus := { s.focus with vote := some (s.seenK f.ka.toNat) } } := by
  obtain ⟨hs, hguard⟩ := State.guardZero_of_acts hacts
  have hvote : (elemVote f s.env).Reads s.elem (some (s.seenK f.ka.toNat)) := by
    rw [elemVote, hguard]
    exact (readK_reads ha).bind (EM.reads_pure _ _)
  obtain ⟨tally, hok⟩ := hvote s.elem.tally
  refine ⟨tally, congrArg Host.Outcome.next ?_⟩
  rw [State.elem] at hok
  rw [State.perform, hs, hok]
  rfl

end Predicates

/-- Settles O33: every row of the scalar table, ELID, and the predicate instructions one by one. -/
theorem scalarAndPredicateResults : Obligations.ScalarAndPredicateResults := by
  unfold Obligations.ScalarAndPredicateResults
  constructor
  · intro s f σ e hacts
    exact ⟨fun c latency readsA readsB x hrow => computesScalar_scalarResults hacts _ hrow, queues_elid hacts⟩
  intro s f σ a b writes sub hacts
  obtain ⟨hcopy, hbytes, hscalar, hbelow⟩ := writesPredicate_kmov hacts sub rfl
  refine ⟨fun ha => ⟨fun hb => ⟨?_, ?_, ?_⟩, writesPredicate_knot hacts ha, fun h => hcopy h ha, queues_kpopc hacts ha, exec_vote hacts ha⟩,
    hbytes, hscalar, hbelow⟩
  · exact writesPredicate_two hacts (m := elemKand f) (bit := and) rfl rfl (fun _ _ _ _ => BitVec.getLsbD_and) ha hb
  · exact writesPredicate_two hacts (m := elemKor f) (bit := or) rfl rfl (fun _ _ _ _ => BitVec.getLsbD_or) ha hb
  · exact writesPredicate_two hacts (m := elemKxor f) (bit := xor) rfl rfl (fun _ _ _ _ => BitVec.getLsbD_xor) ha hb

end Sys2Proof.Machine

/-!
PROOFS. Reductions and scans (R216).
-/

namespace Sys2Proof.Machine

/-! ### Lanes combined in order -/

theorem testBit_foldl_and (x : Nat) (rest : List Nat) (i : Nat) :
    (rest.foldl (· &&& ·) x).testBit i = (x :: rest).all (·.testBit i) := by
  induction rest generalizing x with
  | nil => simp
  | cons y rest ih => rw [List.foldl_cons, ih, List.all_cons, List.all_cons, List.all_cons, Nat.testBit_and, Bool.and_assoc]

theorem testBit_foldl_or (x : Nat) (rest : List Nat) (i : Nat) :
    (rest.foldl (· ||| ·) x).testBit i = (x :: rest).any (·.testBit i) := by
  induction rest generalizing x with
  | nil => simp
  | cons y rest ih => rw [List.foldl_cons, ih, List.any_cons, List.any_cons, List.any_cons, Nat.testBit_or, Bool.or_assoc]

/-- A choice between two that keeps the better one keeps the best of a list. -/
theorem foldl_best {better : Nat → Nat → Prop} {pick : Nat → Nat → Nat} (htrans : ∀ {a b c}, better a b → better b c → better a c)
    (hpick : ∀ a b, (pick a b = a ∨ pick a b = b) ∧ better (pick a b) a ∧ better (pick a b) b) (hself : ∀ a, better a a) (x : Nat)
    (rest : List Nat) : rest.foldl pick x ∈ x :: rest ∧ ∀ z ∈ x :: rest, better (rest.foldl pick x) z := by
  induction rest generalizing x with
  | nil => simpa using hself x
  | cons y rest ih =>
    obtain ⟨hmem, hbest⟩ := ih (pick x y)
    obtain ⟨hone, hx, hy⟩ := hpick x y
    have hpicked := hbest _ (List.mem_cons_self ..)
    rw [List.foldl_cons]
    refine ⟨?_, fun z hz => ?_⟩
    · rcases List.mem_cons.1 hmem with h | h
      · rw [h]
        rcases hone with h | h <;> simp [h]
      · simp [h]
    · rcases List.mem_cons.1 hz with rfl | hz
      · exact htrans hpicked hx
      · rcases List.mem_cons.1 hz with rfl | hz
        · exact htrans hpicked hy
        · exact hbest z (List.mem_cons_of_mem _ hz)

theorem foldl_lanesVmin (f : BitVec 4) (x : Nat) (rest : List Nat) :
    rest.foldl (lanesVmin f) x ∈ x :: rest ∧ ∀ z ∈ x :: rest, intValue f (rest.foldl (lanesVmin f) x) ≤ intValue f z := by
  refine foldl_best (better := fun a b => intValue f a ≤ intValue f b) le_trans (fun a b => ?_) (fun _ => le_rfl) x rest
  unfold lanesVmin
  split_ifs with h
  · exact ⟨.inl rfl, le_rfl, h⟩
  · exact ⟨.inr rfl, (not_le.1 h).le, le_rfl⟩

theorem foldl_lanesVmax (f : BitVec 4) (x : Nat) (rest : List Nat) :
    rest.foldl (lanesVmax f) x ∈ x :: rest ∧ ∀ z ∈ x :: rest, intValue f z ≤ intValue f (rest.foldl (lanesVmax f) x) := by
  refine foldl_best (better := fun a b => intValue f b ≤ intValue f a) (fun h h' => le_trans h' h) (fun a b => ?_) (fun _ => le_rfl) x rest
  unfold lanesVmax
  split_ifs with h
  · exact ⟨.inr rfl, h, le_rfl⟩
  · exact ⟨.inl rfl, le_rfl, (not_le.1 h).le⟩

/-- Whether the smaller or the larger of a lane and itself is chosen, it is the same lane. -/
theorem floatMinMax_self (F : FloatFormat) (isMax : Bool) (x : Nat) : floatMinMax F isMax x x = floatMinMax F false x x := by
  simp [floatMinMax]

/-- What the included lanes combine to, by operation and kind of format. -/
theorem combines_combineLanes (f : AV) (op : Nat) (r : Rounding) (xs : List Nat) :
    Combines f op r xs (combineLanes f.ty op (f.md == 1) r xs) := by
  cases xs with
  | nil => exact ⟨fun _ => rfl, nofun, nofun, nofun, fun _ => nofun, fun _ => nofun⟩
  | cons x rest =>
    refine ⟨nofun, ?and, ?or, ?xor, fun hint _ => ⟨?sum, ?least, ?greatest⟩, fun hfloat _ => ⟨?floatSum, ?floatMinMax⟩⟩
    case and =>
      rintro - rfl i
      exact testBit_foldl_and x rest i
    case or =>
      rintro - rfl i
      exact testBit_foldl_or x rest i
    case xor =>
      rintro - rfl
      rw [List.foldl_cons, Nat.zero_xor]
      rfl
    case sum =>
      rintro rfl
      rw [← narrow_eq_fitted, List.sum_eq_foldl, combineLanes, if_pos hint]
    case least =>
      rintro rfl
      simp only [combineLanes, combineLanes.canon, hint, if_true]
      exact foldl_lanesVmin f.ty x rest
    case greatest =>
      rintro rfl
      simp only [combineLanes, combineLanes.canon, hint, if_true]
      exact foldl_lanesVmax f.ty x rest
    case floatSum =>
      rintro rfl
      rw [combineLanes, if_neg (Bool.eq_false_iff.1 hfloat)]
    case floatMinMax =>
      rintro hop _ _ ⟨⟩
      rcases hop with rfl | rfl <;>
        simp only [combineLanes, combineLanes.canon, hfloat, Bool.false_eq_true, if_false, floatMinMax_self _ (2 == 2)] <;> rfl

/-! ### VRED and VSCAN -/

section Reduce

variable {s : State} {f : AV} (hs : s.focus.suppressed = false) (hguard : guardZero s.env = true) (hva : s.maySource f.rx f.va = true)
  (hk : s.mayReadK f.kp.toNat = true) (hname : s.mayName f.rx true = true)

/-- The rounding mode code of a reduction: a float sum takes that of md. -/
def State.reductionCode (s : State) (f : AV) : Nat :=
  if (f.sub.extractLsb' 10 3).toNat = 0 && !isIntFormat f.ty then roundingCode s.env.mode f.md else 0

/-- What the included lanes up to one combine to under a rounding. -/
def State.combined (s : State) (f : AV) (last : Nat) (r : Rounding) : Nat :=
  combineLanes f.ty (f.sub.extractLsb' 10 3).toNat (f.md == 1) r
    (includedUpTo (s.source f.rx f.va).data (s.seenK f.kp.toNat) (laneWidth f.ty) last)

/-- The rounding of the nth sum of a reduction. -/
def State.reductionRounding (s : State) (f : AV) (n : Nat) : Rounding :=
  nthRounding (s.reductionCode f) (capturedOvf s.env.mode) s.elem.sigma n

include hs hguard hva hk hname

theorem queues_vred :
    s.Queues (.vred f) 4 false [.v (s.named f.rx true f.vd)
      (.ofNat 512 (s.combined f (512 / laneWidth f.ty - 1) (s.reductionRounding f 0) % 2 ^ laneWidth f.ty)) (-1) f.ty false]
      (sigmaAfter (s.reductionCode f) 1 s.elem.sigma) := by
  have hends : (elemVred f s.env).Ends s.elem (s.queued 4 false (.v (s.named f.rx true f.vd) (.ofNat 512 (s.combined f (512 / laneWidth f.ty - 1)
      (nextRounding (s.reductionCode f) (capturedOvf s.env.mode) s.elem.sigma).1 % 2 ^ laneWidth f.ty)) (-1) f.ty false)
      (nextRounding (s.reductionCode f) (capturedOvf s.env.mode) s.elem.sigma).2) := by
    rw [elemVred, hguard]
    exact (sourceV_reads hva).bind_ends ((readK_reads hk).bind_ends ((rename_reads hname f.vd).bind_ends (EM.ends_get_bind fun _ =>
      setSigma_later_ends s 4 false _ _)))
  have hround := nextRounding_sigmaAfter (s.reductionCode f) (capturedOvf s.env.mode) 0 s.elem.sigma
  rw [sigmaAfter_zero] at hround
  rw [hround] at hends
  exact State.queues_of_ends (m := elemVred f) rfl hs hends

/-- The lanes of VSCAN, each with a rounding of its own. -/
def State.scan (s : State) (f : AV) : LaneAcc :=
  runLanes (laneWidth f.ty) 0 (512 / laneWidth f.ty) (fun _ => true) false (fun j σ =>
    (s.combined f j (nextRounding (s.reductionCode f) (capturedOvf s.env.mode) σ).1,
      (nextRounding (s.reductionCode f) (capturedOvf s.env.mode) σ).2)) s.elem.sigma

omit hs hguard hva hk hname in
theorem State.scan_eq (s : State) (f : AV) :
    s.scan f = ⟨laneSum (laneWidth f.ty) (laneDigit (laneWidth f.ty) (fun _ => true) fun j => s.combined f j (s.reductionRounding f j)) (512 / laneWidth f.ty),
      laneSum (laneWidth f.ty) (maskDigit (laneWidth f.ty) (fun _ => true) false) (512 / laneWidth f.ty),
      sigmaAfter (s.reductionCode f) (512 / laneWidth f.ty) s.elem.sigma⟩ := by
  have hrun := laneRun_rounded (fun _ => true) (s.reductionCode f) (capturedOvf s.env.mode) s.elem.sigma (s.combined f)
  simp only [activeBelow_all] at hrun
  have hacc := runLanes_eq hrun (laneWidth f.ty) (512 / laneWidth f.ty) false
  rw [sigmaAfter_zero] at hacc
  exact hacc

theorem queues_vscan :
    ∃ data, s.Queues (.vscan f) 4 false [.v (s.named f.rx true f.vd) data (-1) f.ty false]
        (sigmaAfter (s.reductionCode f) (512 / laneWidth f.ty) s.elem.sigma)
      ∧ ∀ j < 512 / laneWidth f.ty, laneOf data j (laneWidth f.ty) = s.combined f j (s.reductionRounding f j) % 2 ^ laneWidth f.ty := by
  have hends : (elemVscan f s.env).Ends s.elem (s.queued 4 false (.v (s.named f.rx true f.vd) (.ofNat 512 (s.scan f).data) (-1) f.ty false)
      (s.scan f).sigma) := by
    rw [elemVscan, hguard]
    exact (sourceV_reads hva).bind_ends ((readK_reads hk).bind_ends ((rename_reads hname f.vd).bind_ends (EM.ends_get_bind fun _ =>
      setSigma_later_ends s 4 false _ _)))
  rw [State.scan_eq] at hends
  exact ⟨_, State.queues_of_ends (m := elemVscan f) rfl hs hends, fun j hj => laneOf_laneSum (laneDigit_lt _) hj⟩

end Reduce

/-- Settles O28: what VRED and VSCAN queue is what the included lanes combine to. -/
theorem reductions : Obligations.Reductions := by
  unfold Obligations.Reductions
  intro s f w op code upTo rounding hs hguard hva hk hname _
  have hcode : code = s.reductionCode f := by simp [code, op, State.reductionCode]
  have hcombines (last n : Nat) : Combines f op (rounding n) (upTo last) (s.combined f last (s.reductionRounding f n)) := by
    have hround : rounding n = s.reductionRounding f n := by simp only [rounding, hcode, State.reductionRounding]
    rw [hround]
    exact combines_combineLanes f op _ _
  rw [hcode]
  obtain ⟨data, hscan, hlanes⟩ := queues_vscan hs hguard hva hk hname
  exact ⟨⟨_, _, queues_vred hs hguard hva hk hname, hcombines _ 0, rfl⟩, data, hscan, fun j hj => ⟨_, hcombines j j, hlanes j hj⟩⟩

end Sys2Proof.Machine

/-!
PROOFS. Float formats (R99 to R103): what a lane of a sign and a magnitude reads as, that an exact value is written as it was read, and FMIN and FMAX
(R210).
-/

namespace Sys2Proof.Machine

namespace FloatFormat

variable {F : FloatFormat}

/-! ### A lane of a sign and a magnitude (R99) -/

/-- The value of a sign and a magnitude that is no infinity and no NaN. -/
def finite (F : FloatFormat) (neg : Bool) (mag : Nat) : FVal :=
  if mag / 2 ^ F.mbits = 0 then .num neg (mag % 2 ^ F.mbits) (1 - (F.bias : Int) - F.mbits)
  else .num neg (2 ^ F.mbits + mag % 2 ^ F.mbits) ((mag / 2 ^ F.mbits : Nat) - (F.bias : Int) - F.mbits)

theorem topExponent_pos (he : 0 < F.ebits) : 0 < (2 ^ F.ebits - 1) * 2 ^ F.mbits :=
  Nat.mul_pos (Nat.sub_pos_of_lt (Nat.one_lt_two_pow he.ne')) (Nat.two_pow_pos _)

theorem largest_lt_two_pow (he : 0 < F.ebits) : F.largest < 2 ^ (F.ebits + F.mbits) := by
  have htwo : 2 ≤ 2 ^ (F.ebits + F.mbits) := Nat.le_self_pow (by omega) 2
  have htop := F.topExponent_lt
  unfold largest
  split <;> omega

/-- The sign and the magnitude of a lane that was packed from them. -/
theorem packed_fields (neg : Bool) {mag : Nat} (h : mag < 2 ^ (F.ebits + F.mbits)) :
    let x := F.pack neg mag / 2 ^ F.low % 2 ^ (F.ebits + F.mbits + 1)
    decide (2 ^ (F.ebits + F.mbits) ≤ x) = neg ∧ x % 2 ^ (F.ebits + F.mbits) = mag := by
  have hfits : (if neg then 2 ^ (F.ebits + F.mbits) else 0) + mag < 2 ^ (F.ebits + F.mbits + 1) := by
    rw [Nat.pow_succ]
    split <;> omega
  intro x
  have hx : x = (if neg then 2 ^ (F.ebits + F.mbits) else 0) + mag := by
    simp only [x, pack]
    rw [Nat.mul_div_cancel _ (Nat.two_pow_pos _), Nat.mod_eq_of_lt hfits]
  rw [hx]
  cases neg
  · rw [if_neg Bool.false_ne_true, Nat.zero_add]
    exact ⟨decide_eq_false (Nat.not_le.2 h), Nat.mod_eq_of_lt h⟩
  · rw [if_pos rfl]
    exact ⟨decide_eq_true (Nat.le_add_right _ _), by rw [Nat.add_mod_left, Nat.mod_eq_of_lt h]⟩

/-- Reading goes by the sign and the magnitude of the lane. -/
theorem read_eq (lane : Nat) {neg : Bool} {mag : Nat}
    (hneg : decide (2 ^ (F.ebits + F.mbits) ≤ lane / 2 ^ F.low % 2 ^ (F.ebits + F.mbits + 1)) = neg)
    (hmag : lane / 2 ^ F.low % 2 ^ (F.ebits + F.mbits + 1) % 2 ^ (F.ebits + F.mbits) = mag) :
    F.read lane = if F.kind = .ieee ∧ mag / 2 ^ F.mbits = 2 ^ F.ebits - 1 then (if mag % 2 ^ F.mbits = 0 then .inf neg else .nan)
      else if F.kind = .e4m3 ∧ mag = 2 ^ (F.ebits + F.mbits) - 1 then .nan else F.finite neg mag := by
  subst hneg hmag
  rfl

/-- A magnitude is that of a finite value exactly where it does not exceed the largest one. -/
theorem le_largest_iff (he : 0 < F.ebits) {mag : Nat} (h : mag < 2 ^ (F.ebits + F.mbits)) :
    mag ≤ F.largest ↔ ¬(F.kind = .ieee ∧ mag / 2 ^ F.mbits = 2 ^ F.ebits - 1) ∧ ¬(F.kind = .e4m3 ∧ mag = 2 ^ (F.ebits + F.mbits) - 1) := by
  have hdiv : mag / 2 ^ F.mbits < 2 ^ F.ebits := by
    rw [Nat.div_lt_iff_lt_mul (Nat.two_pow_pos _), ← Nat.pow_add]
    exact h
  have hlt : mag / 2 ^ F.mbits < 2 ^ F.ebits - 1 ↔ mag < (2 ^ F.ebits - 1) * 2 ^ F.mbits := Nat.div_lt_iff_lt_mul (Nat.two_pow_pos _)
  have htop := F.topExponent_pos he
  have htwo : 2 ≤ 2 ^ (F.ebits + F.mbits) := Nat.le_self_pow (by omega) 2
  unfold largest
  cases F.kind
  all_goals simp
  all_goals omega

theorem read_pack (he : 0 < F.ebits) (neg : Bool) {mag : Nat} (h : mag ≤ F.largest) : F.read (F.pack neg mag) = F.finite neg mag := by
  have hlt := lt_of_le_of_lt h (largest_lt_two_pow he)
  obtain ⟨hneg, hmag⟩ := packed_fields neg hlt
  obtain ⟨hieee, he4m3⟩ := (le_largest_iff he hlt).1 h
  rw [read_eq _ hneg hmag, if_neg hieee, if_neg he4m3]

theorem read_infinity (hieee : F.kind = .ieee) (neg : Bool) : F.read (F.infinity neg) = .inf neg := by
  obtain ⟨hneg, hmag⟩ := packed_fields neg F.topExponent_lt
  rw [infinity, read_eq _ hneg hmag, if_pos ⟨hieee, Nat.mul_div_cancel _ (Nat.two_pow_pos _)⟩, if_pos (Nat.mul_mod_left _ _)]

/-- A lane reads as NaN, as an infinity, or as a finite value of a sign and a magnitude. -/
theorem read_cases (he : 0 < F.ebits) (lane : Nat) :
    F.read lane = .nan ∨ (F.kind = .ieee ∧ ∃ neg, F.read lane = .inf neg) ∨ ∃ neg, ∃ mag ≤ F.largest, F.read lane = F.finite neg mag := by
  have hlt : lane / 2 ^ F.low % 2 ^ (F.ebits + F.mbits + 1) % 2 ^ (F.ebits + F.mbits) < 2 ^ (F.ebits + F.mbits) := Nat.mod_lt _ (Nat.two_pow_pos _)
  rw [read_eq lane rfl rfl]
  split_ifs with hieee hzero he4m3
  · exact .inr (.inl ⟨hieee.1, _, rfl⟩)
  · exact .inl rfl
  · exact .inl rfl
  · exact .inr (.inr ⟨_, _, (le_largest_iff he hlt).2 ⟨hieee, he4m3⟩, rfl⟩)

end FloatFormat

/-! ### Exact values (R106) -/

/-- A multiple of the rounding step is rounded to itself. -/
theorem roundMagnitude_exact (neg : Bool) (m : Nat) {e q : Int} (h : q ≤ e) :
    roundMagnitude Rounding.rne neg m e q = m * 2 ^ (e - q).toNat := by
  have hs : (q - e).toNat = 0 := Int.toNat_eq_zero.2 (by omega)
  simp [roundMagnitude, Rounding.rne, hs, Nat.mod_one]

namespace FloatFormat

variable {F : FloatFormat}

theorem round_exact {m mag : Nat} {e q : Int} (neg : Bool) (hm : m ≠ 0) (hq : F.step m e = q) (hle : q ≤ e)
    (hmag : m * 2 ^ (e - q).toNat + (q - (1 - (F.bias : Int) - F.mbits)).toNat * 2 ^ F.mbits = mag) (hfit : mag ≤ F.largest) :
    F.round Rounding.rne neg m e = F.pack neg mag := by
  rw [round, if_neg hm]
  simp only [hq, roundMagnitude_exact neg m hle, hmag]
  rw [if_neg (Nat.not_lt.2 hfit)]

/-- A finite value is written as the magnitude it was read from. -/
theorem convert_finite (neg : Bool) {mag : Nat} (h : mag ≤ F.largest) : F.convert Rounding.rne (F.finite neg mag) = F.pack neg mag := by
  have hsplit := Nat.div_add_mod mag (2 ^ F.mbits)
  have hlow := Nat.mod_lt mag (Nat.two_pow_pos F.mbits)
  have htwo : 2 ^ (F.mbits + 1) = 2 ^ F.mbits + 2 ^ F.mbits := by rw [Nat.pow_succ]; omega
  unfold finite
  split_ifs with hsub
  · rw [hsub, Nat.mul_zero, Nat.zero_add] at hsplit
    rw [hsplit] at hlow ⊢
    by_cases hzero : mag = 0
    · rw [hzero, convert, round, if_pos rfl]
    have hlog : Nat.log2 mag < F.mbits := (Nat.log2_lt hzero).2 hlow
    refine round_exact (q := 1 - (F.bias : Int) - F.mbits) neg hzero ?_ le_rfl (by simp) h
    rw [step]
    omega
  · have hlog : Nat.log2 (2 ^ F.mbits + mag % 2 ^ F.mbits) = F.mbits := (Nat.log2_eq_iff (by omega)).2 ⟨by omega, by omega⟩
    obtain ⟨k, hk⟩ := Nat.exists_eq_add_of_le' (Nat.pos_of_ne_zero hsub)
    rw [hk] at hsplit ⊢
    refine round_exact (q := (k + 1 : Nat) - (F.bias : Int) - F.mbits) neg (by omega) ?_ le_rfl ?_ h
    · rw [step, hlog]
      omega
    · have hunits : ((k + 1 : Nat) - (F.bias : Int) - F.mbits - (1 - (F.bias : Int) - F.mbits)).toNat = k := by omega
      rw [hunits, Int.sub_self, Int.toNat_zero, Nat.pow_zero, Nat.mul_one]
      rw [Nat.mul_succ, Nat.mul_comm] at hsplit
      omega

/-- A value that a lane may hold is read back as it was written. -/
theorem read_convert_read (he : 0 < F.ebits) {lane : Nat} (h : (F.read lane).isNan = false) :
    F.read (F.convert Rounding.rne (F.read lane)) = F.read lane := by
  rcases F.read_cases he lane with hnan | ⟨hieee, neg, hinf⟩ | ⟨neg, mag, hmag, hfinite⟩
  · rw [hnan] at h
    cases h
  · rw [hinf, convert, ofInf, hieee]
    exact read_infinity hieee neg
  · rw [hfinite, convert_finite neg hmag, read_pack he neg hmag]

/-- A value is written as a sign and a magnitude. -/
theorem convert_packed (he : 0 < F.ebits) {lane : Nat} (h : (F.read lane).isNan = false) :
    ∃ neg, ∃ mag < 2 ^ (F.ebits + F.mbits), F.convert Rounding.rne (F.read lane) = F.pack neg mag := by
  rcases F.read_cases he lane with hnan | ⟨hieee, neg, hinf⟩ | ⟨neg, mag, hmag, hfinite⟩
  · rw [hnan] at h
    cases h
  · refine ⟨neg, _, F.topExponent_lt, ?_⟩
    rw [hinf, convert, ofInf, hieee]
    rfl
  · exact ⟨neg, mag, lt_of_le_of_lt hmag (largest_lt_two_pow he), by rw [hfinite, convert_finite neg hmag]⟩

end FloatFormat

/-! ### FMIN and FMAX (R103, R210) -/

theorem FVal.below_iff {x y : FVal} (hx : x.isNan = false) (hy : y.isNan = false) : x.below y = true ↔ x.Below y := by
  obtain ⟨hlt, heq, -⟩ := FVal.compare_spec hx hy
  have hzero : x.Same y → x.signBit = true → y.signBit = false → x.isFinite = true := by
    match x, y, hx, hy with
    | .inf n, .inf k, _, _ => exact fun h h1 h2 => absurd (h1.symm.trans (h.trans h2)) (by decide)
    | .inf n, .num .., _, _ => exact fun h => h.elim
    | .num .., _, _, _ => exact fun _ _ _ => rfl
  simp only [FVal.below, FVal.Below, ← hlt, ← heq, Bool.or_eq_true, Bool.and_eq_true, decide_eq_true_eq, beq_iff_eq, Bool.not_eq_true'] at hzero ⊢
  tauto

theorem FVal.Same.symm {x y : FVal} (h : x.Same y) : y.Same x := by
  match x, y, h with
  | .inf _, .inf _, h => exact Eq.symm h
  | .num .., .num .., h => exact Eq.symm h

/-- Of two values at most one is below the other. -/
theorem FVal.not_below_of_below {x y : FVal} (hx : x.isNan = false) (hy : y.isNan = false) (h : x.Below y) : ¬y.Below x := by
  obtain ⟨hlt, heq, hgt⟩ := FVal.compare_spec hx hy
  rintro (hyx | ⟨hyx, -, hy, -⟩)
  · rcases h with hxy | ⟨hxy, -⟩
    · have := hlt.2 hxy
      have := hgt.2 hyx
      omega
    · have := heq.2 hxy
      have := hgt.2 hyx
      omega
  · rcases h with hxy | ⟨-, -, -, hy'⟩
    · have := hlt.2 hxy
      have := heq.2 hyx.symm
      omega
    · rw [hy] at hy'
      cases hy'

/-- The lane that FMIN or FMAX chooses. -/
def chosenLane (F : FloatFormat) (isMax : Bool) (a b : Nat) : Nat := if (F.read a).below (F.read b) != isMax then a else b

theorem floatMinMax_nan {F : FloatFormat} (isMax : Bool) {a b : Nat} (h : (F.read a).isNan = true ∨ (F.read b).isNan = true) :
    floatMinMax F isMax a b = F.canonicalNan := if_pos (Bool.or_eq_true_iff.2 h)

theorem floatMinMax_chosen {F : FloatFormat} (isMax : Bool) {a b : Nat} (ha : (F.read a).isNan = false) (hb : (F.read b).isNan = false) :
    floatMinMax F isMax a b = F.convert Rounding.rne (F.read (chosenLane F isMax a b)) := by
  rw [chosenLane, apply_ite F.read, floatMinMax, ha, hb]
  rfl

/-- The chosen lane is one of the two, and no other is below it, or for FMAX above. -/
theorem chosenLane_spec {F : FloatFormat} (isMax : Bool) {a b : Nat} (ha : (F.read a).isNan = false) (hb : (F.read b).isNan = false) :
    let c := chosenLane F isMax a b
    c ∈ [a, b] ∧ ∀ d ∈ [a, b], if isMax then ¬(F.read c).Below (F.read d) else ¬(F.read d).Below (F.read c) := by
  have hiff := FVal.below_iff ha hb
  have hself {x : FVal} (hx : x.isNan = false) : ¬x.Below x := fun h => FVal.not_below_of_below hx hx h h
  by_cases hbelow : (F.read a).Below (F.read b)
  · have hnot := FVal.not_below_of_below ha hb hbelow
    rw [chosenLane, hiff.2 hbelow]
    cases isMax <;> simp [hnot, hself ha, hself hb]
  · rw [chosenLane, Bool.eq_false_iff.2 (mt hiff.1 hbelow)]
    cases isMax <;> simp [hbelow, hself ha, hself hb]

theorem floatRow_shape : ∀ f : BitVec 4, isIntFormat f = false →
    0 < (floatFormat f).ebits ∧ (floatFormat f).canonicalNan = (floatRow f).nan.getD 0
      ∧ 2 ^ ((floatFormat f).ebits + (floatFormat f).mbits + 1 + (floatFormat f).low) = 2 * (floatRow f).sign
      ∧ (f = 8 → (floatFormat f).low = 13) := by
  decide

theorem clean_pack {f : BitVec 4} (hf : isIntFormat f = false) (neg : Bool) {mag : Nat}
    (h : mag < 2 ^ ((floatFormat f).ebits + (floatFormat f).mbits)) : Clean f ((floatFormat f).pack neg mag) := by
  obtain ⟨-, -, hsign, hlow⟩ := floatRow_shape f hf
  refine ⟨hsign ▸ FloatFormat.pack_lt _ neg h, fun h8 => ?_⟩
  rw [FloatFormat.pack, hlow h8]
  exact Nat.mul_mod_left _ _

/-- FMIN and FMAX on the lanes of a float format. -/
theorem floatMinMax_spec {f : BitVec 4} (hf : isIntFormat f = false) (isMax : Bool) (a b : Nat) :
    let x := readFormat f
    let y := floatMinMax (floatFormat f) isMax a b
    ((x a).isNan = true ∨ (x b).isNan = true → y = (floatRow f).nan.getD 0)
      ∧ ((x a).isNan = false → (x b).isNan = false → Clean f y ∧ ∃ c ∈ [a, b], x y = x c ∧
          ∀ d ∈ [a, b], if isMax then ¬(x c).Below (x d) else ¬(x d).Below (x c)) := by
  obtain ⟨he, hnan, -⟩ := floatRow_shape f hf
  have hread : readFormat f = (floatFormat f).read := by
    funext lane
    rw [readFormat, hf]
    rfl
  rw [hread]
  refine ⟨fun h => (floatMinMax_nan isMax h).trans hnan, fun ha hb => ?_⟩
  obtain ⟨hmem, hbest⟩ := chosenLane_spec isMax ha hb
  have hc : ((floatFormat f).read (chosenLane (floatFormat f) isMax a b)).isNan = false := by
    rcases List.mem_pair.1 hmem with h | h <;> rw [h] <;> assumption
  obtain ⟨neg, mag, hmag, hpacked⟩ := FloatFormat.convert_packed he hc
  rw [floatMinMax_chosen isMax ha hb]
  exact ⟨hpacked ▸ clean_pack hf neg hmag, _, hmem, FloatFormat.read_convert_read he hc, hbest⟩

end Sys2Proof.Machine

/-!
PROOFS. Rounding to the nearest FP32 (R105, R106, R108), of a value known exactly or by its leading bits and whether something lies below them.
-/

namespace Sys2Proof.Machine

/-! ### Values of a sign and a magnitude -/

/-- x is the finite value of a sign and the magnitude q. -/
def FVal.Is (x : FVal) (neg : Bool) (q : ℚ) : Prop := x.isFinite = true ∧ x.signBit = neg ∧ x.number = (if neg then -1 else 1) * q

theorem FVal.is_num (neg : Bool) (m : Nat) (e : Int) : (FVal.num neg m e).Is neg (m * 2 ^ e) := ⟨rfl, rfl, mul_assoc ..⟩

/-- n units of the jth binade, n up to a power of two more than the mantissa holds, are the magnitude that counts n on from the binade's foot. -/
theorem FloatFormat.finite_is (F : FloatFormat) (neg : Bool) {n j : Nat} (hn : n ≤ 2 ^ (F.mbits + 1)) (hj : j = 0 ∨ 2 ^ F.mbits ≤ n) :
    (F.finite neg (n + j * 2 ^ F.mbits)).Is neg (n * 2 ^ ((j : Int) + 1 - F.bias - F.mbits)) := by
  have hpos := Nat.two_pow_pos F.mbits
  have htwo : 2 ^ (F.mbits + 1) = 2 ^ F.mbits + 2 ^ F.mbits := by rw [Nat.pow_succ]; omega
  have hdigits {i r : Nat} (hr : r < 2 ^ F.mbits) (h : n + j * 2 ^ F.mbits = r + i * 2 ^ F.mbits) :
      (n + j * 2 ^ F.mbits) / 2 ^ F.mbits = i ∧ (n + j * 2 ^ F.mbits) % 2 ^ F.mbits = r := by
    rw [h, Nat.add_mul_div_right _ _ hpos, Nat.div_eq_of_lt hr, Nat.zero_add, Nat.add_mul_mod_self_right, Nat.mod_eq_of_lt hr]
    exact ⟨rfl, rfl⟩
  rcases Nat.lt_or_ge n (2 ^ F.mbits) with hsmall | hlarge
  · obtain rfl : j = 0 := hj.resolve_right (Nat.not_le.2 hsmall)
    obtain ⟨hdiv, hmod⟩ := hdigits (i := 0) hsmall rfl
    rw [FloatFormat.finite, if_pos hdiv, hmod, Nat.cast_zero, zero_add]
    exact FVal.is_num ..
  obtain ⟨r, rfl⟩ := Nat.exists_eq_add_of_le hlarge
  rcases Nat.lt_or_ge r (2 ^ F.mbits) with hr | hr
  · obtain ⟨hdiv, hmod⟩ := hdigits (i := j + 1) hr (by ring)
    rw [FloatFormat.finite, hdiv, hmod, if_neg (Nat.succ_ne_zero j), Nat.cast_succ]
    exact FVal.is_num ..
  · obtain rfl : r = 2 ^ F.mbits := by omega
    obtain ⟨hdiv, hmod⟩ := hdigits (i := j + 2) hpos (by ring)
    rw [FloatFormat.finite, hdiv, hmod, if_neg (Nat.succ_ne_zero _)]
    have hvalue : ((2 ^ F.mbits + 2 ^ F.mbits : Nat) : ℚ) * 2 ^ ((j : Int) + 1 - F.bias - F.mbits)
        = ((2 ^ F.mbits + 0 : Nat) : ℚ) * 2 ^ (((j + 2 : Nat) : Int) - F.bias - F.mbits) := by
      rw [show ((j + 2 : Nat) : Int) - F.bias - F.mbits = ((j : Int) + 1 - F.bias - F.mbits) + 1 by push_cast; ring, zpow_add_one₀ two_ne_zero]
      push_cast
      ring
    rw [hvalue]
    exact FVal.is_num ..

/-! ### FP32 -/

theorem readFormat_fp32 : readFormat fp32 = (floatFormat fp32).read := rfl

/-- n units of 2^(j − 149) as an FP32: the lane holds them, or is infinite where they exceed the largest number. -/
structure HoldsUnits (neg : Bool) (n j : Nat) (y : Nat) : Prop where
  overflows : (2 ^ 24 - 1) * 2 ^ 253 < n * 2 ^ j → y = (floatFormat fp32).infinity neg
  fits : n * 2 ^ j ≤ (2 ^ 24 - 1) * 2 ^ 253 → (readFormat fp32 y).Is neg (n * 2 ^ ((j : Int) - 149))

/-- The magnitudes beyond the largest one are those of numbers beyond the largest number. -/
theorem largest_lt_iff {n j : Nat} (hn : n ≤ 2 ^ 24) (hj : j = 0 ∨ 2 ^ 23 ≤ n) :
    255 * 2 ^ 23 - 1 < n + j * 2 ^ 23 ↔ (2 ^ 24 - 1) * 2 ^ 253 < n * 2 ^ j := by
  rcases Nat.lt_or_ge j 253 with hlow | hhigh
  · obtain ⟨i, hi⟩ := Nat.exists_eq_add_of_lt hlow
    have hpow : 2 ^ 253 = 2 ^ i * 2 * 2 ^ j := by rw [hi]; ring
    have hone := Nat.two_pow_pos i
    have hle : n * 2 ^ j ≤ (2 ^ 24 - 1) * (2 ^ i * 2) * 2 ^ j := Nat.mul_le_mul_right _ (by omega)
    rw [hpow, ← Nat.mul_assoc]
    omega
  · obtain ⟨i, rfl⟩ := Nat.exists_eq_add_of_le hhigh
    rw [Nat.pow_add, Nat.mul_comm (2 ^ 253), ← Nat.mul_assoc, Nat.mul_lt_mul_right (Nat.two_pow_pos _)]
    cases i with
    | zero => omega
    | succ i =>
      have hone := Nat.two_pow_pos i
      have hle : 2 ^ 23 * (2 ^ i * 2) ≤ n * 2 ^ (i + 1) := Nat.mul_le_mul (by omega) (Nat.pow_succ ..).ge
      omega

theorem holdsUnits_of_magnitude (neg : Bool) {n j : Nat} (hn : n ≤ 2 ^ 24) (hj : j = 0 ∨ 2 ^ 23 ≤ n) :
    HoldsUnits neg n j (if (floatFormat fp32).largest < n + j * 2 ^ 23 then (floatFormat fp32).infinity neg
      else (floatFormat fp32).pack neg (n + j * 2 ^ 23)) := by
  have hlargest : (floatFormat fp32).largest = 255 * 2 ^ 23 - 1 := rfl
  rw [hlargest]
  refine ⟨fun h => if_pos ((largest_lt_iff hn hj).2 h), fun h => ?_⟩
  have hfits := mt (largest_lt_iff hn hj).1 (Nat.not_lt.2 h)
  rw [if_neg hfits, readFormat_fp32, FloatFormat.read_pack (F := floatFormat fp32) (by decide) neg (hlargest ▸ Nat.not_lt.1 hfits)]
  have his := (floatFormat fp32).finite_is neg hn hj
  rwa [show ((j : Int) + 1 - (floatFormat fp32).bias - (floatFormat fp32).mbits) = (j : Int) - 149 by
    change (j : Int) + 1 - (127 : Nat) - (23 : Nat) = _; push_cast; ring] at his

/-! ### Rounding to nearest -/

/-- n is t / 2^s rounded to nearest, a tie to even; its bounds are even. -/
structure NearestUnits (t s n : Nat) : Prop where
  low : 2 * ((2 * n - 1) * 2 ^ (s - 2)) ≤ t
  high : t ≤ 2 * ((2 * n + 1) * 2 ^ (s - 2))
  tie : 2 * ((2 * n - 1) * 2 ^ (s - 2)) = t ∨ t = 2 * ((2 * n + 1) * 2 ^ (s - 2)) → n % 2 = 0

/-- Rounding to nearest is by the quotient and twice the rest. -/
theorem nearestUnits_of_rest {t k n : Nat} (rest : Nat) (h : t = n * (4 * 2 ^ k) + rest) (hrest : rest < 4 * 2 ^ k) :
    NearestUnits t (k + 2) (if 4 * 2 ^ k < 2 * rest ∨ 2 * rest = 4 * 2 ^ k ∧ n % 2 = 1 then n + 1 else n) := by
  have hlow (i : Nat) : (2 * i - 1) * 2 ^ k = 2 * (i * 2 ^ k) - 2 ^ k := by rw [Nat.sub_one_mul, Nat.mul_assoc]
  have hhigh (i : Nat) : (2 * i + 1) * 2 ^ k = 2 * (i * 2 ^ k) + 2 ^ k := by rw [Nat.succ_mul, Nat.mul_assoc]
  have hquotient : n * (4 * 2 ^ k) = 4 * (n * 2 ^ k) := Nat.mul_left_comm ..
  have hsucc : (n + 1) * 2 ^ k = n * 2 ^ k + 2 ^ k := Nat.succ_mul ..
  have hodd : n = 0 ∨ 2 ^ k ≤ n * 2 ^ k := n.eq_zero_or_pos.imp_right (Nat.le_mul_of_pos_left _)
  rw [hquotient] at h
  split_ifs with hup
  · refine ⟨?_, ?_, ?_⟩ <;> simp only [Nat.add_sub_cancel, hlow, hhigh, hsucc] <;> omega
  · refine ⟨?_, ?_, ?_⟩ <;> simp only [Nat.add_sub_cancel, hlow, hhigh] <;> omega

theorem nearestUnits_roundMagnitude (neg : Bool) (t : Nat) {s : Nat} {e q : Int} (hq : e + s = q) (hs : 2 ≤ s) :
    NearestUnits t s (roundMagnitude Rounding.rne neg t e q) := by
  have hup : (e - q).toNat = 0 := Int.toNat_eq_zero.2 (by omega)
  have hdown : (q - e).toNat = s := by omega
  obtain ⟨k, rfl⟩ := Nat.exists_eq_add_of_le' hs
  have hround : roundMagnitude Rounding.rne neg t e q
      = if 4 * 2 ^ k < 2 * (t % (4 * 2 ^ k)) ∨ 2 * (t % (4 * 2 ^ k)) = 4 * 2 ^ k ∧ t / (4 * 2 ^ k) % 2 = 1 then t / (4 * 2 ^ k) + 1
        else t / (4 * 2 ^ k) := by
    simp [roundMagnitude, Rounding.rne, hup, hdown, show 2 ^ (k + 2) = 4 * 2 ^ k by ring]
  rw [hround]
  exact nearestUnits_of_rest _ (Nat.div_add_mod' t _).symm (Nat.mod_lt _ (by positivity))

/-- A nearest integer lies between the integers about the number. -/
theorem NearestUnits.le {t s n c : Nat} (h : NearestUnits t s n) (hs : 2 ≤ s) (ht : t < c * 2 ^ s) : n ≤ c := by
  obtain ⟨k, rfl⟩ := Nat.exists_eq_add_of_le' hs
  have hlow := h.low
  rw [Nat.add_sub_cancel] at hlow
  rw [show c * 2 ^ (k + 2) = 2 * (2 * c * 2 ^ k) by ring] at ht
  have := Nat.lt_of_mul_lt_mul_right (Nat.lt_of_mul_lt_mul_left (lt_of_le_of_lt hlow ht))
  omega

theorem NearestUnits.ge {t s n c : Nat} (h : NearestUnits t s n) (hs : 2 ≤ s) (ht : c * 2 ^ s ≤ t) : c ≤ n := by
  obtain ⟨k, rfl⟩ := Nat.exists_eq_add_of_le' hs
  have hhigh := h.high
  rw [Nat.add_sub_cancel] at hhigh
  rw [show c * 2 ^ (k + 2) = 2 * (2 * c * 2 ^ k) by ring] at ht
  have := Nat.le_of_mul_le_mul_right (Nat.le_of_mul_le_mul_left (ht.trans hhigh) two_pos) (Nat.two_pow_pos k)
  omega

/-- t · 2^E as an FP32: n units of 2^(j − 149), s bits above the bits of t. -/
structure RoundsToUnits (neg : Bool) (t : Nat) (E : Int) (s j n y : Nat) : Prop where
  exponent : E + s = (j : Int) - 149
  below : t < 2 ^ (s + 24)
  above : j = 0 ∨ 2 ^ (s + 23) ≤ t
  nearest : NearestUnits t s n
  holds : HoldsUnits neg n j y

theorem round_fp32 (neg : Bool) {t j : Nat} {E : Int} (ht : t ≠ 0) (hj : (floatFormat fp32).step t E = (j : Int) - 149) :
    (floatFormat fp32).round Rounding.rne neg t E
      = if (floatFormat fp32).largest < roundMagnitude Rounding.rne neg t E ((j : Int) - 149) + j * 2 ^ 23 then (floatFormat fp32).infinity neg
        else (floatFormat fp32).pack neg (roundMagnitude Rounding.rne neg t E ((j : Int) - 149) + j * 2 ^ 23) := by
  have hunits : ((j : Int) - 149 - (1 - ((floatFormat fp32).bias : Int) - (floatFormat fp32).mbits)).toNat = j := by
    change ((j : Int) - 149 - (1 - (127 : Nat) - (23 : Nat))).toNat = j
    omega
  rw [FloatFormat.round, if_neg ht]
  dsimp only
  rw [hj, hunits]
  rfl

/-- A number of at least 27 bits is rounded to the nearest units of its binade. -/
theorem roundsToUnits_round (neg : Bool) {t : Nat} (E : Int) (ht : 2 ^ 26 ≤ t) :
    ∃ s j n, 2 ≤ s ∧ RoundsToUnits neg t E s j n ((floatFormat fp32).round Rounding.rne neg t E) := by
  have hzero : t ≠ 0 := by omega
  have hlog : 26 ≤ Nat.log2 t := (Nat.le_log2 hzero).2 ht
  have hstep : (floatFormat fp32).step t E = max (E + Nat.log2 t - 23) (-149) := rfl
  obtain ⟨j, hj⟩ : ∃ j : Nat, (floatFormat fp32).step t E = (j : Int) - 149 := ⟨((floatFormat fp32).step t E + 149).toNat, by omega⟩
  obtain ⟨s, hs⟩ : ∃ s : Nat, E + s = (j : Int) - 149 := ⟨((j : Int) - 149 - E).toNat, by omega⟩
  have htwo : 2 ≤ s := by omega
  have hbelow : t < 2 ^ (s + 24) := (Nat.log2_lt hzero).1 (by omega)
  have habove : j = 0 ∨ 2 ^ (s + 23) ≤ t := by
    rcases Nat.eq_zero_or_pos j with hj0 | hj0
    · exact .inl hj0
    · exact .inr ((Nat.le_log2 hzero).1 (by omega))
  have hnearest := nearestUnits_roundMagnitude neg t hs htwo
  refine ⟨s, j, _, htwo, hs, hbelow, habove, hnearest, ?_⟩
  have hle := hnearest.le (c := 2 ^ 24) htwo (by rwa [← Nat.pow_add, Nat.add_comm])
  have hge := habove.imp_right fun h => hnearest.ge (c := 2 ^ 23) htwo (by rwa [← Nat.pow_add, Nat.add_comm])
  rw [round_fp32 neg hzero hj]
  exact holdsUnits_of_magnitude neg hle hge

/-- A number of at most 24 bits whose exponents are in range is an FP32. -/
theorem read_round_fp32 (neg : Bool) {t : Nat} {E : Int} (ht : t ≠ 0) (hbits : Nat.log2 t ≤ 23) (hlow : -149 ≤ E) (hhigh : E + Nat.log2 t ≤ 127) :
    (readFormat fp32 ((floatFormat fp32).round Rounding.rne neg t E)).Is neg (t * 2 ^ E) := by
  have hstep : (floatFormat fp32).step t E = max (E + Nat.log2 t - 23) (-149) := rfl
  obtain ⟨j, hj⟩ : ∃ j : Nat, (floatFormat fp32).step t E = (j : Int) - 149 := ⟨((floatFormat fp32).step t E + 149).toNat, by omega⟩
  obtain ⟨i, hi⟩ : ∃ i : Nat, E = (j : Int) - 149 + i := ⟨(E - ((j : Int) - 149)).toNat, by omega⟩
  have hexact : roundMagnitude Rounding.rne neg t E ((j : Int) - 149) = t * 2 ^ i := by
    rw [roundMagnitude_exact neg t (by omega), hi, add_sub_cancel_left, Int.toNat_natCast]
  have hlt : t * 2 ^ i < 2 ^ 24 := calc
    t * 2 ^ i < 2 ^ (Nat.log2 t + 1) * 2 ^ i := Nat.mul_lt_mul_of_pos_right Nat.lt_log2_self (Nat.two_pow_pos i)
    _ = 2 ^ (Nat.log2 t + 1 + i) := (Nat.pow_add ..).symm
    _ ≤ 2 ^ 24 := Nat.pow_le_pow_right two_pos (by omega)
  have hge : j = 0 ∨ 2 ^ 23 ≤ t * 2 ^ i := j.eq_zero_or_pos.imp_right fun hpos => calc
    2 ^ 23 ≤ 2 ^ (Nat.log2 t + i) := Nat.pow_le_pow_right two_pos (by omega)
    _ = 2 ^ Nat.log2 t * 2 ^ i := Nat.pow_add ..
    _ ≤ t * 2 ^ i := Nat.mul_le_mul_right _ (Nat.log2_self_le ht)
  have hvalue : (t : ℚ) * 2 ^ E = (t * 2 ^ i : Nat) * 2 ^ ((j : Int) - 149) := by
    rw [hi, zpow_add₀ two_ne_zero, zpow_natCast]
    push_cast
    ring
  rw [hvalue, round_fp32 neg ht hj, hexact]
  exact (holdsUnits_of_magnitude neg hlt.le hge).fits (Nat.mul_le_mul (Nat.le_pred_of_lt hlt) (Nat.pow_le_pow_right two_pos (by omega)))

/-! ### Values known by their leading bits -/

/-- t tells on which side of every even number x lies. -/
def Sticky (t : Nat) (x : ℚ) : Prop := ∀ j : Nat, (2 * j ≤ t ↔ (2 * j : ℚ) ≤ x) ∧ (t ≤ 2 * j ↔ x ≤ 2 * j)

theorem Sticky.nonneg {t : Nat} {x : ℚ} (h : Sticky t x) : 0 ≤ x := by simpa using (h 0).1.1 (Nat.zero_le _)

theorem Sticky.eq_iff {t : Nat} {x : ℚ} (h : Sticky t x) (j : Nat) : 2 * j = t ↔ 2 * (j : ℚ) = x := by
  obtain ⟨hle, hge⟩ := h j
  rw [le_antisymm_iff, le_antisymm_iff, hle, hge]

theorem Sticky.lt_iff {t : Nat} {x : ℚ} (h : Sticky t x) (j : Nat) : t < 2 * j ↔ x < 2 * j := by
  rw [← not_le, ← not_le, (h j).1]

/-- The nearest integer of t is the nearest one of what t stands for. -/
theorem NearestUnits.roundsTo {t s n : Nat} {x : ℚ} (hn : NearestUnits t s n) (h : Sticky t x) (hs : 2 ≤ s) (neg : Bool) :
    RoundsTo Rounding.rne neg (x / 2 ^ s) n := by
  obtain ⟨k, rfl⟩ := Nat.exists_eq_add_of_le' hs
  have hunit : (0 : ℚ) < 2 ^ (k + 2) := by positivity
  have hhigh : 2 * (((2 * n + 1) * 2 ^ k : Nat) : ℚ) = (n + 1 / 2) * 2 ^ (k + 2) := by push_cast; ring
  have hlow (hpos : n ≠ 0) : 2 * (((2 * n - 1) * 2 ^ k : Nat) : ℚ) = (n - 1 / 2) * 2 ^ (k + 2) := by
    rw [Nat.cast_mul, Nat.cast_sub (by omega)]
    push_cast
    ring
  have hle : x / 2 ^ (k + 2) ≤ n + 1 / 2 := by
    rw [div_le_iff₀ hunit, ← hhigh]
    exact (h _).2.1 hn.high
  have hge : n - 1 / 2 ≤ x / 2 ^ (k + 2) := by
    rcases Nat.eq_zero_or_pos n with rfl | hpos
    · have := div_nonneg h.nonneg hunit.le
      push_cast
      linarith
    · rw [le_div_iff₀ hunit, ← hlow hpos.ne']
      exact (h _).1.1 hn.low
  refine ⟨abs_le.2 ⟨by linarith, by linarith⟩, fun htie => ?_⟩
  rcases Nat.eq_zero_or_pos n with rfl | hpos
  · rfl
  rcases eq_or_eq_neg_of_abs_eq htie with hup | hdown
  · refine hn.tie (.inr ((h.eq_iff _).2 ?_).symm)
    rw [Nat.add_sub_cancel, hhigh, ← eq_div_iff hunit.ne']
    linarith
  · refine hn.tie (.inl ((h.eq_iff _).2 ?_))
    rw [Nat.add_sub_cancel, hlow hpos.ne', ← eq_div_iff hunit.ne']
    linarith

theorem overflow_rne_fp32 (neg : Bool) : (floatRow fp32).overflow Rounding.rne neg = (floatFormat fp32).infinity neg := by
  cases neg <;> decide

/-- The largest FP32. -/
theorem number_largest : (readFormat fp32 (floatRow fp32).largest).number = ((2 ^ 24 - 1) * 2 ^ 253 : Nat) * 2 ^ (-149 : Int) := by
  rw [show readFormat fp32 (floatRow fp32).largest = .num false (2 ^ 24 - 1) 104 from readFormat_largest]
  simp [FVal.number]
  norm_num

/-- A power of two above t is above what t stands for. -/
theorem Sticky.lt_two_pow {t i : Nat} {x : ℚ} (h : Sticky t x) : t < 2 ^ (i + 1) ↔ x < 2 ^ (i + 1) := by
  rw [pow_succ', pow_succ', h.lt_iff]
  push_cast
  rfl

theorem Sticky.nearestLane {t : Nat} {x : ℚ} (h : Sticky t x) (ht : 2 ^ 26 ≤ t) (neg : Bool) (E : Int) :
    NearestLane fp32 Rounding.rne neg (x * 2 ^ E) ((floatFormat fp32).round Rounding.rne neg t E) := by
  obtain ⟨s, j, n, hs, hexp, hbelow, habove, hnearest, hholds⟩ := roundsToUnits_round neg E ht
  have hunit : (0 : ℚ) < 2 ^ E := zpow_pos two_pos _
  have hpow (i : Nat) : (2 : ℚ) ^ ((j : Int) - 149 + i) = 2 ^ (s + i) * 2 ^ E := by
    rw [← hexp, zpow_add₀ two_ne_zero, zpow_add₀ two_ne_zero, zpow_natCast, zpow_natCast, pow_add]
    ring
  have hlt : x * 2 ^ E < 2 ^ ((j : Int) - 149 + (24 : Nat)) := by
    rw [hpow, mul_lt_mul_iff_left₀ hunit]
    exact h.lt_two_pow.1 hbelow
  have hge (hj : j ≠ 0) : 2 ^ ((j : Int) - 149 + (23 : Nat)) ≤ x * 2 ^ E := by
    rw [hpow, mul_le_mul_iff_left₀ hunit, ← not_lt]
    exact mt h.lt_two_pow.2 (Nat.not_lt.2 (habove.resolve_left hj))
  have hquotient : x * 2 ^ E / 2 ^ ((j : Int) - 149) = x / 2 ^ s := by
    rw [← hexp, zpow_add₀ two_ne_zero, zpow_natCast, mul_comm, mul_div_mul_left _ _ hunit.ne']
  have hvalue : (n : ℚ) * 2 ^ ((j : Int) - 149) = (n * 2 ^ j : Nat) * 2 ^ (-149 : Int) := by
    rw [sub_eq_add_neg, zpow_add₀ two_ne_zero, zpow_natCast]
    push_cast
    ring
  refine ⟨(j : Int) - 149, n, ?_, hquotient ▸ hnearest.roundsTo h hs neg, fun hover => ?_, fun hfit => ?_⟩
  · have hleast : (1 : Int) - (floatRow fp32).bias - (floatRow fp32).mbits = -149 := rfl
    have hnext : (j : Int) - 149 + (floatRow fp32).mbits + 1 = (j : Int) - 149 + (24 : Nat) := add_assoc ..
    rw [hleast, hnext]
    rcases Nat.eq_zero_or_pos j with hj | hj
    · exact .inl ⟨by omega, hlt⟩
    · exact .inr ⟨by omega, hge hj.ne', hlt⟩
  · rw [number_largest, hvalue, mul_lt_mul_iff_left₀ (zpow_pos two_pos _), Nat.cast_lt] at hover
    rw [hholds.overflows hover, overflow_rne_fp32]
  · rw [number_largest, hvalue, mul_le_mul_iff_left₀ (zpow_pos two_pos _), Nat.cast_le] at hfit
    rw [mul_assoc]
    exact hholds.fits hfit

end Sys2Proof.Machine

/-!
PROOFS. The special functions on FP32 lanes (R119): reciprocals and reciprocal roots are the nearest values.
-/

namespace Sys2Proof.Machine

/-! ### A floor and whether something lies below it -/

/-- Twice the greatest number whose image does not exceed N, and 1 where the image is below N, tells on which side of N the images of numbers lie. -/
theorem sticky_sides {g : Nat → Nat} (hg : StrictMono g) {N y : Nat} (hy : ∀ j, j ≤ y ↔ g j ≤ N) (j : Nat) :
    (2 * j ≤ 2 * y + (if (g y != N) = true then 1 else 0) ↔ g j ≤ N) ∧ (2 * y + (if (g y != N) = true then 1 else 0) ≤ 2 * j ↔ N ≤ g j) := by
  have hfloor : g y ≤ N := (hy y).1 le_rfl
  have hj := hy j
  by_cases hexact : g y = N
  · have hle := hg.le_iff_le (a := y) (b := j)
    simp only [hexact, bne_self_eq_false]
    grind
  · have hne : g j ≠ N := fun h => hexact (le_antisymm hfloor (h ▸ hg.monotone (hj.2 h.le)))
    simp only [bne_iff_ne.2 hexact]
    grind

/-! ### FRCP -/

theorem le_two_pow_div {m c : Nat} (hm : m ≠ 0) : 2 ^ c ≤ 2 ^ (Nat.log2 m + c + 1) / m := by
  rw [Nat.le_div_iff_mul_le (Nat.pos_of_ne_zero hm), Nat.add_assoc, Nat.add_comm (Nat.log2 m), Nat.add_assoc, Nat.pow_add]
  refine Nat.mul_le_mul_left _ (Nat.le_of_lt ?_)
  rw [Nat.add_comm]
  exact Nat.lt_log2_self

theorem sticky_div {N m : Nat} (hm : m ≠ 0) : Sticky (2 * (N / m) + (if (N % m != 0) = true then 1 else 0)) (2 * (N / m : ℚ)) := by
  intro j
  have hpos := Nat.pos_of_ne_zero hm
  have hrest : (N % m != 0) = (N / m * m != N) := by
    have := Nat.div_add_mod' N m
    rw [Bool.eq_iff_iff, bne_iff_ne, bne_iff_ne]
    omega
  obtain ⟨hle, hge⟩ := sticky_sides (g := fun j => j * m) (fun a b h => Nat.mul_lt_mul_of_pos_right h hpos)
    (fun j => Nat.le_div_iff_mul_le hpos) (N := N) j
  rw [hrest, hle, hge, mul_le_mul_iff_right₀ two_pos, mul_le_mul_iff_right₀ two_pos, le_div_iff₀ (by positivity), div_le_iff₀ (by positivity)]
  norm_cast

theorem nearestLane_recip (neg : Bool) {m : Nat} (e : Int) (hm : m ≠ 0) :
    NearestLane fp32 Rounding.rne neg (1 / (m * 2 ^ e)) ((floatFormat fp32).convert Rounding.rne (recipValue neg m e)) := by
  have hlarge : 2 ^ 39 ≤ 2 ^ (Nat.log2 m + 40) / m := le_two_pow_div hm
  have hvalue : 2 * (((2 ^ (Nat.log2 m + 40) : Nat) : ℚ) / m) * 2 ^ (-e - (Nat.log2 m + 40 : Nat) - 1) = 1 / (m * 2 ^ e) := by
    rw [zpow_sub₀ two_ne_zero, zpow_sub₀ two_ne_zero, zpow_neg, zpow_natCast, zpow_one]
    have : (2 : ℚ) ^ e ≠ 0 := zpow_ne_zero _ two_ne_zero
    push_cast
    field_simp
  exact hvalue ▸ (sticky_div hm).nearestLane (by omega) neg _

/-! ### FRSQ -/

theorem sqrtBits_eq {k n y : Nat} (hlow : y * y ≤ n) (hhigh : n < (y + 2 ^ k) * (y + 2 ^ k)) : sqrtBits k n y = Nat.sqrt n := by
  induction k generalizing y with
  | zero => exact Nat.eq_sqrt.2 ⟨hlow, hhigh⟩
  | succ k ih =>
    rw [sqrtBits]
    split_ifs with h
    · exact ih h (by rwa [Nat.add_assoc, ← Nat.two_mul, ← Nat.pow_succ'])
    · exact ih hlow (Nat.not_le.1 h)

theorem natSqrt_eq (n : Nat) : natSqrt n = Nat.sqrt n := by
  refine sqrtBits_eq (Nat.zero_le _) ?_
  rw [Nat.zero_add, ← Nat.pow_add]
  exact lt_of_lt_of_le Nat.lt_log2_self (Nat.pow_le_pow_right two_pos (by omega))

/-- t tells on which side of every even number twice the root of N / m lies. -/
def RootSides (t m N : Nat) : Prop := ∀ j, (2 * j ≤ t ↔ j * j * m ≤ N) ∧ (t ≤ 2 * j ↔ N ≤ j * j * m)

section RootSides

variable {t m k s : Nat}

theorem RootSides.lt_of_lt (h : RootSides t m (2 ^ (2 * k))) (ht : t < 2 ^ (s + 1)) : 2 ^ (2 * k) < 2 ^ s * 2 ^ s * m := by
  rw [← Nat.not_le, ← (h _).1, Nat.not_le]
  rwa [← Nat.pow_succ']

theorem RootSides.le_of_le (h : RootSides t m (2 ^ (2 * k))) (ht : 2 ^ (s + 1) ≤ t) : 2 ^ s * 2 ^ s * m ≤ 2 ^ (2 * k) := by
  rw [← (h _).1]
  rwa [← Nat.pow_succ']

/-- The bits of the root are about half of those of its square. -/
theorem RootSides.exponent_lt (h : RootSides t m (2 ^ (2 * k))) (hsmall : m < 2 ^ 25) (ht : t < 2 ^ (s + 1)) : 2 * k < s + s + 25 := by
  refine (Nat.pow_lt_pow_iff_right (a := 2) (by decide)).1 ((h.lt_of_lt ht).trans ?_)
  rw [Nat.pow_add _ _ 25, ← Nat.pow_add]
  exact Nat.mul_lt_mul_of_pos_left hsmall (Nat.two_pow_pos _)

theorem RootSides.exponent_le (h : RootSides t m (2 ^ (2 * k))) (hm : m ≠ 0) (ht : 2 ^ (s + 1) ≤ t) : s + s ≤ 2 * k := by
  refine (Nat.pow_le_pow_iff_right (a := 2) (by decide)).1 (le_trans ?_ (h.le_of_le ht))
  rw [Nat.pow_add]
  exact Nat.le_mul_of_pos_right _ (Nat.pos_of_ne_zero hm)

end RootSides

theorem rootSides_natSqrt {m : Nat} (hm : m ≠ 0) (N : Nat) :
    let y := natSqrt (N / m)
    RootSides (2 * y + (if (y * y * m != N) = true then 1 else 0)) m N := by
  have hpos := Nat.pos_of_ne_zero hm
  rw [natSqrt_eq]
  exact sticky_sides (g := fun j => j * j * m) (fun a b h => Nat.mul_lt_mul_of_pos_right (Nat.mul_self_lt_mul_self h) hpos)
    (fun j => by rw [Nat.le_sqrt, Nat.le_div_iff_mul_le hpos])

/-- The root that FRSQ rounds, of the value written with an even exponent. -/
def rootValue (m k : Nat) (h : Int) : FVal :=
  stickyValue false (natSqrt (2 ^ (2 * k) / m)) (natSqrt (2 ^ (2 * k) / m) * natSqrt (2 ^ (2 * k) / m) * m != 2 ^ (2 * k)) (-h - k)

theorem rsqrtValue_eq (m : Nat) (e : Int) :
    ∃ m' h, m ≤ m' ∧ m' ≤ 2 * m ∧ 2 * h ≤ e ∧ e ≤ 2 * h + 1 ∧ (m * 2 ^ e : ℚ) = m' * 4 ^ h ∧ rsqrtValue m e = rootValue m' (Nat.log2 m' + 40) h := by
  have hfour (h : Int) : (4 : ℚ) ^ h = 2 ^ (2 * h) := by rw [zpow_mul]; norm_num
  by_cases heven : e % 2 = 0
  · refine ⟨m, e / 2, le_rfl, by omega, by omega, by omega, ?_, ?_⟩
    · rw [hfour]
      congr 2
      omega
    · rw [rsqrtValue, if_pos heven]
      rfl
  · refine ⟨2 * m, (e - 1) / 2, by omega, le_rfl, by omega, by omega, ?_, ?_⟩
    · have he : e = 2 * ((e - 1) / 2) + 1 := by omega
      rw [hfour, he, zpow_add_one₀ two_ne_zero, ← he]
      push_cast
      ring
    · rw [rsqrtValue, if_neg heven]
      rfl

theorem root_scale {m k s : Nat} {h q : Int} (hq : -h - k - 1 + s = q) (c : ℚ) :
    c * (m * 4 ^ h) * 4 ^ q = c * (m * 4 ^ s) / (4 * 2 ^ (2 * k)) := by
  have hne : (4 : ℚ) ^ h ≠ 0 := zpow_ne_zero _ four_ne_zero
  have hk : (2 : ℚ) ^ (2 * k) = 4 ^ k := by rw [pow_mul]; norm_num
  rw [← hq, zpow_add₀ four_ne_zero, zpow_sub₀ four_ne_zero, zpow_sub₀ four_ne_zero, zpow_neg, zpow_natCast, zpow_natCast, zpow_one, hk]
  field_simp

/-- n · 2^q is the root of 1 / a rounded to nearest: n has 24 bits, and the root lies within half a unit. -/
def NearestRoot (a : ℚ) (q : ℤ) (n : Nat) : Prop :=
  2 ^ 46 * a * 4 ^ q ≤ 1 ∧ 1 < 2 ^ 48 * a * 4 ^ q ∧ (2 * n - 1) ^ 2 * a * 4 ^ q ≤ 4 ∧ 4 ≤ (2 * n + 1) ^ 2 * a * 4 ^ q

theorem RootSides.nearestRoot {t m k s n : Nat} {h q : Int} (hsides : RootSides t m (2 ^ (2 * k))) (hs : 2 ≤ s) (hq : -h - k - 1 + s = q)
    (hbelow : t < 2 ^ (s + 24)) (habove : 2 ^ (s + 23) ≤ t) (hn : n ≠ 0) (hnearest : NearestUnits t s n) : NearestRoot (m * 4 ^ h) q n := by
  have hupper := hsides.lt_of_lt (s := s + 23) hbelow
  have hlower := hsides.le_of_le (s := s + 22) habove
  obtain ⟨r, rfl⟩ := Nat.exists_eq_add_of_le' hs
  have hlow := (hsides _).1.1 hnearest.low
  have hhigh := (hsides _).2.1 hnearest.high
  rw [Nat.add_sub_cancel] at hlow hhigh
  qify at hupper hlower hlow hhigh
  rw [Nat.cast_sub (by omega)] at hlow
  have hunit : (0 : ℚ) < 4 * 2 ^ (2 * k) := by positivity
  have hfour : (4 : ℚ) ^ (r + 2) = 16 * (2 ^ r * 2 ^ r) := by rw [← mul_pow]; ring
  simp only [NearestRoot, root_scale hq, hfour, div_le_iff₀ hunit, le_div_iff₀ hunit, lt_div_iff₀ hunit]
  rw [pow_add, pow_add] at hlower hupper
  push_cast at hlow
  exact ⟨by linarith, by linarith, by linarith, by linarith⟩

/-- The nearest root of m · 4^h, where that lies far from the ends of the format. -/
theorem nearest_root {m k : Nat} {h : Int} (hm : m ≠ 0) (hsmall : m < 2 ^ 25) (hlow : -75 ≤ h) (hhigh : h ≤ 52) (hk : 2 ^ 50 * m ≤ 2 ^ (2 * k)) :
    ∃ q n, NearestRoot (m * 4 ^ h) q n
      ∧ (readFormat fp32 ((floatFormat fp32).convert Rounding.rne (rootValue m k h))).Is false (n * 2 ^ q) := by
  have hsides : RootSides _ m (2 ^ (2 * k)) := rootSides_natSqrt hm _
  have hround : (floatFormat fp32).convert Rounding.rne (rootValue m k h) = (floatFormat fp32).round Rounding.rne false _ (-h - k - 1) := rfl
  obtain ⟨s, j, n, hs, hexp, hbelow, habove, hnearest, hholds⟩ := roundsToUnits_round false (-h - k - 1) ((hsides (2 ^ 25)).1.2 (by omega))
  have hfar := hsides.exponent_lt (s := s + 23) hsmall hbelow
  have habove := habove.resolve_left (by omega)
  have hnear := hsides.exponent_le (s := s + 22) hm habove
  have hle : n ≤ 2 ^ 24 := hnearest.le (c := 2 ^ 24) hs (Nat.pow_add .. ▸ Nat.add_comm s 24 ▸ hbelow)
  have hge : 2 ^ 23 ≤ n := hnearest.ge (c := 2 ^ 23) hs (Nat.pow_add .. ▸ Nat.add_comm s 23 ▸ habove)
  refine ⟨(j : Int) - 149, n, hsides.nearestRoot hs hexp hbelow habove (by omega) hnearest, hround ▸ hholds.fits ?_⟩
  refine (Nat.mul_le_mul hle (Nat.pow_le_pow_right two_pos (show j ≤ 229 by omega))).trans ?_
  norm_num

/-! ### FP32 lanes -/

/-- The mantissas and exponents of finite FP32 lanes. -/
theorem readFormat_fp32_bounds {lane m : Nat} {neg : Bool} {e : Int} (h : readFormat fp32 lane = .num neg m e) :
    m < 2 ^ 24 ∧ -149 ≤ e ∧ e ≤ 104 := by
  rcases FloatFormat.read_cases (F := floatFormat fp32) (by decide) lane with hread | ⟨-, sign, hread⟩ | ⟨sign, mag, hmag, hread⟩
  · cases h.symm.trans hread
  · cases h.symm.trans hread
  · have hlargest : mag ≤ 255 * 2 ^ 23 - 1 := hmag
    have hmod : mag % 2 ^ 23 < 2 ^ 23 := Nat.mod_lt _ (by decide)
    have hfinite := h.symm.trans hread
    unfold FloatFormat.finite at hfinite
    split_ifs at hfinite
    · obtain ⟨rfl, rfl, rfl⟩ := FVal.num.inj hfinite
      change mag % 2 ^ 23 < 2 ^ 24 ∧ -149 ≤ 1 - ((127 : Nat) : Int) - (23 : Nat) ∧ 1 - ((127 : Nat) : Int) - (23 : Nat) ≤ 104
      omega
    · obtain ⟨rfl, rfl, rfl⟩ := FVal.num.inj hfinite
      have hpos : mag / 2 ^ 23 ≠ 0 := ‹_›
      change 2 ^ 23 + mag % 2 ^ 23 < 2 ^ 24 ∧ -149 ≤ ((mag / 2 ^ 23 : Nat) : Int) - (127 : Nat) - (23 : Nat)
        ∧ ((mag / 2 ^ 23 : Nat) : Int) - (127 : Nat) - (23 : Nat) ≤ 104
      omega

/-- FRSQ of a positive lane. -/
theorem nearest_rsqrt {lane m : Nat} {e : Int} (h : readFormat fp32 lane = .num false m e) (hm : m ≠ 0) :
    ∃ q n, NearestRoot (m * 2 ^ e) q n
      ∧ (readFormat fp32 ((floatFormat fp32).convert Rounding.rne (rsqrtValue m e))).Is false (n * 2 ^ q) := by
  obtain ⟨hsmall, hlow, hhigh⟩ := readFormat_fp32_bounds h
  obtain ⟨m', i, hmin, hmax, hle, hge, hvalue, hroot⟩ := rsqrtValue_eq m e
  rw [hvalue, hroot]
  refine nearest_root (by omega) (by omega) (by omega) (by omega) ?_
  have hlog := Nat.lt_log2_self (n := m')
  calc 2 ^ 50 * m' ≤ 2 ^ 50 * 2 ^ (Nat.log2 m' + 1) := Nat.mul_le_mul_left _ hlog.le
    _ = 2 ^ (50 + (Nat.log2 m' + 1)) := (Nat.pow_add ..).symm
    _ ≤ 2 ^ (2 * (Nat.log2 m' + 40)) := Nat.pow_le_pow_right two_pos (by omega)

end Sys2Proof.Machine

/-!
PROOFS. The special functions on FP32 lanes (R119): where FEXP2 and FLOG2 are exact, the sign of FTANH, and the lanes of the float instructions that do
not round by md (R103, R210, R211).
-/

namespace Sys2Proof.Machine

/-! ### FEXP2 -/

theorem compare_nonneg_iff (neg n : Bool) (m k : Nat) (e i : Int) :
    FVal.compare (.num neg m e) (.num n k i) ≥ 0 ↔ (FVal.num n k i).number ≤ (FVal.num neg m e).number := by
  rw [ge_iff_le, ← not_lt, (FVal.compare_num neg n m k e i).1, not_lt]

theorem compare_nonpos_iff (neg n : Bool) (m k : Nat) (e i : Int) :
    FVal.compare (.num neg m e) (.num n k i) ≤ 0 ↔ (FVal.num neg m e).number ≤ (FVal.num n k i).number := by
  rw [← not_lt, (FVal.compare_num neg n m k e i).2.2, not_lt]

theorem exp2Lane_of_big {neg : Bool} {m : Nat} {e : Int} (h : 128 ≤ (FVal.num neg m e).number) : exp2Lane neg m e = (floatFormat fp32).infinity false := by
  have hbig : FVal.compare (.num neg m e) (.num false 128 0) ≥ 0 := by
    rw [compare_nonneg_iff]
    simpa [FVal.number] using h
  simp [exp2Lane, hbig]

/-- An integer value as a quotient of integers. -/
theorem numerator_of_integer {neg : Bool} {m : Nat} {e z : Int} (h : (FVal.num neg m e).number = z) :
    (if neg then -1 else 1) * ((m * 2 ^ e.toNat : Nat) : Int) = z * ((2 ^ (-e).toNat : Nat) : Int) := by
  have hpow : (2 : ℚ) ^ e.toNat = 2 ^ e * 2 ^ (-e).toNat := by
    rw [← zpow_natCast, ← zpow_natCast, ← zpow_add₀ two_ne_zero]
    congr 1
    omega
  have hq : ((if neg then -1 else 1) * (m * 2 ^ e.toNat) : ℚ) = z * 2 ^ (-e).toNat := by
    rw [hpow, ← h, FVal.number]
    ring
  qify
  exact hq

theorem exp2Lane_of_integer {neg : Bool} {m : Nat} {e z : Int} (h : (FVal.num neg m e).number = z) (hlow : -149 ≤ z) (hhigh : z ≤ 127) :
    exp2Lane neg m e = (floatFormat fp32).round Rounding.rne false 1 z := by
  have hbig : ¬FVal.compare (.num neg m e) (.num false 128 0) ≥ 0 := by
    rw [compare_nonneg_iff, h]
    have : (z : ℚ) ≤ 127 := by exact_mod_cast hhigh
    simp [FVal.number]
    linarith
  have hsmall : ¬FVal.compare (.num neg m e) (.num true 152 0) ≤ 0 := by
    rw [compare_nonpos_iff, h]
    have : (-149 : ℚ) ≤ z := by exact_mod_cast hlow
    simp [FVal.number]
    linarith
  have hunit : ((2 ^ (-e).toNat : Nat) : Int) ≠ 0 := by positivity
  have hnum := numerator_of_integer h
  have hfloor : (if neg then -1 else 1) * ((m * 2 ^ e.toNat : Nat) : Int) / ((2 ^ (-e).toNat : Nat) : Int) = z := by
    rw [hnum, Int.mul_ediv_cancel _ hunit]
  have hrest : ((if neg then -1 else 1) * ((m * 2 ^ e.toNat : Nat) : Int) % ((2 ^ (-e).toNat : Nat) : Int)).toNat = 0 := by
    rw [hnum, Int.mul_emod_left, Int.toNat_zero]
  rw [exp2Lane]
  dsimp only
  rw [if_neg hbig, if_neg hsmall, if_pos hrest, hfloor]

/-! ### FLOG2 -/

/-- A power of two has a mantissa that is one. -/
theorem log2_of_two_pow {m : Nat} {e z : Int} (hm : m ≠ 0) (h : (m * 2 ^ e : ℚ) = 2 ^ z) : m = 2 ^ Nat.log2 m ∧ z = e + Nat.log2 m := by
  have hpos : (0 : ℚ) < 2 ^ e := zpow_pos two_pos _
  have hpow (i : Nat) : (2 : ℚ) ^ (e + i) = (2 ^ i : Nat) * 2 ^ e := by
    rw [zpow_add₀ two_ne_zero, zpow_natCast]
    push_cast
    ring
  have hge : e + Nat.log2 m ≤ z := by
    rw [← zpow_le_zpow_iff_right₀ (one_lt_two (α := ℚ)), ← h, hpow, mul_le_mul_iff_left₀ hpos, Nat.cast_le]
    exact Nat.log2_self_le hm
  have hlt : z < e + (Nat.log2 m + 1 : Nat) := by
    rw [← zpow_lt_zpow_iff_right₀ (one_lt_two (α := ℚ)), ← h, hpow, mul_lt_mul_iff_left₀ hpos, Nat.cast_lt]
    exact Nat.lt_log2_self
  obtain rfl : z = e + Nat.log2 m := by omega
  rw [hpow, mul_left_inj' hpos.ne', Nat.cast_inj] at h
  exact ⟨h, rfl⟩

theorem log2Lane_of_two_pow {m : Nat} {e : Int} (hm : m = 2 ^ Nat.log2 m) :
    let k := e + Nat.log2 m
    log2Lane m e = if k = 0 then (floatFormat fp32).pack false 0 else (floatFormat fp32).round Rounding.rne (k < 0) k.natAbs 0 := if_pos hm

theorem read_log2Lane {lane m : Nat} {e z : Int} (hread : readFormat fp32 lane = .num false m e) (hm : m ≠ 0) (h : (m * 2 ^ e : ℚ) = 2 ^ z) :
    (readFormat fp32 (log2Lane m e)).isFinite = true ∧ (readFormat fp32 (log2Lane m e)).number = z ∧ (z = 0 → log2Lane m e = 0) := by
  obtain ⟨hsmall, hlow, hhigh⟩ := readFormat_fp32_bounds hread
  obtain ⟨hone, hz⟩ := log2_of_two_pow hm h
  have hlog := (Nat.log2_lt hm).2 hsmall
  have hlane := log2Lane_of_two_pow (e := e) hone
  dsimp only at hlane
  rw [← hz] at hlane
  by_cases hzero : z = 0
  · rw [if_pos hzero] at hlane
    rw [hlane, readFormat_fp32, FloatFormat.read_pack (F := floatFormat fp32) (by decide) false (Nat.zero_le _), hzero]
    exact ⟨rfl, by simp [FloatFormat.finite, FVal.number], fun _ => rfl⟩
  · rw [if_neg hzero] at hlane
    have hbits : Nat.log2 z.natAbs < 8 := (Nat.log2_lt (Int.natAbs_ne_zero.2 hzero)).2 (by omega)
    obtain ⟨hfinite, -, hnumber⟩ := read_round_fp32 (decide (z < 0)) (E := 0) (Int.natAbs_ne_zero.2 hzero) (by omega) (by decide) (by omega)
    refine ⟨hlane ▸ hfinite, ?_, fun h => absurd h hzero⟩
    rw [hlane, hnumber, zpow_zero, mul_one]
    rcases lt_or_ge z 0 with hneg | hpos
    · rw [if_pos (decide_eq_true hneg), Nat.cast_natAbs, abs_of_neg hneg]
      simp
    · rw [if_neg (by simpa using hpos), Nat.cast_natAbs, abs_of_nonneg hpos, one_mul]

/-! ### FTANH -/

theorem FloatFormat.signBit_finite (F : FloatFormat) (neg : Bool) (mag : Nat) : (F.finite neg mag).signBit = neg := by
  unfold FloatFormat.finite
  split <;> rfl

theorem signBit_round (neg : Bool) (m : Nat) (e : Int) : (readFormat fp32 ((floatFormat fp32).round Rounding.rne neg m e)).signBit = neg := by
  have hpack {mag : Nat} (h : mag ≤ (floatFormat fp32).largest) : (readFormat fp32 ((floatFormat fp32).pack neg mag)).signBit = neg := by
    rw [readFormat_fp32, FloatFormat.read_pack (by decide) neg h, FloatFormat.signBit_finite]
  rw [FloatFormat.round]
  split_ifs with hm
  · exact hpack (Nat.zero_le _)
  · dsimp only
    split_ifs with hover
    · change (readFormat fp32 ((floatFormat fp32).infinity neg)).signBit = neg
      rw [readFormat_fp32, FloatFormat.read_infinity rfl]
      rfl
    · exact hpack (Nat.not_lt.1 hover)

theorem signBit_refine (f : Nat → Bounds) (neg : Bool) (fuel p : Nat) : (readFormat fp32 (refine f neg fuel p)).signBit = neg := by
  induction fuel generalizing p with
  | zero => exact signBit_round ..
  | succ fuel ih =>
    rw [refine]
    split_ifs
    · exact signBit_round ..
    · exact ih _

theorem signBit_tanhLane (neg : Bool) (m : Nat) (e : Int) : (readFormat fp32 (tanhLane neg m e)).signBit = neg := by
  rw [tanhLane]
  split_ifs
  · exact signBit_round ..
  · exact signBit_refine ..

/-! ### The lanes of the special functions -/

theorem specialLane_nan {lane : Nat} (h : readFormat fp32 lane = .nan) (k : Special) : specialLane k lane = 0x7FC00000 := by
  rw [readFormat_fp32] at h
  unfold specialLane
  dsimp only
  rw [h]
  rfl

theorem specialLane_inf {lane : Nat} {neg : Bool} (h : readFormat fp32 lane = .inf neg) :
    specialLane .rcp lane = (floatRow fp32).lane neg 0 ∧ specialLane .rsq lane = (if neg then 0x7FC00000 else 0)
      ∧ specialLane .exp2 lane = (if neg then 0 else 0x7F800000) ∧ specialLane .log2 lane = (if neg then 0x7FC00000 else 0x7F800000)
      ∧ specialLane .tanh lane = (floatRow fp32).lane neg 0x3F800000 := by
  rw [readFormat_fp32] at h
  unfold specialLane
  dsimp only
  rw [h]
  cases neg <;> decide

theorem specialLane_zero {lane : Nat} {neg : Bool} {e : Int} (h : readFormat fp32 lane = .num neg 0 e) :
    specialLane .rcp lane = (floatRow fp32).lane neg 0x7F800000 ∧ specialLane .rsq lane = (floatRow fp32).lane neg 0x7F800000
      ∧ specialLane .exp2 lane = 0x3F800000 ∧ specialLane .log2 lane = (floatRow fp32).lane true 0x7F800000
      ∧ specialLane .tanh lane = (floatRow fp32).lane neg 0 := by
  rw [readFormat_fp32] at h
  unfold specialLane
  dsimp only
  rw [h]
  refine ⟨(if_pos rfl).trans ?_, (if_pos rfl).trans ?_, (if_pos rfl).trans ?_, (if_pos rfl).trans ?_, (if_pos rfl).trans ?_⟩
  all_goals cases neg <;> decide

/-- The special functions of a finite nonzero lane. -/
theorem specialLane_num {lane m : Nat} {neg : Bool} {e : Int} (h : readFormat fp32 lane = .num neg m e) (hm : m ≠ 0) :
    specialLane .rcp lane = (floatFormat fp32).convert Rounding.rne (recipValue neg m e)
      ∧ specialLane .rsq lane = (if neg then 0x7FC00000 else (floatFormat fp32).convert Rounding.rne (rsqrtValue m e))
      ∧ specialLane .exp2 lane = exp2Lane neg m e ∧ specialLane .log2 lane = (if neg then 0x7FC00000 else log2Lane m e)
      ∧ specialLane .tanh lane = tanhLane neg m e := by
  rw [readFormat_fp32] at h
  unfold specialLane
  dsimp only
  rw [h]
  exact ⟨if_neg hm, if_neg hm, if_neg hm, if_neg hm, if_neg hm⟩

/-- Settles O24: every row of the table, FMIN and FMAX by the order of float values, and the special functions lane by lane. -/
theorem exactFloatLaneResults : Obligations.ExactFloatLanes := by
  unfold Obligations.ExactFloatLanes
  refine ⟨fun s f c latency sources op hrow => computesLanes_exactFloat f _ hrow s, fun f a b hf => ?_, fun lane => ?_⟩
  · exact ⟨(floatRow_shape f hf).2.1, fun isMax => floatMinMax_spec hf isMax a b⟩
  refine ⟨specialLane_nan, fun neg => specialLane_inf, fun neg e => specialLane_zero, fun neg m e hread hm => ?_⟩
  obtain ⟨hrcp, hrsq, hexp2, hlog2, htanh⟩ := specialLane_num hread hm
  simp only [hrcp, hrsq, hexp2, hlog2, htanh]
  refine ⟨nearestLane_recip neg e hm, fun hneg => ⟨if_pos hneg, if_pos hneg⟩, ?rsq, ?exp2, fun hbig => exp2Lane_of_big (hread ▸ hbig), ?log2,
    signBit_tanhLane neg m e⟩
  case rsq =>
    rintro rfl
    obtain ⟨q, n, ⟨hlow, hhigh, hle, hge⟩, hfinite, -, hnumber⟩ := nearest_rsqrt hread hm
    rw [if_neg Bool.false_ne_true, one_mul] at hnumber
    rw [if_neg Bool.false_ne_true]
    exact ⟨q, n, hlow, hhigh, hle, hge, hfinite, hnumber⟩
  case exp2 =>
    intro z hz hlow hhigh
    obtain ⟨hfinite, -, hnumber⟩ := read_round_fp32 false (t := 1) (E := z) one_ne_zero (by decide) hlow ((add_zero z).le.trans hhigh)
    rw [hread] at hz
    rw [exp2Lane_of_integer hz hlow hhigh]
    exact ⟨hfinite, by simpa using hnumber⟩
  case log2 =>
    intro z hz
    rw [hread] at hz
    cases neg
    · rw [if_neg Bool.false_ne_true]
      exact read_log2Lane hread hm (by simpa [FVal.number] using hz)
    · have hpos : (0 : ℚ) < 2 ^ z := zpow_pos two_pos _
      have hneg : (FVal.num true m e).number ≤ 0 := by
        have : (0 : ℚ) ≤ m * 2 ^ e := by positivity
        simpa [FVal.number] using this
      linarith

end Sys2Proof.Machine
